-- ==== Sys2Proof/Word.lean ====
section
/-! DEFINITION. Word types of the TLH-6424 (00_scope R12, R17; 04 R169) and their plainest arithmetic. -/

namespace Sys2Proof

/-- 8 bits (R17). -/
abbrev Byte := BitVec 8
/-- A 24-bit WORD, the unit of the word image, data memory and program parcels (R17, R169). -/
abbrev W24 := BitVec 24
/-- A 32-bit control register (R598). -/
abbrev W32 := BitVec 32
/-- A 48-bit LONG or REAL48 pattern (R17, R169). -/
abbrev L48 := BitVec 48
/-- A 48-bit tick count (R71). -/
abbrev Tick := BitVec 48

end Sys2Proof
end

