-- ==== Sys2Proof/Syntax.lean ====
section
/-! DEFINITION. The commands of the module: one constructor of `Instr` for each row of spec/opcode_table.json, with
the row's operands, and the plain data types those operands use. -/

namespace Sys2Proof

/-- The endpoint of a session (R290): a source MAC address on raw Ethernet, a source address and port on UDP, the
SPI port, or the USB port. -/
inductive Endpoint where
  | eth (mac : BitVec 48)
  | udp (addr : BitVec 128) (port : BitVec 16)
  | spi
  | usb
  deriving DecidableEq, Repr, Inhabited

/-- What a request carries beside its opcode and parameters (R283 to R287): the endpoint it came from, its version,
its SEQ, its unit path (outermost hop first), whether the path came in the extended form, BCAST and AUTH; `tag` is the
IEEE 802.1Q tag of the frame that brought it, if it had one (R276). `raw` is the PATH field and the extended path as
they came, where they hold bits that R285 or R287 ignores: a reply copies them too (R286). -/
structure Req where
  ep    : Endpoint
  major : Byte
  minor : Byte
  seq   : W32
  hops  : List (BitVec 6)
  ext   : Bool
  bcast : Bool
  auth  : Bool
  tag   : Option (BitVec 32) := none
  raw   : Option (BitVec 48 × List Byte) := none
  deriving DecidableEq, Repr, Inhabited

/-- Version ranges offered by the other end of a link: major, lowest minor, highest minor (R49, R305). -/
abbrev VerRange := Byte × Byte × Byte

/-- What the hardware finds at a start-up and the module cannot know before: whether the safety monitor's own tests
pass (R57), the switches it reads (R461) and the demand inputs it sees throughout (R462), whether the SUP image of slot A and of slot B verifies (R56), the straps
(R604), whether a partner holds ACT_N low when step 6 begins (R59), whether the stored program reads back whole
(R58), which groups of which depot pages the recall scan finds with a single-bit error (R508), the barrier versions that the I/O die
offers at step 3 (R446), and what the neighbours offer on PASS_E and PASS_W
where those ports train at step 6 (R54, R61). [Log: DESIGN CHOICE, unsafe, entry 172.] -/
structure BootEnv where
  safOk    : Bool
  supA     : Bool
  supB     : Bool
  switches : Byte
  sdi      : BitVec 4
  partner  : Bool
  ringId   : BitVec 6
  actLow   : Bool
  progOk   : Bool
  soft     : List (BitVec 10 × W32)
  iod      : List VerRange
  passE    : Option (List VerRange)
  passW    : Option (List VerRange)
  deriving DecidableEq, Repr, Inhabited

/-- What FEN takes from outside at a tick edge: the levels of the multi-function pins (R431), and the time of the
locked timebase source in 1/32,768 s (R92), used only while a source is locked. -/
structure TickIn where
  mfp     : BitVec 6
  srcTime : BitVec 47
  deriving DecidableEq, Repr, Inhabited

/-- Cause of a core fault (R156, R167). -/
inductive CoreFaultCause where
  | residue | parity | ecc
  deriving DecidableEq, Repr, Inhabited

/-- Where an SRAM error lies (R156); `unit u` is SRAM of internal unit u outside the scan cluster. -/
inductive SramPlace where
  | coreRam (c : Nat)
  | chg (task : BitVec 5)
  | prev (task : BitVec 5)
  | tags
  | viewStore | bitImage | wordImage | dataMem
  | bank (shadow : Bool) | segTable | catTable | decTable
  | unit (u : BitVec 3)
  deriving DecidableEq, Repr, Inhabited

/-- Probes answered on the host address (R277). -/
inductive ProbeKind where
  | arp | neighbour | icmp | icmp6
  deriving DecidableEq, Repr, Inhabited

/-- The two forms of TIME_SET (R311); any other form byte is `other`. -/
inductive TimeForm where
  | binary (sec : W32) (frac : BitVec 16)
  | calendar (year : BitVec 16) (month day hour minute second : Byte)
  | other (form : Byte)
  deriving DecidableEq, Repr, Inhabited

/-- A node entry of the Plainline node table (R407). -/
structure PlNode where
  node       : BitVec 16
  flags      : Byte
  port       : Byte
  mac        : BitVec 48
  tag        : BitVec 16
  group      : Byte
  layoutRev  : Byte
  outBits    : BitVec 16
  outBitBase : W24
  outWords   : BitVec 16
  outWordBase : W24
  inBits     : BitVec 16
  inBitBase  : W24
  inWords    : BitVec 16
  inWordBase : W24
  poll       : W24
  resp       : BitVec 16
  lossLimit  : Byte
  hold       : BitVec 16
  deriving DecidableEq, Repr, Inhabited

/-- One Modbus master transaction (R417). `onCommit` replaces the period for writes. -/
structure ModbusTx where
  slave    : Byte
  fn       : Byte
  start    : BitVec 16
  count    : BitVec 16
  wordBase : W24
  signed   : Bool
  onCommit : Bool
  period   : BitVec 20
  deriving DecidableEq, Repr, Inhabited

/-- The settings of an RS-485 port (R415 to R418, R226). `slaveTables` gives, for coils, discrete inputs, holding
and input registers, the number of items and the image base. -/
structure Rs485Cfg where
  master      : Bool
  baud        : BitVec 20
  parity      : BitVec 2
  stop2       : Bool
  timeoutMs   : BitVec 10
  retries     : BitVec 2
  unitAddr    : Byte
  txs         : List ModbusTx
  slaveTables : List (BitVec 12 × W24)
  mbox        : Option W24
  deriving DecidableEq, Repr, Inhabited

/-- A record selector of a meter (R420). -/
structure MbusSel where
  dif     : Byte
  vif     : Byte
  vife    : Option Byte
  storage : Nat
  tariff  : Nat
  subunit : Nat
  target  : W24
  long    : Bool
  shift   : Int
  deriving DecidableEq, Repr, Inhabited

/-- A meter entry (R420). `secondary` is the 8-byte secondary address when the meter is selected at address 253. -/
structure MbusMeter where
  index     : BitVec 10
  port      : Bool
  primary   : Byte
  secondary : Option (BitVec 64)
  ft3       : Bool
  period    : BitVec 17
  status    : Option W24
  sels      : List MbusSel
  deriving DecidableEq, Repr, Inhabited

/-- The settings of an M-Bus port: its rate, its mailbox and the meter entries written (R419, R420, R226). -/
structure MbusCfg where
  baud   : BitVec 14
  meters : List MbusMeter
  mbox   : Option W24
  deriving DecidableEq, Repr, Inhabited

/-- A receive object of a CAN FD port (R423): `len` payload bytes map onto `bits` or words from `base`. -/
structure CanRxObj where
  ident : BitVec 29
  mask  : BitVec 29
  ext   : Bool
  word  : Bool
  base  : W24
  count : BitVec 10
  deriving DecidableEq, Repr, Inhabited

/-- A transmit object of a CAN FD port (R423). -/
structure CanTxObj where
  ident    : BitVec 29
  ext      : Bool
  dlc      : BitVec 4
  fdf      : Bool
  brs      : Bool
  word     : Bool
  base     : W24
  count    : BitVec 10
  onCommit : Bool
  period   : BitVec 20
  deriving DecidableEq, Repr, Inhabited

/-- The settings of a CAN FD port (R422, R423, R226). -/
structure CanCfg where
  nominal : BitVec 20
  dataRate : BitVec 23
  listen  : Bool
  manual  : Bool
  rx      : List CanRxObj
  tx      : List CanTxObj
  mbox    : Option W24
  deriving DecidableEq, Repr, Inhabited

/-- The settings of a field Ethernet port: priority1 (R401) and the Qbv gate list (R403): gate state and interval
in 8 ns of each entry, the cycle in ns and the tick to which its start is aligned. -/
structure FieldEthCfg where
  priority1 : Byte
  gates     : List (Byte × BitVec 20)
  cycleNs   : BitVec 30
  startTick : Tick
  deriving DecidableEq, Repr, Inhabited

/-- A settings block of FEATURE_CONFIG (R316). The manual lays out the bytes of the blocks of PLAINLINE (R407),
TIMEBASE (R430), GPIO (R431) and CAST_PIN (R432); the others are given by their contents. `malformed` is a block
whose length is not that of the feature (R303), `plKind` one of PLAINLINE whose KIND is none of R407. -/
inductive Settings where
  | empty
  | malformed
  | plGroups (g : List (BitVec 48))
  | plNodes (n : List PlNode)
  | plClear
  | plKind (kind : Byte)
  | fieldEth (c : FieldEthCfg)
  | rs485 (c : Rs485Cfg)
  | mbus (c : MbusCfg)
  | can (c : CanCfg)
  | timebase (tin pps flags : Byte) (width : W32)
  | castPin (pin : Byte)
  | gpio (dir filter : Byte) (bit : W24)
  | userCrc (addr : W24) (count : BitVec 21)
  deriving DecidableEq, Repr, Inhabited

/-- What SAF senses in one SAF cycle (R459, R462 to R464): the comparators SDI2 B, SDI2 A, SDI1 B, SDI1 A (1
energised), the level of SAF_RST, and the read back levels of STO2 and STO1. -/
structure SafIn where
  sdi : BitVec 4
  rst : Bool
  sto : BitVec 2
  deriving DecidableEq, Repr, Inhabited

/-- What the I/O die senses at a slot: the raw samples of DI0 to DI15 and the sensed levels of DO0 to DO7. -/
structure IodIn where
  inp : BitVec 16
  rb  : Byte
  deriving DecidableEq, Repr, Inhabited

/-- A frame at a field Ethernet port (R401, R402, R404). -/
structure FieldFrame where
  fcsOk  : Bool
  len    : Nat
  dst    : BitVec 48
  vid    : BitVec 12 := 0
  etype  : BitVec 16
  rtag   : Option (BitVec 16)
  deriving DecidableEq, Repr, Inhabited

/-- A Plainline frame from a node (R404, R405): whether its FCS passes, the R-TAG's destination address, VLAN and sequence number
where it has one, and the fields of its payload with the E2E check value as received. -/
structure PlFrame where
  port  : BitVec 3
  fcsOk : Bool
  rtag  : Option (BitVec 48 × BitVec 12 × BitVec 16) := none
  src   : BitVec 48
  ver   : Byte
  epoch : BitVec 16
  cycle : W32
  node  : BitVec 12
  map   : W32
  flags : BitVec 16
  data  : List Byte
  e2e   : W32
  deriving DecidableEq, Repr, Inhabited

/-- An IEEE 802.1AS message as the port resolves it (R401): the offset to the grandmaster and the mean link delay
in ns, and whether the slave is synchronised after it. -/
structure GptpMsg where
  offset : BitVec 24
  pdelay : BitVec 24
  synced : Bool
  deriving DecidableEq, Repr, Inhabited

/-- A CAN frame (R422, R423). -/
structure CanFrame where
  ident  : BitVec 29
  ext    : Bool
  remote : Bool
  fdf    : Bool
  data   : List Byte
  deriving DecidableEq, Repr, Inhabited

/-- Events of the timebase lock (R75). -/
inductive LockEvent where
  | locked (offset : BitVec 24)
  | lost
  | offsetExceeded (offset : BitVec 24)
  | source (code : BitVec 4)
  deriving DecidableEq, Repr, Inhabited

/-- The header of a pass ring frame (R330) as received; `crcOk` says whether its CRC matches. -/
structure RingHdr where
  crcOk   : Bool
  east    : Bool
  ver     : Byte
  srcPart : Bool
  src     : BitVec 6
  dst     : Byte
  hops    : Byte
  more    : Bool
  wrapped : Bool
  tick    : Tick
  seq     : BitVec 16
  other   : Option Byte := none
  deriving DecidableEq, Repr, Inhabited

/-- The payload of DISCOVER (R331). -/
structure Discover where
  serial  : BitVec 128
  hostUp  : Bool
  paired  : Bool
  active  : Bool
  role    : Byte
  minor   : Byte
  bytes   : W32
  basin   : BitVec 64
  deriving DecidableEq, Repr, Inhabited

/-- The payload of TOPOLOGY (R331). -/
structure Topology where
  head    : BitVec 6
  state   : BitVec 3
  epoch   : BitVec 16
  px      : BitVec 16
  d       : BitVec 16
  members : BitVec 64
  susp    : BitVec 64
  basin   : BitVec 64
  deriving DecidableEq, Repr, Inhabited

/-- The payload of REPORT (R331, R353). -/
structure Report where
  cls    : Byte
  sev    : BitVec 3
  origin : List (BitVec 6)
  detail : BitVec 64
  deriving DecidableEq, Repr, Inhabited

/-- The header of a sync link or HB pair frame (R372) as received; `hb` says that a CONTROL frame came on the HB pair (R380). -/
structure SyncHdr where
  hb    : Bool := false
  crcOk : Bool
  ver   : Byte
  src   : Bool
  more  : Bool
  tick  : Tick
  deriving DecidableEq, Repr, Inhabited

/-- The data of RESYNC_REQUEST (R374, R393): the replica-determinism version, and the digests of the active and the shadow bank. -/
structure ResyncAsk where
  rdv    : BitVec 16
  active : BitVec 64
  shadow : BitVec 64
  deriving DecidableEq, Repr, Inhabited

/-- The payload of HEARTBEAT (R373). -/
structure Heartbeat where
  role   : BitVec 3
  relinquish : Bool
  fatal  : Bool
  epoch  : BitVec 16
  rdv    : BitVec 16
  digest : W32
  deriving DecidableEq, Repr, Inhabited

/-- A run control effect carried as item 0x02 of the record (R375). -/
inductive RunEffect where
  | run | stop
  | enable (task : BitVec 5) | disable (task : BitVec 5)
  | trigger (task : BitVec 5) | restart (task : BitVec 5)
  | start (t : Tick)
  deriving DecidableEq, Repr, Inhabited

/-- A data directive of a change set or program image (R251, R264); `owner` none is 0xFFFF. -/
inductive DirBody where
  | words (addr : W24) (vals : List W24)
  | bits (addr : W24) (vals : List Bool)
  | timer (addr : W24) (kind rule flags : Byte) (value : L48)
  deriving DecidableEq, Repr, Inhabited

/-- A directive with its owner task, and the tick of the edit that brought it. -/
structure Directive where
  owner : Option Nat
  body  : DirBody
  edit  : Tick := 0
  deriving DecidableEq, Repr, Inhabited

/-- Resynchronisation data of a STATE frame (R373, R393). The manual names what the areas hold and gives their codes
nowhere, so the operand names the content. -/
inductive ResyncData where
  | bits (addr : BitVec 22) (vals : List Bool)
  | words (addr : BitVec 21) (vals : List W24)
  | depot (page : BitVec 10) (data : List Byte)
  | parcels (shadow : Bool) (first : BitVec 21) (vals : List W24)
  | segs (shadow : Bool) (first : BitVec 14) (vals : List W32)
  | cats (shadow : Bool) (first : BitVec 13) (vals : List (BitVec 64))
  | decs (shadow : Bool) (first : BitVec 4) (vals : List W32)
  | ucode (shadow : Bool) (first : BitVec 10) (vals : List W32)
  | taskDef (shadow : Bool) (task : BitVec 5) (words : List W32)
  | taskState (task : BitVec 5) (state : BitVec 4) (pend : Bool) (lost : BitVec 16) (lt : Tick)
      (ovr : BitVec 16) (consec : Byte) (sticky : BitVec 5)
  | tick (t : Tick) (basinOfs : BitVec 48)
  | epoch (e : BitVec 16)
  | settings (code inst : Byte) (st : Settings)
  | region (index : BitVec 7) (word : Bool) (first : BitVec 17) (count : BitVec 18) (cls : BitVec 2) (owner : BitVec 5)
  | pub (index : BitVec 6) (a b : W32)
  | sub (index : BitVec 7) (a b : W32)
  | evt (index : BitVec 6) (a : W32)
  | redundancy (ctrl : W32)
  | register (addr : BitVec 20) (v : W32)
  | fieldEvent (bit : BitVec 5) (v : W32)
  | meters (l : List MbusMeter)
  | enable (code inst : Byte) (on : Bool)
  | ownerBits (l : List (BitVec 22 × Bool))
  | run (mode : BitVec 2) (gen : W32) (start : Option Tick)
  | phase (phase round : BitVec 4)
  | inits (dirs : List Directive)
  | bankClear (shadow held : Bool)
  | edit (state : BitVec 3) (tick : Tick) (undo undone undoAvail : Bool) (dirs owned : List Directive) (puts : List (BitVec 14))
  | nodeRun (node : BitVec 16) (state : Byte) (ver : Byte)
  | pending (effects : List RunEffect) (writes : List (Bool × W24 × List W24))
  | view (task : BitVec 5) (lt : Tick) (bits : List (BitVec 22 × Bool)) (words : List (BitVec 21 × W24))
  deriving DecidableEq, Repr, Inhabited

/-- An item of the input agreement record (R375); a settings change is one of the settings in `ResyncData`. -/
inductive RecItem where
  | hostWrite (word : Bool) (addr : W24) (vals : List W24)
  | runControl (e : RunEffect)
  | editTick (t : Tick)
  | undoTick (t : Tick)
  | settings (d : ResyncData)
  | gpio (levels : Byte)
  | switchover (t : Tick)
  deriving DecidableEq, Repr, Inhabited

/-- The payload of RECORD (R375). -/
structure RecordBody where
  flags   : BitVec 16
  tod     : L48
  di      : BitVec 16
  evt     : W32
  digests : List (BitVec 64)
  items   : List RecItem
  deriving DecidableEq, Repr, Inhabited

/-- The three waits of a standby in step (R378). -/
inductive StandbyWait where
  | record
  | supplement (source : BitVec 4)
  | verdict (task : BitVec 5)
  deriving DecidableEq, Repr, Inhabited

/-- The commands of the module, one for each row of spec/opcode_table.json in its order. Each is one whole,
indivisible step (file 95). An SWM row is the execution of that instruction by the core named: the instruction's
operands are where the manual puts them, in the program bank at the core's PC (R183 to R189). -/
inductive Instr where
  /-- POWER_ON_RESET (R584): VIN stays above the VIN-good threshold for 2 ms, which resets everything except the backup domain, depot and flash, and starts start-up. -/
  | powerOnReset (env : BootEnv)
  /-- PIN_RESET (R51): RESET_N is held low for at least 10 µs, which resets the module as for power-on except the state kept until power-on reset. -/
  | pinReset (lowUs : Nat) (env : BootEnv)
  /-- WATCHDOG_RESET (R488): 328 BKD clocks after an expiry with RST_EN 1, the module is reset with cause WDT. -/
  | watchdogReset (env : BootEnv)
  /-- ROLE_WAIT_EXPIRY (R369): The 10 ms or 60 ms heartbeat wait of the role decision ends, and the module drives ACT_N and becomes ACTIVE with a raised epoch. -/
  | roleWaitExpiry
  /-- POWER_FAIL_WARNING (R585): VIN falls through the warning threshold: PFAIL_N goes low, depot writes stop and the power-fail image is written. -/
  | powerFailWarning
  /-- POWER_FAIL_RESET (R585): After a warning, completion of the depot write and image, or VIN below the reset threshold, puts the module in reset. -/
  | powerFailReset (vinBelow : Bool)
  /-- BKD_SUPPLY_CHANGEOVER (R472): VIN appears or disappears, and BKD switches between the VIN rail and VBAT without losing a count. -/
  | bkdSupplyChangeover (vin : Bool)
  /-- BKD_RESET (R472): The BKD supply falls below the retention threshold, and BKD restarts as at first power-up with OSF and FIRST set. -/
  | bkdReset
  /-- VBAT_BROWNOUT (R480): VBAT falls below the brownout threshold while VIN is absent, which sets OSF with cause BOR. -/
  | vbatBrownout
  /-- CRYSTAL_STOP (R480): The 32,768 Hz crystal stops for the detection time, which holds the counter and sets OSF with cause STOP. -/
  | crystalStop
  /-- TICK_EDGE (R84): At each 10 µs tick edge the module applies stops and edits, checks guards, commits, applies host writes, latches inputs and releases tasks. -/
  | tickEdge (inp : TickIn)
  /-- GUARD_EDGE (R85): The commit guard of a task expires 2 ticks before its deadline, and an unfinished task overruns. -/
  | guardEdge (task : BitVec 5)
  /-- SEGMENT_SUSPEND (R141): The oldest segment of a preempted task stops at the next instruction boundary, commits its journal and saves its context. -/
  | segmentSuspend (core : Nat)
  /-- SEGMENT_COMMIT (R130): A segment that ended and is oldest writes its journal to the view and squashes later readers of what it writes. -/
  | segmentCommit (core : Nat)
  /-- DIRECT_MODE_ENTRY (R137): A stalled segment that reached a serial instruction or a full journal becomes oldest, commits and continues in direct mode. -/
  | directModeEntry (core : Nat)
  /-- CORE_FAULT (R157): A residue, parity or uncorrectable error in a core discards or resumes its segment on SCX. -/
  | coreFault (core : Nat) (cause : CoreFaultCause)
  /-- SRAM_UNCORRECTABLE (R156): An uncorrectable SRAM error sets a map to all ones, sets RERUN everywhere, or becomes a fatal fault, by its location. -/
  | sramUncorrectable (place : SramPlace)
  /-- SRAM_SINGLE_BIT_ERROR (R156): A single-bit SRAM error is corrected in place and counted. -/
  | sramSingleBitError (place : SramPlace)
  /-- TRAP_ABANDON (R236): A run stopped at a trap without a handler becomes oldest, and its release is abandoned and the task faulted. -/
  | trapAbandon (core : Nat)
  /-- SUP_EMULATION_PASS (R239): The supervisor ends one pass for a trapped reserved opcode with an emulation or RESERVED_OP. -/
  | supEmulationPass
  /-- NOP (R199): Does nothing. -/
  | nop (core : Nat)
  /-- REPI (R202): Interruptible prefix that repeats the next instruction REPC times. -/
  | repi (core : Nat)
  /-- REPN (R202): Non-interruptible prefix that repeats the next instruction up to 256 times. -/
  | repn (core : Nat)
  /-- CHK (R201): Records a watchdog check-in of the task that takes effect at its commit. -/
  | chk (core : Nat)
  /-- CAST (R200): Serial instruction that raises the cast trigger with source bit 1. -/
  | cast (core : Nat)
  /-- TRAP (R199): Raises trap code 0x100 + A[7:0]. -/
  | trap (core : Nat)
  /-- MOVSR (R179): Reads the special register that SUBOP selects into A. -/
  | movsr (core : Nat)
  /-- SETTSW (R181): Writes the sticky bits and trap enables of TSW without trapping. -/
  | settsw (core : Nat)
  /-- SETB (R207): A := 1. -/
  | setb (core : Nat)
  /-- CLRB (R207): A := 0. -/
  | clrb (core : Nat)
  /-- MOVB (R207): A := B. -/
  | movb (core : Nat)
  /-- NOTB (R207): A := NOT B. -/
  | notb (core : Nat)
  /-- ANDB (R207): A := B AND C. -/
  | andb (core : Nat)
  /-- ORB (R207): A := B OR C. -/
  | orb (core : Nat)
  /-- XORB (R207): A := B XOR C. -/
  | xorb (core : Nat)
  /-- NANDB (R207): A := NOT (B AND C). -/
  | nandb (core : Nat)
  /-- NORB (R207): A := NOT (B OR C). -/
  | norb (core : Nat)
  /-- XNORB (R207): A := NOT (B XOR C). -/
  | xnorb (core : Nat)
  /-- ANDNB (R207): A := B AND NOT C. -/
  | andnb (core : Nat)
  /-- ORNB (R207): A := B OR NOT C. -/
  | ornb (core : Nat)
  /-- RISE (R208): Rising-edge detection with edge memory C. -/
  | rise (core : Nat)
  /-- FALL (R208): Falling-edge detection with edge memory C. -/
  | fall (core : Nat)
  /-- SR (R207): Set-dominant latch. -/
  | sr (core : Nat)
  /-- RS (R207): Reset-dominant latch. -/
  | rs (core : Nat)
  /-- TGLB (R207): A := NOT A. -/
  | tglb (core : Nat)
  /-- MOV (R209): WORD move. -/
  | mov (core : Nat)
  /-- ADD (R209): WORD add with OVF. -/
  | add (core : Nat)
  /-- SUB (R209): WORD subtract with OVF. -/
  | sub (core : Nat)
  /-- ADDS (R209): Saturating WORD add. -/
  | adds (core : Nat)
  /-- SUBS (R209): Saturating WORD subtract. -/
  | subs (core : Nat)
  /-- NEG (R210): WORD negate. -/
  | neg (core : Nat)
  /-- ABS (R210): WORD magnitude. -/
  | abs (core : Nat)
  /-- MUL (R209): Low 24 bits of the signed product. -/
  | mul (core : Nat)
  /-- MULL (R209): Full signed 48-bit product. -/
  | mull (core : Nat)
  /-- MULLU (R209): Full unsigned 48-bit product. -/
  | mullu (core : Nat)
  /-- DIV (R210): Signed WORD division with its edge results. -/
  | div (core : Nat)
  /-- REM (R210): Signed WORD remainder. -/
  | rem (core : Nat)
  /-- DIVU (R210): Unsigned WORD division. -/
  | divu (core : Nat)
  /-- REMU (R210): Unsigned WORD remainder. -/
  | remu (core : Nat)
  /-- AND (R209): Bitwise WORD AND. -/
  | and (core : Nat)
  /-- OR (R209): Bitwise WORD OR. -/
  | or (core : Nat)
  /-- XOR (R209): Bitwise WORD XOR. -/
  | xor (core : Nat)
  /-- NOT (R209): Bitwise WORD NOT. -/
  | not (core : Nat)
  /-- SHL (R210): WORD shift left. -/
  | shl (core : Nat)
  /-- SHR (R210): WORD logical shift right. -/
  | shr (core : Nat)
  /-- SAR (R210): WORD arithmetic shift right. -/
  | sar (core : Nat)
  /-- ROL (R210): WORD rotate left. -/
  | rol (core : Nat)
  /-- ROR (R210): WORD rotate right. -/
  | ror (core : Nat)
  /-- MIN (R209): Signed lesser of B and C. -/
  | min (core : Nat)
  /-- MAX (R209): Signed greater of B and C. -/
  | max (core : Nat)
  /-- LIMIT (R209): Clamps A between B and C. -/
  | limit (core : Nat)
  /-- CMPEQ (R211): A := B = C. -/
  | cmpeq (core : Nat)
  /-- CMPNE (R211): A := B ≠ C. -/
  | cmpne (core : Nat)
  /-- CMPLT (R211): Signed less-than. -/
  | cmplt (core : Nat)
  /-- CMPLE (R211): Signed less-or-equal. -/
  | cmple (core : Nat)
  /-- CMPGT (R211): Signed greater-than. -/
  | cmpgt (core : Nat)
  /-- CMPGE (R211): Signed greater-or-equal. -/
  | cmpge (core : Nat)
  /-- CMPLTU (R211): Unsigned less-than. -/
  | cmpltu (core : Nat)
  /-- CMPLEU (R211): Unsigned less-or-equal. -/
  | cmpleu (core : Nat)
  /-- CMPGTU (R211): Unsigned greater-than. -/
  | cmpgtu (core : Nat)
  /-- CMPGEU (R211): Unsigned greater-or-equal. -/
  | cmpgeu (core : Nat)
  /-- MOVL (R212): LONG move. -/
  | movl (core : Nat)
  /-- ADDL (R212): LONG add. -/
  | addl (core : Nat)
  /-- SUBL (R212): LONG subtract. -/
  | subl (core : Nat)
  /-- ADDSL (R212): Saturating LONG add. -/
  | addsl (core : Nat)
  /-- SUBSL (R212): Saturating LONG subtract. -/
  | subsl (core : Nat)
  /-- NEGL (R212): LONG negate. -/
  | negl (core : Nat)
  /-- LMUL (R212): Low 48 bits of the signed LONG product. -/
  | lmul (core : Nat)
  /-- DIVL (R212): Signed LONG division. -/
  | divl (core : Nat)
  /-- REML (R212): Signed LONG remainder. -/
  | reml (core : Nat)
  /-- SHLL (R212): LONG shift left. -/
  | shll (core : Nat)
  /-- SHRL (R212): LONG logical shift right. -/
  | shrl (core : Nat)
  /-- SARL (R212): LONG arithmetic shift right. -/
  | sarl (core : Nat)
  /-- CMPL (R213): LONG compare under the condition that SUBOP selects. -/
  | cmpl (core : Nat)
  /-- ANDL (R212): Bitwise LONG AND. -/
  | andl (core : Nat)
  /-- ORL (R212): Bitwise LONG OR. -/
  | orl (core : Nat)
  /-- XORL (R212): Bitwise LONG XOR. -/
  | xorl (core : Nat)
  /-- MOVF (R214): REAL48 move with flush and NaN canonicalisation. -/
  | movf (core : Nat)
  /-- ADDF (R214): REAL48 add. -/
  | addf (core : Nat)
  /-- SUBF (R214): REAL48 subtract. -/
  | subf (core : Nat)
  /-- MULF (R214): REAL48 multiply. -/
  | mulf (core : Nat)
  /-- DIVF (R215): REAL48 divide with FDZ. -/
  | divf (core : Nat)
  /-- NEGF (R214): REAL48 sign inversion. -/
  | negf (core : Nat)
  /-- ABSF (R214): REAL48 sign clear. -/
  | absf (core : Nat)
  /-- SQRTF (R215): REAL48 square root. -/
  | sqrtf (core : Nat)
  /-- MINF (R214): REAL48 lesser. -/
  | minf (core : Nat)
  /-- MAXF (R214): REAL48 greater. -/
  | maxf (core : Nat)
  /-- CMPF (R213): REAL48 compare under the condition that SUBOP selects. -/
  | cmpf (core : Nat)
  /-- ROUNDF (R214): REAL48 round to an integral value, ties to even. -/
  | roundf (core : Nat)
  /-- TRUNCF (R214): REAL48 truncate to an integral value. -/
  | truncf (core : Nat)
  /-- CVTWF (R216): Signed WORD to REAL48. -/
  | cvtwf (core : Nat)
  /-- CVTUF (R216): Unsigned WORD to REAL48. -/
  | cvtuf (core : Nat)
  /-- CVTLF (R216): Signed LONG to REAL48. -/
  | cvtlf (core : Nat)
  /-- CVTFW (R217): REAL48 to WORD, rounded and saturated. -/
  | cvtfw (core : Nat)
  /-- CVTFL (R217): REAL48 to LONG, rounded and saturated. -/
  | cvtfl (core : Nat)
  /-- TRNFW (R217): REAL48 to WORD, truncated and saturated. -/
  | trnfw (core : Nat)
  /-- TRNFL (R217): REAL48 to LONG, truncated and saturated. -/
  | trnfl (core : Nat)
  /-- SXWL (R216): WORD sign-extended to LONG. -/
  | sxwl (core : Nat)
  /-- ZXWL (R216): WORD zero-extended to LONG. -/
  | zxwl (core : Nat)
  /-- CVTLW (R217): LONG to WORD, saturated. -/
  | cvtlw (core : Nat)
  /-- BCDW (R217): BCD to binary. -/
  | bcdw (core : Nat)
  /-- WBCD (R217): Binary to BCD. -/
  | wbcd (core : Nat)
  /-- MOVBLK (R219): Copies up to 256 words as if through a buffer. -/
  | movblk (core : Nat)
  /-- FILL (R218): Writes one value to up to 256 words. -/
  | fill (core : Nat)
  /-- SCAN (R220): Finds the first table entry equal to C. -/
  | scan (core : Nat)
  /-- LOOKUP (R220): Interpolates a table value at x = C. -/
  | lookup (core : Nat)
  /-- PIDS (R222): Executes one PID step on a 17-word record. -/
  | pids (core : Nat)
  /-- MOVBLKB (R219): Copies up to 256 bits. -/
  | movblkb (core : Nat)
  /-- FILLB (R218): Writes one bit to up to 256 bits. -/
  | fillb (core : Nat)
  /-- DEPRD (R224): Serial read of a program depot page into 86 words. -/
  | deprd (core : Nat)
  /-- DEPWR (R224): Serial queueing of a program depot page write, waiting for a queue place. -/
  | depwr (core : Nat)
  /-- MSGSND (R225): Serial queueing of an acyclic message on a serial-class port. -/
  | msgsnd (core : Nat)
  /-- JMP (R227): Jump to target A. -/
  | jmp (core : Nat)
  /-- BZ (R227): Branch if A = 0. -/
  | bz (core : Nat)
  /-- BNZ (R227): Branch if A ≠ 0. -/
  | bnz (core : Nat)
  /-- CALL (R228): Pushes the return address and jumps, or raises CALL_DEPTH. -/
  | call (core : Nat)
  /-- RET (R227): Pops the return address, or acts as SEGEND when the stack is empty. -/
  | ret (core : Nat)
  /-- SEGEND (R130): Ends the segment, which then waits to commit as oldest. -/
  | segend (core : Nat)
  /-- TON (R231): On-delay timer on LT. -/
  | ton (core : Nat)
  /-- TOF (R231): Off-delay timer on LT. -/
  | tof (core : Nat)
  /-- TP (R231): Pulse timer on LT. -/
  | tp (core : Nat)
  /-- TONR (R231): Retentive on-delay timer. -/
  | tonr (core : Nat)
  /-- CTU (R231): Up counter. -/
  | ctu (core : Nat)
  /-- CTD (R231): Down counter. -/
  | ctd (core : Nat)
  /-- ELT (R229): Elapsed LT since START while RUN. -/
  | elt (core : Nat)
  /-- TOD (R232): Returns the latched time of day in the format that SUBOP selects. -/
  | tod (core : Nat)
  /-- CUSTOMER_OPCODE (R243): An opcode 0xE0 to 0xEF with a valid decode entry forms its addresses and runs its microprogram. -/
  | customerOpcode (core : Nat)
  /-- RESERVED_OPCODE (R237): A reserved opcode without a valid decode entry is passed to the supervisor. -/
  | reservedOpcode (core : Nat)
  /-- HOST_ETHERNET_FRAME (R276): A raw Ethernet frame of EtherType 0x88B6 to the module's MAC is taken as one command packet. -/
  | hostEthernetFrame (dst src : BitVec 48) (tag : Option (BitVec 32)) (pkt : List Byte)
  /-- UDP_DATAGRAM (R277): A UDP datagram to the configured port is taken as one command packet. -/
  | udpDatagram (addr : BitVec 128) (port dport : BitVec 16) (fragmented : Bool) (pkt : List Byte)
  /-- ARP_REQUEST (R277): An ARP, neighbour discovery or ICMP echo request on the host port is answered. -/
  | arpRequest (kind : ProbeKind) (target : BitVec 128) (data : List Byte)
  /-- SPI_WRITE (R278): An SPI WRITE transaction delivers one packet with its trailer. -/
  | spiWrite (bytes : List Byte)
  /-- SPI_READ (R280): An SPI READ transaction returns the oldest outbound packet, which leaves the queue only when read in full. -/
  | spiRead (clocked : Nat)
  /-- SPI_STATUS (R279): An SPI STATUS transaction returns the SPI status word and clears its RC bits. -/
  | spiStatus
  /-- USB_BULK_TRANSFER (R281): A USB bulk OUT transfer carries one command packet with its trailer. -/
  | usbBulkTransfer (bytes : List Byte)
  /-- FRAGMENT (R296): A fragment is held for reassembly, and the message continues when complete. -/
  | fragment (ep : Endpoint) (pkt : List Byte)
  /-- FRAG_TIMEOUT (R297): Reassembly of a message expires 2 s after its first fragment, and ST_FRAG_TIMEOUT is sent. -/
  | fragTimeout (ep : Endpoint) (seq : W32)
  /-- HOST_LINK_CHANGE (R334): A host link goes up or down, which ends sessions and may cause a head election. -/
  | hostLinkChange (up : Bool)
  /-- HELLO (R299): Opens a session and negotiates the version and MAX_PKT. -/
  | hello (r : Req) (count : Byte) (maxPkt : BitVec 16) (ranges : List VerRange)
  /-- AUTH_CHALLENGE (R542): Returns the nonce, shares, KEM ciphertext and the module's dual signature. -/
  | authChallenge (r : Req) (key : BitVec 16) (share ek : List Byte)
  /-- AUTH_PROVE (R542): Checks the operator's dual signature and proves the session with derived keys. -/
  | authProve (r : Req) (sig : List Byte)
  /-- BYE (R305): Ends a session. -/
  | bye (r : Req) (index : Byte)
  /-- SESSION_INFO (R305): Returns the session's state. -/
  | sessionInfo (r : Req)
  /-- UNIT_INFO (R306): Returns the unit's kind, children and index. -/
  | unitInfo (r : Req)
  /-- UNIT_STATUS (R607): Returns health, mode, role and fault flags. -/
  | unitStatus (r : Req)
  /-- BASIN_MAP (R362): Returns the head, the ring state and the 64 member records. -/
  | basinMap (r : Req)
  /-- START_MODE (R306): Reads or stores the start mode. -/
  | startMode (r : Req) (mode : Byte)
  /-- RESET (R304): Replies and then resets the addressed module, pair partner or basin head. -/
  | reset (r : Req) (kind : Byte)
  /-- IMG_READ (R90): Returns committed image values between two tick edges. -/
  | imgRead (r : Req) (space : Byte) (addr : W24) (count : BitVec 16)
  /-- IMG_WRITE (R90): Queues host image writes for the next tick edge and replies after they are applied. -/
  | imgWrite (r : Req) (space : Byte) (addr : W24) (count : BitVec 16) (vals : List Byte)
  /-- IMG_LAYOUT (R307): Returns the image layout. -/
  | imgLayout (r : Req)
  /-- PRG_LOAD_OPEN (R308): Opens a program load in STOP. -/
  | prgLoadOpen (r : Req)
  /-- PRG_LOAD_BLOCK (R308): Carries a block of the program image. -/
  | prgLoadBlock (r : Req) (offset : W32) (data : List Byte)
  /-- PRG_LOAD_CLOSE (R309): Checks the program image, loads it under R70 and stores it. -/
  | prgLoadClose (r : Req)
  /-- PRG_INFO (R308): Returns the bank status, generation and digests. -/
  | prgInfo (r : Req)
  /-- PRG_READ (R249): Returns items of a part of a bank. -/
  | prgRead (r : Req) (bank part : Byte) (first : W24) (count : BitVec 16)
  /-- EDIT_OPEN (R254): Opens an edit, claims EDIT_BUILD and clears the shadow bank. -/
  | editOpen (r : Req)
  /-- EDIT_BLOCK (R254): Carries a block of the change set. -/
  | editBlock (r : Req) (offset : W32) (data : List Byte)
  /-- EDIT_CLOSE (R255): Checks the change set and starts the build. -/
  | editClose (r : Req)
  /-- EDIT_APPLY (R258): Arms the edit for edit tick E. -/
  | editApply (r : Req) (tick : Tick)
  /-- EDIT_ABORT (R266): Discards or disarms the edit, or answers ST_TOO_LATE. -/
  | editAbort (r : Req)
  /-- UNDO_EDIT (R267): Arms a return to the previous bank at undo tick U. -/
  | undoEdit (r : Req) (tick : Tick)
  /-- EDIT_STATUS (R253): Returns the edit state and its registers. -/
  | editStatus (r : Req)
  /-- EDIT_BUILD_DONE (R256): The shadow bank build completes in BUILT with its digest, or fails in FAILED. -/
  | editBuildDone (ecc : Bool)
  /-- EDIT_TICK (R259): At the armed edit or undo tick the shadow bank becomes active, and tags, RERUN and FULL are reset. -/
  | editTick
  /-- EDIT_DRAIN_END (R260): The last release on the previous bank ends, so the edit returns to NONE and UNDO_AVAIL is set. -/
  | editDrainEnd
  /-- EDIT_STORED (R268): The background store of the active bank to flash completes and switches the stored-program selector. -/
  | editStored
  /-- RUN (R107): Enters RUN at a named start tick or at the next tick edge. -/
  | run (r : Req) (tick : Tick)
  /-- RUN_START_TICK (R107): At the start tick the module enters RUN and begins releases and triggers. -/
  | runStartTick
  /-- STOP (R108): Enters STOP at the next tick edge, abandoning releases and applying STOP_OUT. -/
  | stop (r : Req)
  /-- STEP (R109): Enters or stays in STEP and releases the named task once. -/
  | step (r : Req) (task : Byte)
  /-- TASK_ENABLE (R105): Returns a DISABLED task to IDLE. -/
  | taskEnable (r : Req) (task : Byte)
  /-- TASK_DISABLE (R105): Disables a task at the next tick edge. -/
  | taskDisable (r : Req) (task : Byte)
  /-- TASK_TRIGGER (R79): Triggers an event task in RUN. -/
  | taskTrigger (r : Req) (task : Byte)
  /-- TASK_RESTART (R98): Returns a FAULTED task to IDLE. -/
  | taskRestart (r : Req) (task : Byte)
  /-- TASK_STATUS (R310): Returns the state, LT, counters and times of one task. -/
  | taskStatus (r : Req) (task : Byte)
  /-- RUN_STATUS (R310): Returns the mode, tick and task maps. -/
  | runStatus (r : Req)
  /-- TIME_GET (R311): Returns the RTC and timebase state. -/
  | timeGet (r : Req)
  /-- TIME_SET (R479): Checks a date, writes the staging registers and commits the RTC. -/
  | timeSet (r : Req) (form : TimeForm)
  /-- WAKE_SET (R481): Sets N and starts a full wake interval. -/
  | wakeSet (r : Req) (n : W24)
  /-- PWRON_RELEASE (R482): Releases PWRON through RTC_PWR.PWRON_CLR. -/
  | pwronRelease (r : Req)
  /-- DEPOT_READ (R506): Returns depot pages with their uncorrectable-group maps. -/
  | depotRead (r : Req) (page : BitVec 16) (pages : Byte)
  /-- DEPOT_WRITE (R505): Queues a host page write and replies when it ends. -/
  | depotWrite (r : Req) (page : BitVec 16) (data : List Byte)
  /-- DEPOT_STATUS (R530): Returns the depot state and counters. -/
  | depotStatus (r : Req)
  /-- LOG_READ (R526): Returns accession records from a first index. -/
  | logRead (r : Req) (first : W32) (count lowest : Byte)
  /-- LOG_FREEZE (R527): Stops or resumes flushing for 60 s. -/
  | logFreeze (r : Req) (freeze : Byte)
  /-- LOG_STATUS (R520): Returns log indices, fill and losses. -/
  | logStatus (r : Req)
  /-- NOTICE_SUBSCRIBE (R321): Subscribes the session to notices from a severity. -/
  | noticeSubscribe (r : Req) (lowest : Byte)
  /-- UPD_BEGIN (R551): Opens or resumes a download of a part into its idle slot. -/
  | updBegin (r : Req) (part : Byte) (length : W32)
  /-- UPD_BLOCK (R552): Writes units of the image, checks block 0 and saves the bitmap every 64 blocks. -/
  | updBlock (r : Req) (part : Byte) (offset : W32) (data : List Byte)
  /-- UPD_VERIFY (R555): Hashes the payload and marks the slot VALID or INVALID. -/
  | updVerify (r : Req) (part : Byte)
  /-- UPD_ACTIVATE (R556): Checks compatibility and writes the boot selector to trial the new slot. -/
  | updActivate (r : Req) (part : Byte)
  /-- ACTIVATION_RESET (R556): 100 ms after activation, manifest or rejection, the module resets as under RESET. -/
  | activationReset
  /-- UPD_CONFIRM (R558): Confirms a trial after its checks have passed, in HOST mode. -/
  | updConfirm (r : Req)
  /-- UPD_AUTO_CONFIRM (R558): In AUTO mode the trial is confirmed as soon as every check passes. -/
  | updAutoConfirm
  /-- UPD_TRIAL_EXPIRED (R559): The confirm window ends without confirmation, and the module resets. -/
  | updTrialExpired
  /-- UPD_REJECT (R560): Rolls the trial back and resets. -/
  | updReject (r : Req)
  /-- UPD_STATUS (R568): Returns the five part records. -/
  | updStatus (r : Req)
  /-- UPD_MANIFEST (R563): Checks a signed manifest and puts every changed part into TRIAL. -/
  | updManifest (r : Req) (manifest : List Byte)
  /-- PAIR_STATUS (R315): Returns roles, paths, epoch and versions. -/
  | pairStatus (r : Req)
  /-- PAIR_SWITCHOVER (R390): Chooses switchover tick S and announces it to the standby. -/
  | pairSwitchover (r : Req)
  /-- PAIR_RESYNC (R394): Moves the standby to STANDBY_SYNCING. -/
  | pairResync (r : Req)
  /-- FEATURE_CONFIG (R316): Writes a feature's settings block. -/
  | featureConfig (r : Req) (code inst : Byte) (st : Settings)
  /-- FEATURE_ENABLE (R32): Claims the feature's resources and enables it, or refuses with the holder. -/
  | featureEnable (r : Req) (code inst : Byte)
  /-- FEATURE_DISABLE (R34): Disables a feature and releases its claims. -/
  | featureDisable (r : Req) (code inst : Byte)
  /-- FEATURE_STATUS (R316): Returns a feature's enabled byte and status block. -/
  | featureStatus (r : Req) (code inst : Byte)
  /-- RES_QUERY (R316): Returns the claim table and conflict registers. -/
  | resQuery (r : Req)
  /-- DIO_STATUS (R468): Returns local I/O and barrier state. -/
  | dioStatus (r : Req)
  /-- DIO_CONFIG (R449): Stores the local I/O settings and sends the CFG to the I/O die. -/
  | dioConfig (r : Req) (block : List Byte)
  /-- SAF_STATUS (R317): Returns the safety monitor state. -/
  | safStatus (r : Req)
  /-- CAST_NOW (R352): Raises a module cast, or a basin-wide cast through the head. -/
  | castNow (r : Req) (scope : Byte)
  /-- CAST_ARM (R46): Clears HELD, SOURCE and MISSED and arms the next cast. -/
  | castArm (r : Req)
  /-- CAST_READ (R318): Returns the cast status and cast copies of a block. -/
  | castRead (r : Req) (base : W32) (offset count : BitVec 16)
  /-- REG_READ (R319): Reads registers in ascending order. -/
  | regRead (r : Req) (addr : W32) (count : BitVec 16)
  /-- REG_WRITE (R319): Writes registers in ascending order. -/
  | regWrite (r : Req) (addr : W32) (count : BitVec 16) (vals : List W32)
  /-- IDENT (R320): Returns ordering code, serial number, MAC and versions. -/
  | ident (r : Req)
  /-- ATTEST (R538): Returns signed measurements of the five parts. -/
  | attest (r : Req) (nonce : List Byte)
  /-- CERT_READ (R537): Returns one certificate of an identity key chain. -/
  | certRead (r : Req) (key pos : Byte)
  /-- KEY_ENROL (R541): Writes an operator key into an enrolment slot. -/
  | keyEnrol (r : Req) (index : BitVec 16) (role : Byte) (ed mldsa : List Byte)
  /-- KEY_REMOVE (R540): Frees a key slot and ends the sessions proved with it. -/
  | keyRemove (r : Req) (index : BitVec 16)
  /-- KEY_LIST (R320): Returns the enrolled key indices and roles. -/
  | keyList (r : Req)
  /-- AUTH_LOCKOUT_END (R544): The 60 s authentication lockout ends. -/
  | authLockoutEnd
  /-- ENABLE_BIT_WRITE (R33): Writing a feature enable bit to 1 claims its resources in one step, or leaves it 0 and sets CONFLICT. -/
  | enableBitWrite (code inst : Byte)
  /-- ENABLE_BIT_CLEAR (R34): Clearing a feature enable bit releases its claims on the same edge. -/
  | enableBitClear (code inst : Byte)
  /-- RTC_COMMIT (R476): A write of 1 to RTC_CTRL.COMMIT loads the counter from staging and clears OSF. -/
  | rtcCommit
  /-- SLEEP (R483): A write to RTC_PWR.SLEEP gates the control die in STOP and SIMPLEX, or sets SLEEP_REFUSED. -/
  | sleep
  /-- WAKE_FROM_SLEEP (R484): A periodic wake, the watchdog window, SPI_CS_N or USB VBUS ends sleep. -/
  | wakeFromSleep (source : BitVec 2)
  /-- WAKE_FIRING (R482): The periodic wake interval ends, which sets PERIODIC, drives PWRON high and wakes the die. -/
  | wakeFiring
  /-- RTC_TRIM_STEP (R477): Every 2^20 crystal periods the counter advances by 1 + TRIM or holds. -/
  | rtcTrimStep
  /-- WDT_ENABLE (R485): A write of 1 to WDT_CTRL.EN while 0 enables the watchdog and starts a window. -/
  | wdtEnable
  /-- WDT_LOCK (R495): A write of 1 to WDT_CTRL.LOCK locks the watchdog configuration until reset. -/
  | wdtLock
  /-- WDT_SERVICE (R486): A write to WDT_SERVICE is a valid service in the open window or a violation. -/
  | wdtService
  /-- WDT_TIMEOUT (R486): C reaches PERIOD without a service, which causes an expiry with cause TIMEOUT. -/
  | wdtTimeout
  /-- WDT_WINDOW_OPEN (R487): C reaches WOPEN, and a sleeping control die is woken. -/
  | wdtWindowOpen
  /-- WDT_KEY_WRITE (R494): A write to WDT_KEY advances, completes or breaks the disable key sequence. -/
  | wdtKeyWrite (key : BitVec 16)
  /-- WDT_KEY_LAPSE (R494): A first key not followed within 66 BKD clocks lapses and sets KEY_ERR. -/
  | wdtKeyLapse
  /-- CAST_TRIGGER_WRITE (R609): A write of CAST_CTRL.TRIGGER raises the cast trigger with source bit 0. -/
  | castTriggerWrite
  /-- CAST_CTRL_ARM (R609): A write of CAST_CTRL.ARM acts as CAST_ARM. -/
  | castCtrlArm
  /-- CAST_IN_EDGE (R432): A rising edge of at least 1 µs on CAST_IN raises the cast trigger with source bit 4. -/
  | castInEdge (widthNs : Nat)
  /-- CRC_PRESET_LOAD (R437): A CRC_CFG write with PRESET not 0 loads the preset parameters. -/
  | crcPresetLoad (ch : BitVec 2) (value : W32)
  /-- USER_CRC_CHUNK (R428): A USER_CRC run processes a chunk of 4,096 words between two tick edges, and BUSY clears at the end. -/
  | userCrcChunk (ch : BitVec 2)
  /-- SETTINGS_STORE (R623): Within 1 s of a write to a stored field, the settings are written to the other generation and the selector switched. -/
  | settingsStore
  /-- RING_EN_CLEAR (R325): Clearing PAS_CTRL.RING_EN closes the by-pass and takes the module off the ring. -/
  | ringEnClear
  /-- PAS_PUB_WRITE (R347): A publication write takes effect at the next exchange tick if the head admits it within the budget. -/
  | pasPubWrite (index : BitVec 6) (a b : W32)
  /-- PAS_SUB_WRITE (R344): A subscription write is checked against INPUT regions and takes effect at the next exchange tick. -/
  | pasSubWrite (index : BitVec 7) (a b : W32)
  /-- PAS_EVT_WRITE (R350): A pass-ring event owner write names the bit address that triggers the event. -/
  | pasEvtWrite (event : BitVec 6) (data : W32)
  /-- FLD_EVT_WRITE (R414): A field event bit write names an INPUT bit address or sets MAP_ERR. -/
  | fldEvtWrite (bit : BitVec 5) (data : W32)
  /-- HEALTH_EN_WRITE (R410): Enabling the Plainline health region is checked against INPUT regions. -/
  | healthEnWrite (value : W32)
  /-- FLUSH_STEP (R523): A flush step moves the next record, or the closed LOST record, to the flash log. -/
  | flushStep
  /-- FREEZE_EXPIRED (R527): A log freeze ends after 60 s. -/
  | freezeExpired
  /-- PAGE_WRITE_DONE (R505): A depot page write ends, and the controller starts the next queued write. -/
  | pageWriteDone
  /-- DEPOT_BUSY_TIMEOUT (R507): A DEPOT_WRITE waiting 10 ms for a queue place is refused with ST_DEPOT_BUSY. -/
  | depotBusyTimeout
  /-- PATROL_READ (R509): Every 84.375 s the patrol reads a page at reduced margin and queues a refresh if needed. -/
  | patrolRead (weak corrected : BitVec 32)
  /-- BARRIER_SLOT (R439): At each slot FEN sends a down frame with DO, REQ and CFG. -/
  | barrierSlot
  /-- DOWN_FRAME_RX (R442): The I/O die takes a good down frame, restarts its silence timer, applies DO and adopts a repeated CFG. -/
  | downFrameRx (b : List Byte)
  /-- UP_FRAME_RX (R454): FEN takes a good up frame into the input buffer and the DIO and SAF mirrors. -/
  | upFrameRx (b : List Byte)
  /-- BARRIER_SILENCE (R443): No good down frame for DO_SILENCE_TIMEOUT switches outputs off and gives both STO channels SILENCE. -/
  | barrierSilence
  /-- BARRIER_LOST (R445): No good up frame for 500 µs clears BARRIER_UP and writes BARRIER_OK 0. -/
  | barrierLost
  /-- RESET_PATTERN (R444): The reset pattern for 8 µs switches outputs off and restarts SAF in torque off. -/
  | resetPattern
  /-- VDO_LOW (R455): VDO falls below 18.0 V and sets SUPPLY_LOW. -/
  | vdoLow
  /-- DO_THERMAL_RETRY (R455): A thermally shut-off output switches on again every 100 ms while commanded on. -/
  | doThermalRetry (ch : BitVec 3)
  /-- SAF_CYCLE (R463): Every 1 ms SAF evaluates causes and restart pulses and decides ON for each channel. -/
  | safCycle (inp : SafIn)
  /-- DARK_PULSE_TEST (R464): Every 2 s an ON channel is switched off for 300 µs and its readback checked. -/
  | darkPulseTest (ch2 offSeen onSeen : Bool)
  /-- SWITCH_BANK_READ (R461): Every 100 ms SAF reads the switches, and a change other than S7 faults both channels. -/
  | switchBankRead (switches : Byte)
  /-- PHY_POLL (R400): Every 10 ms the module polls the PHYs through MDIO and updates link state. -/
  | phyPoll (links : BitVec 8)
  /-- FIELD_FRAME_RX (R402): A field port accepts Plainline, gPTP or R-TAG frames and discards others. -/
  | fieldFrameRx (port : BitVec 3) (f : FieldFrame)
  /-- GPTP_FRAME (R401): An IEEE 802.1AS frame is processed for time synchronisation. -/
  | gptpFrame (port : BitVec 3) (m : GptpMsg)
  /-- QBV_GATE_ENTRY (R403): A gate control interval ends, and the next entry's gate states take effect. -/
  | qbvGateEntry (port : BitVec 3)
  /-- FRER_RECOVERY_RESET (R404): The 802.1CB recovery reset timer of 50 ms expires. -/
  | frerRecoveryReset (pair : BitVec 2)
  /-- PL_POLL_EXPIRY (R408): POLL ticks pass since a node's last send point, which makes a send point. -/
  | plPollExpiry (node : BitVec 12)
  /-- PL_IN_FRAME (R409): An IN frame that matches and arrives within RESP writes the node's input buffer. -/
  | plInFrame (f : PlFrame)
  /-- PL_RESP_EXPIRY (R409): RESP passes without an accepted IN frame, which counts a miss and may make the node LOST. -/
  | plRespExpiry (node : BitVec 12)
  /-- PL_CFG_RESPONSE (R411): A node's CFG response sets its version, MAP check and state. -/
  | plCfgResponse (f : PlFrame) (offer : List VerRange) (map : W32)
  /-- PL_DIAG_POLL (R411): Every 100 ms a DIAG request is sent to the next RUNNING node. -/
  | plDiagPoll
  /-- PL_DIAG_RESPONSE (R411): A node's DIAG response updates its counters. -/
  | plDiagResponse (f : PlFrame)
  /-- MODBUS_TRANSACTION_DUE (R417): A master transaction falls due and starts when the port is free. -/
  | modbusTransactionDue (port : BitVec 1) (index : BitVec 6)
  /-- MODBUS_RESPONSE (R417): A valid response writes the input buffer or completes a write. -/
  | modbusResponse (port : BitVec 1) (adu : List Byte)
  /-- MODBUS_TIMEOUT (R417): The response timeout expires, and the transaction is retried or fails. -/
  | modbusTimeout (port : BitVec 1)
  /-- MODBUS_SLAVE_REQUEST (R418): A slave port takes a request and answers within 1 ms or by exception. -/
  | modbusSlaveRequest (port : BitVec 1) (adu : List Byte)
  /-- PORT_MESSAGE_START (R225): A queued message is sent when its port is next free, and its end writes the mailbox. -/
  | portMessageStart (port : BitVec 3)
  /-- MBUS_POLL (R420): A meter's poll period ends, and the port polls it. -/
  | mbusPoll (meter : BitVec 10)
  /-- MBUS_ANSWER (R421): A meter reply is decoded, and its targets and status word are written together. -/
  | mbusAnswer (port : BitVec 1) (telegram : List Byte)
  /-- MBUS_ANSWER_TIMEOUT (R421): The answer wait expires, and the poll is retried or fails. -/
  | mbusAnswerTimeout (port : BitVec 1)
  /-- MBUS_OVERCURRENT (R421): MBUS_OC switches the bus supply off. -/
  | mbusOvercurrent (port : BitVec 1)
  /-- CAN_RX (R423): A received CAN frame is mapped by the lowest matching receive object. -/
  | canRx (port : BitVec 1) (f : CanFrame)
  /-- CAN_TX_PERIOD (R423): A periodic transmit object falls due and is queued. -/
  | canTxPeriod (port : BitVec 1) (obj : BitVec 5)
  /-- CAN_BUS_OFF (R423): The error counters reach bus-off. -/
  | canBusOff (port : BitVec 1)
  /-- CAN_BUS_OFF_RECOVERY (R423): After 128 occurrences of 11 recessive bits the port recovers. -/
  | canBusOffRecovery (port : BitVec 1)
  /-- TIME_IN_EDGE (R430): The marking edge of TIME_IN is time-stamped as the source second or rejected. -/
  | timeInEdge (rising : Bool) (offsetNs : BitVec 32)
  /-- PPS_PULSE_END (R430): PPS_OUT falls PPS_WIDTH µs after it rose at a whole second. -/
  | ppsPulseEnd
  /-- TIMEBASE_LOCK (R75): LOCKED sets after 16 s within ±1 µs, or clears on loss or offset, or the active source changes. -/
  | timebaseLock (e : LockEvent)
  /-- PASS_LINK_BREAK (R327): A pass link loses block lock or too many CRCs, and both ends wrap within 50 µs. -/
  | passLinkBreak (east : Bool)
  /-- PASS_LINK_UP (R327): A pass link trains with lock and version, and wrapping stops at the next frame boundary. -/
  | passLinkUp (east : Bool) (offer : List VerRange)
  /-- DISCOVER_ROUND (R332): At each basin tick that is a multiple of 1,000 the module sends DISCOVER on both rings. -/
  | discoverRound
  /-- DISCOVER (R335): A DISCOVER frame is received and counted in its round. -/
  | discover (h : RingHdr) (d : Discover)
  /-- DISCOVER_ROUND_CLOSE (R335): At round tick + 100 the head evaluates membership, losses, duplicates and head, and sends TOPOLOGY. -/
  | discoverRoundClose
  /-- TOPOLOGY (R335): A TOPOLOGY frame is received with a new epoch and change tick. -/
  | topology (h : RingHdr) (t : Topology)
  /-- TOPOLOGY_CHANGE_TICK (R335): At the change tick every member applies the new topology, P_X, D and basin offset. -/
  | topologyChangeTick
  /-- TICK_SYNC_SEND (R339): The head sends TICK_SYNC every 100 ticks. -/
  | tickSyncSend
  /-- TICK_SYNC (R339): A member disciplines its timebase to the head from a TICK_SYNC frame. -/
  | tickSync (h : RingHdr) (ns : BitVec 16) (correction : BitVec 32)
  /-- EXCHANGE_TICK (R343): At each exchange tick the producer snapshots its published regions and sends REGION frames. -/
  | exchangeTick
  /-- REGION (R345): A REGION frame is received for its exchange, or discarded if late. `word` and `count` are the space
  and the points of the region, which a consumer must know and no frame carries. -/
  | region (h : RingHdr) (index : Byte) (word : Bool) (count : BitVec 17) (offset : BitVec 16) (data : List Byte)
  /-- EVENT (R350): An EVENT frame is a trigger in every member. -/
  | event (h : RingHdr) (event : Byte)
  /-- COMMAND (R351): A COMMAND frame carries a forwarded packet or reply, and the message is acknowledged. -/
  | command (h : RingHdr) (tag : W32) (origin piece : Byte) (bytes : List Byte)
  /-- COMMAND_ACK (R351): A COMMAND frame with ACK set confirms delivery of a forwarded message. -/
  | commandAck (h : RingHdr) (tag : W32) (origin : Byte)
  /-- COMMAND_RESEND (R351): A message unacknowledged by the next round tick is resent, or ends with ST_UNIT_LOST after three sends. -/
  | commandResend
  /-- CAST_FRAME (R352): A CAST frame is received and arms a cast trigger at its trigger time. -/
  | castFrame (h : RingHdr) (ns : BitVec 16) (source : Byte)
  /-- CAST_FRAME_TRIGGER (R352): At the trigger time of a CAST frame the member raises its cast with source bit 5. -/
  | castFrameTrigger
  /-- REPORT (R355): The head coalesces a fault report into its origin table. -/
  | report (h : RingHdr) (q : Report)
  /-- ORIGIN_RECORD_CLOSE (R356): At T0 + 101,000 the head writes an open origin record as one accession. -/
  | originRecordClose
  /-- HEARTBEAT_SEND (R382): Each partner sends a HEARTBEAT every 100 µs on the sync link and in its HB slot. -/
  | heartbeatSend
  /-- HEARTBEAT (R382): A received heartbeat restarts its path timer, adopts a higher epoch and checks versions. -/
  | heartbeat (sync : Bool) (h : SyncHdr) (hb : Heartbeat)
  /-- HB_PATH_LOSS (R382): A path's loss timer expires 300 µs after its last heartbeat. -/
  | hbPathLoss (sync : Bool)
  /-- TAKEOVER (R385): With both paths lost or RELINQUISH, and ACT_N high for 100 µs, the standby drives ACT_N and becomes ACTIVE. -/
  | takeover
  /-- AUTO_RESYNC_TIMER (R368): 1 s after entering STANDBY_WARM with AUTO_RESYNC, the standby starts resynchronisation. -/
  | autoResyncTimer
  /-- RECORD (R377): The standby takes the record, acknowledges it, fetches differing sources and releases. -/
  | record (h : SyncHdr) (body : RecordBody)
  /-- RECORD_ACK (R271): The active partner receives the acknowledgement and may send a waiting reply. -/
  | recordAck (h : SyncHdr)
  /-- FETCH (R377): The active partner answers a FETCH with SUPPLEMENT data. -/
  | fetch (h : SyncHdr) (source : Byte)
  /-- SUPPLEMENT (R377): The standby adopts supplement data for a source and may release. -/
  | supplement (h : SyncHdr) (source : Byte) (offset : W32) (data : List Byte)
  /-- STANDBY_PRESUME (R378): A record, supplement or verdict misses its due edge, and the standby presumes and continues. -/
  | standbyPresume (wait : StandbyWait)
  /-- DONE (R380): The active partner receives the standby's DONE for a task and LT. -/
  | done (h : SyncHdr) (task : BitVec 5) (lt : Tick)
  /-- VERDICT (R380): The standby receives the verdicts and acts on them at the deadline edge. -/
  | verdict (h : SyncHdr) (entries : List (BitVec 5 × Tick × Bool))
  /-- DIGEST (R381): A partner compares a received cycle digest with its own and drops the standby on mismatch. -/
  | digest (h : SyncHdr) (task : BitVec 5) (lt : Tick) (digest : BitVec 64)
  /-- STATE (R393): A STATE frame carries resynchronisation data into the standby. -/
  | state (h : SyncHdr) (data : ResyncData)
  /-- RESYNC_REQUEST (R393): A resynchronisation request starts the phases of R393, or is refused. -/
  | resyncRequest (h : SyncHdr) (ask : ResyncAsk)
  /-- RESYNC_ROUND (R393): A copy round ends, and the next starts or JOIN is sent. -/
  | resyncRound
  /-- JOIN (R393): The JOIN control fixes join tick J. -/
  | join (h : SyncHdr) (tick : Tick)
  /-- JOIN_TICK (R393): At J and later releases the tasks join in step, and STANDBY_IN_STEP follows when all have joined. -/
  | joinTick
  /-- DROP_TO_WARM (R381): The DROP_TO_WARM control moves the standby to STANDBY_WARM. -/
  | dropToWarm (h : SyncHdr) (cause : Byte)
  /-- SWITCHOVER (R390): The SWITCHOVER control announces tick S to the standby. -/
  | switchover (h : SyncHdr) (tick : Tick)
  /-- SWITCHOVER_TICK (R390): At S the standby drives ACT_N, the active releases it, and the epoch is raised. -/
  | switchoverTick
  /-- EDIT (R269): A forwarded edit command is applied by the standby. -/
  | edit (h : SyncHdr) (opcode : BitVec 16) (params : List Byte)
  /-- COMMAND_CONTROL (R374): A command packet forwarded over the sync link is executed by the partner. -/
  | commandControl (h : SyncHdr) (tag : W32) (pkt : List Byte)
  /-- BUILT (R270): The standby reports its shadow digest after a build. -/
  | built (h : SyncHdr) (digest : BitVec 64)
  /-- CRYSTAL_RESTART (R480): The stopped 32,768 Hz crystal starts again and the RTC counter resumes counting. -/
  | crystalRestart
  /-- VDO_RECOVERY (R455): VDO rises back to 18.0 V or above, which clears SUPPLY_LOW and sets SUPPLY_OK. -/
  | vdoRecovery
  /-- DO_SHORT (R455): An overload on an output makes it limit its current and sets its SHORT flag. -/
  | doShort (ch : BitVec 3)
  /-- DO_THERMAL (R455): An output reaches its thermal limit, switches off and sets its THERMAL flag. -/
  | doThermal (ch : BitVec 3)
  /-- IOD_SLOT (R439): At each slot, timed by the I/O die's own clock when a down frame is missing, the die samples its inputs at s + 20 µs and sends its up frame at s + 22 µs. -/
  | iodSlot (inp : IodIn)
  /-- USB_VBUS_CHANGE (R592): USB_VBUS rises above or falls below 4.0 V, which attaches or detaches the service USB port and ends its session on loss. -/
  | usbVbusChange (present : Bool)
  /-- SYNC_LINK_TRAINING (R49): The sync link trains and negotiates its version, or loses lock, giving an up link, a management-only link, or a broken one. -/
  | syncLinkTraining (up : Bool) (offer : List VerRange)
  /-- VERIFICATION_END (R555): The SHA-512 of the downloaded payload finishes, the slot leaves VERIFYING for VALID or INVALID, and UPD_VERIFY is answered. -/
  | verificationEnd
  /-- CAN_TX_COMPLETE (R423): A queued CAN FD frame finishes transmission on the bus, and a message's completion is reported in its mailbox. -/
  | canTxComplete (port : BitVec 1)
  /-- MODBUS_FRAME_GAP_ERROR (R415): A silence longer than 1.5 character times, or 0.75 ms above 19,200 bit/s, inside an RS-485 frame ends it as an error. -/
  | modbusFrameGapError (port : BitVec 1)
  /-- GPTP_MESSAGE_SEND (R401): On its own interval the port sends the IEEE 802.1AS messages of its role, such as Sync and Pdelay requests. -/
  | gptpMessageSend (port : BitVec 3)
  /-- RING_EN_SET (R325): Writing PAS_CTRL.RING_EN from 0 to 1 puts the module back on the ring, so its pass ports train and its by-pass opens. -/
  | ringEnSet
  deriving DecidableEq, Repr

end Sys2Proof
end

