-- ==== Sys2Proof/Decode.lean ====
section
/-! DEFINITION. Decoding of the words of the command table. -/

namespace Sys2Proof

/-- The command that an `nbits`-bit word spells by the bits of spec/opcode_table.json. The table gives none of its
366 rows any bits: a command is an event with typed operands, and no word spells one. (The 24-bit parcels of SWM
instructions in a program bank are decoded where a core fetches them, in Machine/SwmDecode.lean.) [Log: DESIGN CHOICE, safe, entry 166.] -/
def decodeTableWord (_nbits _w : Nat) : Option Instr := none

end Sys2Proof
end

