-- ==== Sys2Proof/Config.lean ====
section
/-! DEFINITION. What an implementation or a specimen of the module fixes and the manual does not give: constants
without a body, so that no proof can lean on a value of them. -/

namespace Sys2Proof.Config

/-- A free value of a register or a count that the manual leaves open; the argument is the state's counter. -/
opaque freeWord : Nat → BitVec 32
/-- A free truth value. -/
opaque freeBool : Nat → Bool
/-- What a register shows that the manual gives no value for: a sensor, a count of clocks or of island crossings, the
supervisor's PC, a progress in 1/256. The arguments are the register's address and the state's counter. [Log: DESIGN CHOICE, safe, entry 10; DESIGN CHOICE, unsafe, entry 15.] -/
opaque reading : Nat → Nat → BitVec 32
/-- Free bytes that the module draws at random: nonces, key shares (R542). [Log: DESIGN CHOICE, safe, entry 12.] -/
opaque freeBytes : Nat → List Byte

/-- The serial number (R320, R604), 16 bytes. [Log: DESIGN CHOICE, safe, entry 13.] -/
opaque serial : BitVec 128
/-- The base MAC address B (R320, R400). -/
opaque mac : BitVec 48
/-- The hardware revision (R553, R604). -/
opaque hwRev : BitVec 8
/-- The boot ROM version (R320, R604). -/
opaque bootRomVersion : BitVec 24
/-- Whether the specimen is the coated TLH-6424-IT-C (R4, R320). -/
opaque coated : Bool
/-- The versions of the five factory firmware parts (R568); the manual names none. -/
opaque factoryVersion : Nat → BitVec 24
/-- The 512-byte headers of the five factory firmware images (R549, R538). -/
opaque factoryHeader : Nat → List Byte

/-- The private keys of the module's identity in its one-time-programmable key store (R535): false the 32-byte Ed25519 private key,
true the 32-byte seed of the ML-DSA-65 key pair. [Log: DESIGN CHOICE, safe, entry 11.] -/
opaque identityKey : Bool → List Byte
/-- The public halves of the Isamus firmware signing keys (R549): false Ed25519, true ML-DSA-65. [Log: DESIGN CHOICE, safe, entry 232.] -/
opaque firmwareKey : Bool → List Byte
/-- The hashes of the public halves of the Isamus firmware signing keys that the boot ROM and SUP hold (R549). -/
opaque firmwareKeyHash : Bool → List Byte
/-- The descriptors of the service USB port (R281): vendor, product, class, subclass, protocol, the OUT and IN endpoints and
their packet size. -/
structure UsbDevice where
  vendor : BitVec 16 := 0x2F3D
  product : BitVec 16 := 0x6424
  cls : BitVec 8 := 0xFF
  subclass : BitVec 8 := 0x00
  protocol : BitVec 8 := 0x00
  bulkOut : BitVec 8 := 0x01
  bulkIn : BitVec 8 := 0x82
  packet : Nat := 64
  deriving DecidableEq, Repr

/-- The certificates of the two identity chains (R537). -/
opaque certificate : Bool → Nat → List Byte

/-- The cause byte of DROP_TO_WARM for cause n (R374); the manual lists no codes. [Log: DESIGN CHOICE, safe, entry 74.] -/
opaque dropCause : Nat → BitVec 8

/-- Whether the pair is in RUN at a tick, which a standby outside the step does not see (R110, R269). [Log: DESIGN CHOICE, safe, entry 200.] -/
opaque pairRuns : Nat → Bool

/-- The data of a run control item of the record (R375). [Log: DESIGN CHOICE, safe, entry 187.] -/
opaque runItem : RunEffect → List Byte
/-- The item type that announces a switchover tick (R375, R390). -/
opaque switchItem : BitVec 8
/-- The area codes of STATE frames (R373): 0 the bit image, 1 the word image, 2 the depot. -/
opaque stateArea : Nat → BitVec 8
/-- Area, byte offset and data of the other resynchronisation data (R373, R393). -/
opaque stateCoding : ResyncData → BitVec 8 × Nat × List Byte
/-- DATA of a CFG request (R406, R411): from the version ranges, the HOLD value and the expected MAP. [Log: DESIGN CHOICE, safe, entry 209.] -/
opaque cfgMessage : List VerRange → Nat → Nat → List Byte
/-- DATA of a DIAG request (R406, R411). [Log: DESIGN CHOICE, safe, entry 209.] -/
opaque diagMessage : List Byte

/-- Whether the running SUP firmware, of the version given, emulates a reserved opcode (R237). [Log: DESIGN CHOICE, unsafe, entry 20.] -/
opaque emulates : BitVec 24 → BitVec 8 → Bool
/-- What the emulation of a reserved opcode writes (R237, R238): from the replica-determinism version of the SUP firmware, the
opcode, its extension parcel and the values of its operands B and C read as LONG, the LONG written to A. -/
opaque emulation : BitVec 16 → BitVec 8 → BitVec 24 → BitVec 48 → BitVec 48 → BitVec 48

/-- The settings format of a SUP firmware of the version given, other than the factory version's (R561). -/
opaque settingsFormat : BitVec 24 → BitVec 16
/-- Whether a SUP firmware of the version given can read and convert settings of another format (R561). -/
opaque readsFormat : BitVec 24 → BitVec 16 → Bool

/-- The bytes of a settings block whose layout the manual does not give (R316), as the module reads them. [Log: DESIGN CHOICE, safe, entry 111.] -/
opaque decodeSettings : Nat → List Byte → Option Settings
/-- The bytes of such a settings block as the module forwards it to another module (R316, R351). -/
opaque encodeSettings : Settings → List Byte
/-- The record kind of the twin record of page pair k (R513). -/
opaque twinKind : Nat → BitVec 16
/-- The data bytes of a twin record: of page pair k, holding the value that the numbers encode (R513). -/
opaque twinData : Nat → List Nat → List Byte
/-- The bytes of a depot page that the firmware writes and whose layout the manual does not give (R503). [Log: DESIGN CHOICE, safe, entry 34.] -/
opaque firmwarePage : Nat → Nat → Byte
/-- The clock frequency in kHz that is measured for an island (R608). -/
opaque islFreq : Nat → Nat → BitVec 20

end Sys2Proof.Config
end

