-- ==== Sys2Proof/Machine/Bits.lean ====
section
/-! DEFINITION. Bytes, bit fields and check values, used by every unit: byte order of R16, field positions of R12,
saturating counters (R14), and the CRC of R425. -/

namespace Sys2Proof.Machine

/-- The low `n` bytes of a number, most significant first (R16). -/
def beBytes : Nat → Nat → List Byte
  | 0, _ => []
  | n + 1, v => BitVec.ofNat 8 (v / 2 ^ (8 * n)) :: beBytes n v

/-- The number that bytes spell, most significant first (R16). -/
def beNat (bs : List Byte) : Nat := bs.foldl (fun acc b => acc * 256 + b.toNat) 0

/-- The low `n` bytes of a number, least significant first. -/
def leBytes (n v : Nat) : List Byte := (beBytes n v).reverse

/-- The number that bytes spell, least significant first. -/
def leNat (bs : List Byte) : Nat := beNat bs.reverse

/-- Bits [hi:lo] of a number (R12). -/
def field (v hi lo : Nat) : Nat := v / 2 ^ lo % 2 ^ (hi + 1 - lo)

/-- A truth value as the bit at position `p`. -/
def bitAt (b : Bool) (p : Nat) : Nat := if b then 2 ^ p else 0

/-- 0 or 1. -/
def b01 (b : Bool) : Nat := if b then 1 else 0

/-- A counter that saturates at its largest value (R14, R604). -/
def satInc {w : Nat} (v : BitVec w) : BitVec w := if v = BitVec.allOnes w then v else v + 1

/-- A saturating counter increased by `n`. -/
def satAdd {w : Nat} (v : BitVec w) (n : Nat) : BitVec w :=
  if v.toNat + n ≥ 2 ^ w then BitVec.allOnes w else BitVec.ofNat w (v.toNat + n)

/-- Reverse the low `n` bits of a number. -/
def revBits : Nat → Nat → Nat
  | 0, _ => 0
  | n + 1, v => (v % 2) * 2 ^ n + revBits n (v / 2)

/-- The parameters of a check value (R425, R426). -/
structure CrcParams where
  width  : Nat
  poly   : Nat
  init   : Nat
  refin  : Bool
  refout : Bool
  xorout : Nat
  deriving DecidableEq, Repr

/-- Shift bits `n - 1` down to 0 of byte `b` into the register (R425). -/
def crcBits (p : CrcParams) (b : Nat) : Nat → Nat → Nat
  | 0, reg => reg
  | n + 1, reg =>
    let fb := (reg / 2 ^ (p.width - 1) + b / 2 ^ n) % 2
    let r2 := reg * 2 % 2 ^ p.width
    crcBits p b n (if fb = 1 then r2 ^^^ p.poly else r2)

/-- Take one byte into the register (R425). -/
def crcByte (p : CrcParams) (reg : Nat) (b : Byte) : Nat :=
  crcBits p (if p.refin then revBits 8 b.toNat else b.toNat) 8 reg

/-- The result of a register value (R425). -/
def crcFinish (p : CrcParams) (reg : Nat) : Nat :=
  (if p.refout then revBits p.width reg else reg) ^^^ p.xorout

/-- The check value of bytes (R425). -/
def crcOf (p : CrcParams) (bs : List Byte) : Nat := crcFinish p (bs.foldl (crcByte p) p.init)

/-- The presets of R426 by their codes; none for a code that names no preset. -/
def crcPreset : Nat → Option CrcParams
  | 1 => some ⟨32, 0x04C11DB7, 0xFFFFFFFF, true, true, 0xFFFFFFFF⟩
  | 2 => some ⟨32, 0x1EDC6F41, 0xFFFFFFFF, true, true, 0xFFFFFFFF⟩
  | 3 => some ⟨16, 0x8005, 0xFFFF, true, true, 0⟩
  | 4 => some ⟨16, 0x3D65, 0, false, false, 0xFFFF⟩
  | 5 => some ⟨64, 0x42F0E1EBA9EA3693, 0xFFFFFFFFFFFFFFFF, true, true, 0xFFFFFFFFFFFFFFFF⟩
  | _ => none

/-- CRC-32C (R426). -/
def crc32c (bs : List Byte) : Nat := crcOf ⟨32, 0x1EDC6F41, 0xFFFFFFFF, true, true, 0xFFFFFFFF⟩ bs

/-- ASCII bytes of a text. -/
def ascii (t : String) : List Byte := t.toList.map fun c => BitVec.ofNat 8 c.toNat

/-- The list cut or filled with zero bytes to a length. -/
def padTo (n : Nat) (bs : List Byte) : List Byte := (bs ++ List.replicate (n - bs.length) 0).take n

/-- Packed bits, 8 to a byte with the first bit in bit 7 (R307); the last byte is filled with zeros. -/
def packBits : List Bool → List Byte
  | [] => []
  | b0 :: b1 :: b2 :: b3 :: b4 :: b5 :: b6 :: b7 :: t =>
    BitVec.ofNat 8 (bitAt b0 7 + bitAt b1 6 + bitAt b2 5 + bitAt b3 4 + bitAt b4 3 + bitAt b5 2 + bitAt b6 1 + bitAt b7 0)
      :: packBits t
  | t => [BitVec.ofNat 8 ((t.foldl (fun a b => a * 2 + b01 b) 0) * 2 ^ (8 - t.length))]

/-- The bits of packed bytes (R307). -/
def unpackBits (bs : List Byte) : List Bool :=
  bs.flatMap fun b => [7, 6, 5, 4, 3, 2, 1, 0].map fun i => b.getLsbD i

/-- Cut a list into pieces of `k` (the last may be shorter); `fuel` bounds the number of pieces. -/
def chunks {α : Type} (k : Nat) : Nat → List α → List (List α)
  | 0, _ => []
  | fuel + 1, l => if l.isEmpty then [] else l.take k :: chunks k fuel (l.drop k)

/-- The tick count n ticks after tick t: it wraps after 2^48 ticks (R71). -/
def addTicks (t n : Nat) : Nat := (t + n) % 2 ^ 48

/-- The ticks from t to `now` (R71). -/
def ticksSince (t now : Nat) : Nat := (now + (2 ^ 48 - t % 2 ^ 48)) % 2 ^ 48

/-- Whether tick t has come at tick `now`: the one that lies less than half the wrap behind has (R71). -/
def reached (t now : Nat) : Bool := decide (ticksSince t now < 2 ^ 47)

/-- The earlier of two ticks. -/
def earlierTick (a b : Nat) : Nat := if reached a b then a else b
/-- The later of two ticks. -/
def laterTick (a b : Nat) : Nat := if reached a b then b else a

/-- The words of 3 bytes each that bytes spell. -/
def words3 (bs : List Byte) : List W24 := (chunks 3 bs.length bs).map fun c => BitVec.ofNat 24 (beNat c)

/-- The registers of 4 bytes each that bytes spell. -/
def words4 (bs : List Byte) : List W32 := (chunks 4 bs.length bs).map fun c => BitVec.ofNat 32 (beNat c)

end Sys2Proof.Machine
end

