-- ==== Sys2Proof/Machine/Hash.lean ====
section
/-! DEFINITION. SHA-256 and SHA-512 (FIPS 180-4), HMAC and HKDF (RFC 2104, RFC 5869), SHA-3 and SHAKE (FIPS 202), which chapter 14
names by their standards (R538, R542, R543, R545, R549, R555; ML-KEM-768 and ML-DSA-65 use the last two). A function that
commands use is sealed: the kernel never evaluates it by chance, and its equation leads to its definition. -/

namespace Sys2Proof.Machine

/-- Pieces of n items, at most `fuel` of them. -/
def cutGo {α : Type} (n : Nat) : Nat → List α → List (List α)
  | 0, _ => []
  | fuel + 1, l => if l.isEmpty then [] else l.take n :: cutGo n fuel (l.drop n)
/-- A list cut into pieces of n items; the last may be shorter. -/
def cut {α : Type} (n : Nat) (l : List α) : List (List α) := cutGo n l.length l

/-! ## SHA-2 -/

/-- The primes below 410: the first 80. -/
def primes80 : List Nat :=
  (List.range 410).filter fun n => decide (2 ≤ n) && ((List.range 21).all fun d => decide (d < 2) || decide (n ≤ d) || decide (n % d ≠ 0))

/-- The largest r with r^e ≤ n whose bits below k are still to be found. -/
def rootGo (e n : Nat) : Nat → Nat → Nat
  | 0, r => r
  | k + 1, r => rootGo e n k (if (r + 2 ^ k) ^ e ≤ n then r + 2 ^ k else r)

/-- The first 64 bits of the fractional part of the e-th root of p. -/
def rootFrac (e p : Nat) : Nat := rootGo e (p * 2 ^ (64 * e)) 72 0 % 2 ^ 64

/-- What SHA-256 and SHA-512 differ in: the word width, the rounds, and the rotations. -/
structure Sha2 where
  w      : Nat
  rounds : Nat
  big0   : Nat × Nat × Nat
  big1   : Nat × Nat × Nat
  small0 : Nat × Nat × Nat
  small1 : Nat × Nat × Nat

/-- SHA-256. -/
def sha256P : Sha2 := ⟨32, 64, (2, 13, 22), (6, 11, 25), (7, 18, 3), (17, 19, 10)⟩
/-- SHA-512. -/
def sha512P : Sha2 := ⟨64, 80, (28, 34, 39), (14, 18, 41), (1, 8, 7), (19, 61, 6)⟩

/-- A word of w bits rotated right. -/
def rotR (w n x : Nat) : Nat := x / 2 ^ n + x % 2 ^ n * 2 ^ (w - n)
/-- The sum of three rotations. -/
def sigmaBig (p : Sha2) (r : Nat × Nat × Nat) (x : Nat) : Nat := rotR p.w r.1 x ^^^ rotR p.w r.2.1 x ^^^ rotR p.w r.2.2 x
/-- The sum of two rotations and a shift. -/
def sigmaSmall (p : Sha2) (r : Nat × Nat × Nat) (x : Nat) : Nat := rotR p.w r.1 x ^^^ rotR p.w r.2.1 x ^^^ x / 2 ^ r.2.2

/-- The round constants. -/
def shaK (p : Sha2) : List Nat := (primes80.take p.rounds).map fun q => rootFrac 3 q / 2 ^ (64 - p.w)
/-- The initial hash value. -/
def shaIv (p : Sha2) : List Nat := (primes80.take 8).map fun q => rootFrac 2 q / 2 ^ (64 - p.w)

/-- The message schedule: the last 16 words, newest first, and the rounds that remain; each round takes the oldest word. -/
def shaRounds (p : Sha2) : List Nat → List Nat → List Nat → List Nat
  | [], _, h => h
  | k :: ks, w, h =>
    let m := 2 ^ p.w
    let g := fun (i : Nat) => h.getD i 0
    let w0 := w.getD 0 0
    let t1 := g 7 + sigmaBig p p.big1 (g 4) + ((g 4 &&& g 5) ^^^ ((m - 1 - g 4) &&& g 6)) + k + w0
    let t2 := sigmaBig p p.big0 (g 0) + ((g 0 &&& g 1) ^^^ (g 0 &&& g 2) ^^^ (g 1 &&& g 2))
    let next := (sigmaSmall p p.small1 (w.getD 14 0) + w.getD 9 0 + sigmaSmall p p.small0 (w.getD 1 0) + w0) % m
    shaRounds p ks (w.drop 1 ++ [next]) [(t1 + t2) % m, g 0, g 1, g 2, (g 3 + t1) % m, g 4, g 5, g 6]

/-- One block. -/
def shaBlock (p : Sha2) (ks h : List Nat) (block : List Byte) : List Nat :=
  List.zipWith (fun a b => (a + b) % 2 ^ p.w) h (shaRounds p ks ((cut (p.w / 8) block).map beNat) h)

/-- A message with its padding. -/
def shaPad (p : Sha2) (m : List Byte) : List Byte :=
  let b := 2 * p.w
  let z := (2 * b - 1 - p.w / 4 - m.length % b) % b
  m ++ [0x80] ++ List.replicate z 0 ++ beBytes (p.w / 4) (8 * m.length)

/-- The hash of a message. -/
def shaOf (p : Sha2) (m : List Byte) : List Byte :=
  ((cut (2 * p.w) (shaPad p m)).foldl (shaBlock p (shaK p)) (shaIv p)).flatMap (beBytes (p.w / 8))

/-- SHA-256. -/
def sha256 (m : List Byte) : List Byte := shaOf sha256P m
/-- SHA-512 (R538, R542, R549, R555). -/
def sha512Of (m : List Byte) : List Byte := shaOf sha512P m

/-- `sha512Of` sealed: its value is reached through `sha512_eq` alone. -/
opaque sha512Sealed : { f : List Byte → List Byte // f = sha512Of } := ⟨sha512Of, rfl⟩
/-- SHA-512 (R538, R542, R549, R555). -/
def sha512 : List Byte → List Byte := sha512Sealed.1
/-- The sealed function is the one it seals. -/
theorem sha512_eq : sha512 = sha512Of := sha512Sealed.2

/-! ## HMAC and HKDF -/

/-- HMAC-SHA-256 (R545). -/
def hmacSha256Of (key m : List Byte) : List Byte :=
  let k := (if 64 < key.length then sha256 key else key)
  let k := k ++ List.replicate (64 - k.length) 0
  sha256 (k.map (· ^^^ 0x5C) ++ sha256 (k.map (· ^^^ 0x36) ++ m))

/-- `hmacSha256Of` sealed: its value is reached through `hmacSha256_eq` alone. -/
opaque hmacSha256Sealed : { f : List Byte → List Byte → List Byte // f = hmacSha256Of } := ⟨hmacSha256Of, rfl⟩
/-- HMAC-SHA-256 (R545). -/
def hmacSha256 : List Byte → List Byte → List Byte := hmacSha256Sealed.1
/-- The sealed function is the one it seals. -/
theorem hmacSha256_eq : hmacSha256 = hmacSha256Of := hmacSha256Sealed.2

/-- The blocks T(1), T(2), ... of HKDF-Expand, n of them from number i after block t. -/
def hkdfBlocks (prk info : List Byte) : Nat → Nat → List Byte → List Byte
  | 0, _, _ => []
  | n + 1, i, t =>
    let t := hmacSha256 prk (t ++ info ++ [BitVec.ofNat 8 i])
    t ++ hkdfBlocks prk info n (i + 1) t

/-- HKDF-SHA-256 with key material, salt and info, 128 bytes out (R543). -/
def hkdfSha256Of (ikm salt info : List Byte) : List Byte := hkdfBlocks (hmacSha256 salt ikm) info 4 1 []

/-- `hkdfSha256Of` sealed: its value is reached through `hkdfSha256_eq` alone. -/
opaque hkdfSha256Sealed : { f : List Byte → List Byte → List Byte → List Byte // f = hkdfSha256Of } := ⟨hkdfSha256Of, rfl⟩
/-- HKDF-SHA-256 with key material, salt and info, 128 bytes out (R543). -/
def hkdfSha256 : List Byte → List Byte → List Byte → List Byte := hkdfSha256Sealed.1
/-- The sealed function is the one it seals. -/
theorem hkdfSha256_eq : hkdfSha256 = hkdfSha256Of := hkdfSha256Sealed.2

/-! ## Keccak -/

/-- A 64-bit word rotated left. -/
def rotL64 (n x : Nat) : Nat := x * 2 ^ (n % 64) % 2 ^ 64 + x / 2 ^ (64 - n % 64)

/-- The walk of rho and pi: from lane (x, y), with offset number t, what lanes move by how much. -/
def rhoWalk : Nat → Nat → Nat → Nat → List (Nat × Nat)
  | 0, _, _, _ => []
  | n + 1, t, x, y => (x + 5 * y, (t + 1) * (t + 2) / 2 % 64) :: rhoWalk n (t + 1) y ((2 * x + 3 * y) % 5)
/-- The rotation of a lane. -/
def rhoOf (walk : List (Nat × Nat)) (lane : Nat) : Nat := ((walk.find? fun e => e.1 = lane).map (·.2)).getD 0
/-- The rotations of the 25 lanes. -/
def rhoTable : List Nat := (List.range 25).map (rhoOf (rhoWalk 24 0 1 0))

/-- The states of the round constants' shift register. -/
def rcBits : Nat → Nat → List Nat
  | 0, _ => []
  | n + 1, r => r % 2 :: rcBits n (if 128 ≤ r then (2 * r % 256) ^^^ 0x71 else 2 * r)
/-- The round constants. -/
def keccakRc : List Nat :=
  (cut 7 (rcBits 168 1)).map fun b => ((List.range 7).map fun j => b.getD j 0 * 2 ^ (2 ^ j - 1)).foldl (· + ·) 0

/-- One round. -/
def keccakRound (rho : List Nat) (a : List Nat) (rc : Nat) : List Nat :=
  let g := fun (l : List Nat) (x y : Nat) => l.getD (x % 5 + 5 * (y % 5)) 0
  let c := (List.range 5).map fun x => (List.range 5).foldl (fun v y => v ^^^ g a x y) 0
  let d := (List.range 5).map fun x => c.getD ((x + 4) % 5) 0 ^^^ rotL64 1 (c.getD ((x + 1) % 5) 0)
  let r := (List.range 25).map fun i => rotL64 (rho.getD i 0) (a.getD i 0 ^^^ d.getD (i % 5) 0)
  let b := (List.range 25).map fun i => g r (i % 5 + 3 * (i / 5)) (i % 5)
  let e := (List.range 25).map fun i => g b i (i / 5) ^^^ ((2 ^ 64 - 1 - g b (i % 5 + 1) (i / 5)) &&& g b (i % 5 + 2) (i / 5))
  match e with
  | [] => []
  | x :: l => (x ^^^ rc) :: l

/-- Keccak-f[1600] on 25 lanes. -/
def keccakF (a : List Nat) : List Nat := keccakRc.foldl (keccakRound rhoTable) a

/-- The bytes that n squeezings of `rate` bytes give. -/
def squeeze (rate : Nat) : Nat → List Nat → List Byte
  | 0, _ => []
  | n + 1, a => (a.flatMap (leBytes 8)).take rate ++ squeeze rate n (keccakF a)

/-- A sponge: rate, domain byte, message, bytes out. -/
def sponge (rate dom : Nat) (m : List Byte) (out : Nat) : List Byte :=
  let z := rate - 1 - m.length % rate
  let p := if z = 0 then m ++ [BitVec.ofNat 8 (dom + 128)] else m ++ [BitVec.ofNat 8 dom] ++ List.replicate (z - 1) 0 ++ [0x80]
  let absorb := fun (a : List Nat) (b : List Byte) =>
    keccakF (List.zipWith (· ^^^ ·) a ((cut 8 b).map leNat ++ List.replicate (25 - rate / 8) 0))
  (squeeze rate (out / rate + 1) ((cut rate p).foldl absorb (List.replicate 25 0))).take out

/-- SHA3-256. -/
def sha3x256 (m : List Byte) : List Byte := sponge 136 0x06 m 32
/-- SHA3-512. -/
def sha3x512 (m : List Byte) : List Byte := sponge 72 0x06 m 64
/-- SHAKE128. -/
def shake128 (m : List Byte) (n : Nat) : List Byte := sponge 168 0x1F m n
/-- SHAKE256. -/
def shake256 (m : List Byte) (n : Nat) : List Byte := sponge 136 0x1F m n

end Sys2Proof.Machine
end

