-- ==== Sys2Proof/Machine/Cipher.lean ====
section
/-! DEFINITION. AES-256-GCM (FIPS 197, SP 800-38D), X25519 (RFC 7748) and Ed25519 (RFC 8032), which chapter 14 names by their
standards (R535, R536, R542, R547). -/

namespace Sys2Proof.Machine

/-! ## AES-256 -/

/-- The product in GF(2^8), with the bits of b below n still to take. -/
def aesMul : Nat → Nat → Nat → Nat
  | 0, _, _ => 0
  | n + 1, a, b =>
    let hi := 2 * aesMul n a (b / 2)
    let hi := if 256 ≤ hi then hi ^^^ 0x11B else hi
    hi ^^^ (if b % 2 = 1 then a else 0)

/-- The inverse in GF(2^8), 0 for 0: the 254th power. -/
def aesInv (a : Nat) : Nat := (List.range 253).foldl (fun p _ => aesMul 8 a p) a

/-- The S-box. -/
def sboxOf (a : Nat) : Nat :=
  let i := aesInv a
  let rot := fun (n : Nat) => i * 2 ^ n % 256 + i / 2 ^ (8 - n)
  i ^^^ rot 1 ^^^ rot 2 ^^^ rot 3 ^^^ rot 4 ^^^ 0x63
/-- The S-box as a table. -/
def sbox : List Nat := (List.range 256).map sboxOf
/-- A byte through the S-box. -/
def subByte (box : List Nat) (b : Nat) : Nat := box.getD b 0

/-- The words of the key schedule: the last eight, oldest first, and the numbers of the words still to make. -/
def aesWords (box : List Nat) : List Nat → List (List Nat) → List (List Nat)
  | [], _ => []
  | i :: is, w =>
    let t := w.getD 7 []
    let t := if i % 8 = 0 then
        match (t.drop 1 ++ t.take 1).map (subByte box) with
        | x :: l => (x ^^^ 2 ^ (i / 8 - 1)) :: l
        | [] => []
      else if i % 8 = 4 then t.map (subByte box) else t
    let n := List.zipWith (· ^^^ ·) (w.getD 0 []) t
    n :: aesWords box is (w.drop 1 ++ [n])

/-- The 15 round keys of a 32-byte key. -/
def aesKeys (key : List Byte) : List (List Nat) :=
  let w := cut 4 (key.map (·.toNat))
  (cut 4 (w ++ aesWords sbox ((List.range 52).map (· + 8)) w)).map List.flatten

/-- ShiftRows on 16 bytes in columns. -/
def shiftRows (s : List Nat) : List Nat := (List.range 16).map fun i => s.getD ((i + 4 * (i % 4)) % 16) 0
/-- MixColumns of one column. -/
def mixColumn (c : List Nat) : List Nat :=
  let g := fun (i : Nat) => c.getD (i % 4) 0
  (List.range 4).map fun i => aesMul 8 (g i) 2 ^^^ aesMul 8 (g (i + 1)) 3 ^^^ g (i + 2) ^^^ g (i + 3)

/-- One block of AES-256 under its round keys. -/
def aesBlock (keys : List (List Nat)) (b : List Byte) : List Byte :=
  let add := fun (s k : List Nat) => List.zipWith (· ^^^ ·) s k
  let sub := fun (s : List Nat) => shiftRows (s.map (subByte sbox))
  let s := add (b.map (·.toNat)) (keys.getD 0 [])
  let s := ((keys.drop 1).take 13).foldl (fun s k => add ((cut 4 (sub s)).flatMap mixColumn) k) s
  (add (sub s) (keys.getD 14 [])).map (BitVec.ofNat 8)

/-! ## GCM -/

/-- The product of x and y in GF(2^128) of GCM: `n` bits of x remain, most significant first, and v is y moved on. -/
def ghashMul : Nat → Nat → Nat → Nat → Nat
  | 0, _, _, z => z
  | n + 1, x, v, z =>
    ghashMul n x (if v % 2 = 1 then v / 2 ^^^ 0xE1 * 2 ^ 120 else v / 2) (if x / 2 ^ n % 2 = 1 then z ^^^ v else z)

/-- Bytes filled with zeros to whole blocks of 16. -/
def fill16 (b : List Byte) : List Byte := b ++ List.replicate ((16 - b.length % 16) % 16) 0

/-- GHASH of whole blocks under h. -/
def ghash (h : Nat) (b : List Byte) : Nat := (cut 16 b).foldl (fun y x => ghashMul 128 (y ^^^ beNat x) h 0) 0

/-- The key stream from counter c over a text. -/
def ctrText (keys : List (List Nat)) (nonce text : List Byte) : List Byte :=
  ((cut 16 text).zipIdx.map fun e => List.zipWith (· ^^^ ·) e.1 (aesBlock keys (nonce ++ beBytes 4 (e.2 + 2)))).flatten

/-- The tag of a ciphertext. -/
def gcmTag (keys : List (List Nat)) (nonce aad ct : List Byte) : List Byte :=
  let h := beNat (aesBlock keys (List.replicate 16 0))
  let g := ghash h (fill16 aad ++ fill16 ct ++ beBytes 8 (8 * aad.length) ++ beBytes 8 (8 * ct.length))
  List.zipWith (· ^^^ ·) (beBytes 16 g) (aesBlock keys (nonce ++ beBytes 4 1))

/-- AES-256-GCM encryption of a text under key, 12-byte nonce and additional data: text and 16-byte tag (R547). -/
def gcmSealOf (key nonce aad text : List Byte) : List Byte × List Byte :=
  let k := aesKeys key
  let ct := ctrText k nonce text
  (ct, gcmTag k nonce aad ct)

/-- `gcmSealOf` sealed: its value is reached through `gcmSeal_eq` alone. -/
opaque gcmSealSealed : { f : List Byte → List Byte → List Byte → List Byte → List Byte × List Byte // f = gcmSealOf } := ⟨gcmSealOf, rfl⟩
/-- AES-256-GCM encryption of a text under key, 12-byte nonce and additional data: text and 16-byte tag (R547). -/
def gcmSeal : List Byte → List Byte → List Byte → List Byte → List Byte × List Byte := gcmSealSealed.1
/-- The sealed function is the one it seals. -/
theorem gcmSeal_eq : gcmSeal = gcmSealOf := gcmSealSealed.2

/-- AES-256-GCM decryption with its tag check (R547). -/
def gcmOpenOf (key nonce aad ct tag : List Byte) : Option (List Byte) :=
  let k := aesKeys key
  if gcmTag k nonce aad ct = tag then some (ctrText k nonce ct) else none

/-- `gcmOpenOf` sealed: its value is reached through `gcmOpen_eq` alone. -/
opaque gcmOpenSealed : { f : List Byte → List Byte → List Byte → List Byte → List Byte → Option (List Byte) // f = gcmOpenOf } := ⟨gcmOpenOf, rfl⟩
/-- AES-256-GCM decryption with its tag check (R547). -/
def gcmOpen : List Byte → List Byte → List Byte → List Byte → List Byte → Option (List Byte) := gcmOpenSealed.1
/-- The sealed function is the one it seals. -/
theorem gcmOpen_eq : gcmOpen = gcmOpenOf := gcmOpenSealed.2

/-! ## The field of 2^255 - 19 -/

/-- The prime. -/
def p255 : Nat := 2 ^ 255 - 19
/-- b to the power e modulo m; bits of e below n are still to take. -/
def powMod (m b e : Nat) : Nat → Nat
  | 0 => 1
  | n + 1 =>
    -- the bits above bit 0 of what remains
    let r := powMod m b (e / 2) n
    let r := r * r % m
    if e % 2 = 1 then r * b % m else r
/-- A difference modulo p. -/
def subP (a b : Nat) : Nat := (a + (p255 - b % p255)) % p255
/-- The inverse modulo p. -/
def invP (a : Nat) : Nat := powMod p255 a (p255 - 2) 255

/-! ## X25519 -/

/-- The Montgomery ladder: bits of k below n are still to take. -/
def ladder (u k : Nat) : Nat → Nat × Nat × Nat × Nat → Nat × Nat × Nat × Nat
  | 0, v => v
  | n + 1, (x2, z2, x3, z3) =>
    let bit := k / 2 ^ n % 2 = 1
    let (x2, z2, x3, z3) := if bit then (x3, z3, x2, z2) else (x2, z2, x3, z3)
    let a := (x2 + z2) % p255
    let aa := a * a % p255
    let b := subP x2 z2
    let bb := b * b % p255
    let e := subP aa bb
    let da := subP x3 z3 * a % p255
    let cb := (x3 + z3) % p255 * b % p255
    let s := (da + cb) % p255
    let d := subP da cb
    let (x2, z2, x3, z3) := (aa * bb % p255, e * (aa + 121665 * e) % p255, s * s % p255, u * (d * d % p255) % p255)
    ladder u k n (if bit then (x3, z3, x2, z2) else (x2, z2, x3, z3))

/-- A secret with its bits set and cleared as RFC 7748 says. -/
def clampKey (k : List Byte) : Nat := leNat k / 8 * 8 % 2 ^ 254 + 2 ^ 254

/-- X25519 of a 32-byte secret and a u coordinate. -/
def x25519Mul (secret u : List Byte) : List Byte :=
  let v := leNat u % 2 ^ 255 % p255
  let r := ladder v (clampKey secret) 255 (1, 0, v, 1)
  leBytes 32 (r.1 * invP r.2.1 % p255)

/-- The share of a secret (R542). -/
def x25519ShareOf (secret : List Byte) : List Byte := x25519Mul secret (leBytes 32 9)

/-- `x25519ShareOf` sealed: its value is reached through `x25519Share_eq` alone. -/
opaque x25519ShareSealed : { f : List Byte → List Byte // f = x25519ShareOf } := ⟨x25519ShareOf, rfl⟩
/-- The share of a secret (R542). -/
def x25519Share : List Byte → List Byte := x25519ShareSealed.1
/-- The sealed function is the one it seals. -/
theorem x25519Share_eq : x25519Share = x25519ShareOf := x25519ShareSealed.2
/-- The secret shared with a share of the other side; none when it is all zero (R544). -/
def x25519Of (secret share : List Byte) : Option (List Byte) :=
  let z := x25519Mul secret share
  if z = List.replicate 32 0 then none else some z

/-- `x25519Of` sealed: its value is reached through `x25519_eq` alone. -/
opaque x25519Sealed : { f : List Byte → List Byte → Option (List Byte) // f = x25519Of } := ⟨x25519Of, rfl⟩
/-- The secret shared with a share of the other side; none when it is all zero (R544). -/
def x25519 : List Byte → List Byte → Option (List Byte) := x25519Sealed.1
/-- The sealed function is the one it seals. -/
theorem x25519_eq : x25519 = x25519Of := x25519Sealed.2

/-! ## Ed25519 -/

/-- The curve constant d. -/
def edD : Nat := subP 0 (121665 * invP 121666 % p255)
/-- The order of the base point. -/
def edL : Nat := 2 ^ 252 + 27742317777372353535851937790883648493

/-- A point in extended coordinates X, Y, Z, T. -/
abbrev EdPoint := Nat × Nat × Nat × Nat

/-- The sum of two points. -/
def edAdd (p q : EdPoint) : EdPoint :=
  let a := subP p.2.1 p.1 * subP q.2.1 q.1 % p255
  let b := (p.2.1 + p.1) * (q.2.1 + q.1) % p255
  let c := 2 * p.2.2.2 * q.2.2.2 % p255 * edD % p255
  let d := 2 * p.2.2.1 * q.2.2.1 % p255
  let e := subP b a
  let f := subP d c
  let g := (d + c) % p255
  let h := (b + a) % p255
  (e * f % p255, g * h % p255, f * g % p255, e * h % p255)

/-- k times a point; bits of k below n are still to take. -/
def edMul (p : EdPoint) : Nat → Nat → EdPoint
  | 0, _ => (0, 1, 1, 0)
  | n + 1, k =>
    let r := edMul p n (k / 2)
    let r := edAdd r r
    if k % 2 = 1 then edAdd r p else r

/-- Whether two points are one. -/
def edSame (p q : EdPoint) : Bool :=
  decide (p.1 * q.2.2.1 % p255 = q.1 * p.2.2.1 % p255) && decide (p.2.1 * q.2.2.1 % p255 = q.2.1 * p.2.2.1 % p255)

/-- The x coordinate of y with a sign bit; none where there is none. -/
def edRecover (y sign : Nat) : Option Nat :=
  let u := subP (y * y) 1
  let v := (edD * (y * y % p255) + 1) % p255
  let x2 := u * invP v % p255
  let x := powMod p255 x2 ((p255 + 3) / 8) 255
  let x := if x * x % p255 = x2 then x else x * powMod p255 2 ((p255 - 1) / 4) 255 % p255
  if x * x % p255 ≠ x2 ∨ (x = 0 ∧ sign = 1) then none else some (if x % 2 = sign then x else p255 - x)

/-- The point of its 32 bytes. -/
def edDecode (b : List Byte) : Option EdPoint :=
  let y := leNat b % 2 ^ 255
  if b.length ≠ 32 ∨ p255 ≤ y then none
  else (edRecover y (leNat b / 2 ^ 255)).map fun x => (x, y, 1, x * y % p255)
/-- The 32 bytes of a point. -/
def edEncode (p : EdPoint) : List Byte :=
  let z := invP p.2.2.1
  leBytes 32 (p.2.1 * z % p255 + p.1 * z % p255 % 2 * 2 ^ 255)

/-- The base point: y = 4/5, with x even. -/
def edBase : EdPoint :=
  let y := 4 * invP 5 % p255
  let x := (edRecover y 0).getD 0
  (x, y, 1, x * y % p255)

/-- The public key of a 32-byte private key. -/
def edPublicOf (key : List Byte) : List Byte := edEncode (edMul edBase 255 (clampKey ((sha512 key).take 32)))

/-- `edPublicOf` sealed: its value is reached through `edPublic_eq` alone. -/
opaque edPublicSealed : { f : List Byte → List Byte // f = edPublicOf } := ⟨edPublicOf, rfl⟩
/-- The public key of a 32-byte private key. -/
def edPublic : List Byte → List Byte := edPublicSealed.1
/-- The sealed function is the one it seals. -/
theorem edPublic_eq : edPublic = edPublicOf := edPublicSealed.2

/-- The 64-byte Ed25519 signature (R535, R536). -/
def edSignOf (key m : List Byte) : List Byte :=
  let h := sha512 key
  let a := clampKey (h.take 32)
  let pub := edPublic key
  let r := leNat (sha512 (h.drop 32 ++ m)) % edL
  let rb := edEncode (edMul edBase 253 r)
  rb ++ leBytes 32 ((r + leNat (sha512 (rb ++ pub ++ m)) % edL * a) % edL)

/-- `edSignOf` sealed: its value is reached through `edSign_eq` alone. -/
opaque edSignSealed : { f : List Byte → List Byte → List Byte // f = edSignOf } := ⟨edSignOf, rfl⟩
/-- The 64-byte Ed25519 signature (R535, R536). -/
def edSign : List Byte → List Byte → List Byte := edSignSealed.1
/-- The sealed function is the one it seals. -/
theorem edSign_eq : edSign = edSignOf := edSignSealed.2

/-- Whether an Ed25519 signature verifies under a public key (R536). -/
def edVerifyOf (pub m sig : List Byte) : Bool :=
  match edDecode pub, edDecode (sig.take 32) with
  | some a, some r =>
    let s := leNat (sig.drop 32)
    let k := leNat (sha512 (sig.take 32 ++ pub ++ m)) % edL
    decide (sig.length = 64) && decide (s < edL) && edSame (edMul edBase 253 s) (edAdd r (edMul a 253 k))
  | _, _ => false

/-- `edVerifyOf` sealed: its value is reached through `edVerify_eq` alone. -/
opaque edVerifySealed : { f : List Byte → List Byte → List Byte → Bool // f = edVerifyOf } := ⟨edVerifyOf, rfl⟩
/-- Whether an Ed25519 signature verifies under a public key (R536). -/
def edVerify : List Byte → List Byte → List Byte → Bool := edVerifySealed.1
/-- The sealed function is the one it seals. -/
theorem edVerify_eq : edVerify = edVerifyOf := edVerifySealed.2

end Sys2Proof.Machine
end

