-- ==== Sys2Proof/Machine/Lattice.lean ====
section
/-! DEFINITION. Encapsulation of ML-KEM-768 (FIPS 203) and the keys, signatures and verification of ML-DSA-65 (FIPS 204), which
chapter 14 names by their standards (R535, R536, R542). -/

namespace Sys2Proof.Machine

/-! ## Polynomials of 256 coefficients -/

/-- The low n bits of a number in reverse. -/
def bitRev (n v : Nat) : Nat := (List.range n).foldl (fun r i => 2 * r + v / 2 ^ i % 2) 0

/-- Sums and differences modulo q. -/
def polyAdd (q : Nat) (a b : List Nat) : List Nat := List.zipWith (fun x y => (x + y) % q) a b
/-- Differences modulo q. -/
def polySub (q : Nat) (a b : List Nat) : List Nat := List.zipWith (fun x y => (x + (q - y % q)) % q) a b

/-- The number-theoretic transform below node i, with the factor of each node. -/
def nttGo (q : Nat) (zeta : Nat → Nat) : Nat → Nat → List Nat → List Nat
  | 0, _, f => f
  | d + 1, i, f =>
    let lo := f.take (f.length / 2)
    let hi := (f.drop (f.length / 2)).map fun x => zeta i * x % q
    nttGo q zeta d (2 * i) (polyAdd q lo hi) ++ nttGo q zeta d (2 * i + 1) (polySub q lo hi)

/-- Its inverse, but for the factor 2^d. -/
def nttBack (q : Nat) (zeta : Nat → Nat) : Nat → Nat → List Nat → List Nat
  | 0, _, f => f
  | d + 1, i, f =>
    let lo := nttBack q zeta d (2 * i) (f.take (f.length / 2))
    let hi := nttBack q zeta d (2 * i + 1) (f.drop (f.length / 2))
    polyAdd q lo hi ++ (polySub q lo hi).map fun x => powMod q (zeta i) (q - 2) 24 * x % q

/-- Integers of c bits each, packed with the least significant bit first. -/
def packBitsLe (c : Nat) (l : List Nat) : List Byte := leBytes (l.length * c / 8) (l.foldr (fun v n => v + 2 ^ c * n) 0)
/-- n integers of c bits each. -/
def unpackBitsLe (c n : Nat) (b : List Byte) : List Nat :=
  let v := leNat b
  (List.range n).map fun i => v / 2 ^ (c * i) % 2 ^ c

/-! ## ML-KEM-768 -/

/-- The modulus of ML-KEM. -/
def qKem : Nat := 3329
/-- The factor of a node of the transform. -/
def zetaKem (i : Nat) : Nat := powMod qKem 17 (bitRev 7 i) 8
/-- The transform. -/
def nttKem (f : List Nat) : List Nat := nttGo qKem zetaKem 7 1 f
/-- The inverse transform; 3303 is the inverse of 128. -/
def nttKemInv (f : List Nat) : List Nat := (nttBack qKem zetaKem 7 1 f).map fun x => x * 3303 % qKem

/-- The product of two transforms. -/
def mulKem (a b : List Nat) : List Nat :=
  (List.range 128).flatMap fun i =>
    let g := powMod qKem 17 (2 * bitRev 7 i + 1) 8
    let (a0, a1, b0, b1) := (a.getD (2 * i) 0, a.getD (2 * i + 1) 0, b.getD (2 * i) 0, b.getD (2 * i + 1) 0)
    [(a0 * b0 + a1 * b1 % qKem * g) % qKem, (a0 * b1 + a1 * b0) % qKem]

/-- The coefficients that three bytes offer. -/
def kemTriple (t : List Byte) : List Nat :=
  let g := fun (i : Nat) => (t.getD i 0).toNat
  [g 0 + 256 * (g 1 % 16), g 1 / 16 + 16 * g 2].filter fun d => d < qKem
/-- A uniform transform from a seed (SampleNTT). FIPS 203 bounds the bytes it can need by 840. -/
def sampleNtt (seed : List Byte) : List Nat := ((cut 3 (shake128 seed 840)).flatMap kemTriple).take 256
/-- A small polynomial from 128 bytes (SamplePolyCBD with eta 2). -/
def cbd2 (b : List Byte) : List Nat :=
  (unpackBitsLe 4 256 b).map fun v => (v % 2 + v / 2 % 2 + qKem - v / 4 % 2 - v / 8 % 2) % qKem
/-- Compression to d bits. -/
def compressKem (d x : Nat) : Nat := (2 ^ d * x * 2 + qKem) / (2 * qKem) % 2 ^ d

/-- K-PKE encryption of m under an encapsulation key with randomness r. -/
def pkeEncrypt (ek m r : List Byte) : List Byte :=
  let t := (List.range 3).map fun i => (unpackBitsLe 12 256 ((ek.drop (384 * i)).take 384)).map (· % qKem)
  let rho := ek.drop 1152
  let prf := fun (n : Nat) => cbd2 (shake256 (r ++ [BitVec.ofNat 8 n]) 128)
  let y := (List.range 3).map fun i => nttKem (prf i)
  let dot := fun (row : List (List Nat)) => nttKemInv ((List.zipWith mulKem row y).foldl (polyAdd qKem) (List.replicate 256 0))
  let u := (List.range 3).map fun i =>
    polyAdd qKem (dot ((List.range 3).map fun j => sampleNtt (rho ++ [BitVec.ofNat 8 i, BitVec.ofNat 8 j]))) (prf (3 + i))
  let mu := (unpackBitsLe 1 256 m).map fun b => b * 1665
  let v := polyAdd qKem (polyAdd qKem (dot t) (prf 6)) mu
  (u.flatMap fun p => packBitsLe 10 (p.map (compressKem 10))) ++ packBitsLe 4 (v.map (compressKem 4))

/-- Encapsulation to a key with 32 random bytes m: ciphertext and shared secret (R542). -/
def kemEncapsOf (m ek : List Byte) : List Byte × List Byte :=
  let g := sha3x512 (m ++ sha3x256 ek)
  (pkeEncrypt ek m (g.drop 32), g.take 32)

/-- `kemEncapsOf` sealed: its value is reached through `kemEncaps_eq` alone. -/
opaque kemEncapsSealed : { f : List Byte → List Byte → List Byte × List Byte // f = kemEncapsOf } := ⟨kemEncapsOf, rfl⟩
/-- Encapsulation to a key with 32 random bytes m: ciphertext and shared secret (R542). -/
def kemEncaps : List Byte → List Byte → List Byte × List Byte := kemEncapsSealed.1
/-- The sealed function is the one it seals. -/
theorem kemEncaps_eq : kemEncaps = kemEncapsOf := kemEncapsSealed.2

/-! ## ML-DSA-65 -/

/-- The modulus of ML-DSA. -/
def qDsa : Nat := 8380417
/-- The range of the masks. -/
def gamma1 : Nat := 2 ^ 19
/-- The range of the low bits. -/
def gamma2 : Nat := 261888
/-- The largest change by a challenge. -/
def betaDsa : Nat := 196
/-- The factor of a node of the transform. -/
def zetaDsa (i : Nat) : Nat := powMod qDsa 1753 (bitRev 8 i) 8
/-- The transform. -/
def nttDsa (f : List Nat) : List Nat := nttGo qDsa zetaDsa 8 1 f
/-- The inverse transform; 8347681 is the inverse of 256. -/
def nttDsaInv (f : List Nat) : List Nat := (nttBack qDsa zetaDsa 8 1 f).map fun x => x * 8347681 % qDsa
/-- The product of two transforms. -/
def mulDsa (a b : List Nat) : List Nat := List.zipWith (fun x y => x * y % qDsa) a b

/-- The absolute value of a residue. -/
def absDsa (x : Nat) : Nat := min (x % qDsa) (qDsa - x % qDsa)
/-- The largest absolute value in a vector. -/
def normDsa (v : List (List Nat)) : Nat := (v.flatten.map absDsa).foldl max 0
/-- High part, low part plus gamma2, of a residue (Decompose). -/
def decompose (r : Nat) : Nat × Nat :=
  let r1 := (r + gamma2 - 1) / (2 * gamma2)
  let lo := r + gamma2 - r1 * (2 * gamma2)
  if r1 = 16 then (0, lo - 1) else (r1, lo)

/-- The coefficient that three bytes offer. -/
def dsaTriple (t : List Byte) : Option Nat :=
  let v := leNat t % 2 ^ 23
  if v < qDsa then some v else none
/-- A uniform transform from a seed (RejNTTPoly). FIPS 204 bounds the bytes it can need by 894. -/
def rejNtt (seed : List Byte) : List Nat := ((cut 3 (shake128 seed 894)).filterMap dsaTriple).take 256
/-- A polynomial with coefficients from -4 to 4 (RejBoundedPoly). FIPS 204 bounds the bytes it can need by 481. -/
def rejBounded (seed : List Byte) : List Nat :=
  (((shake256 seed 481).flatMap fun b => [b.toNat % 16, b.toNat / 16]).filterMap fun d =>
    if d < 9 then some ((qDsa + 4 - d) % qDsa) else none).take 256
/-- The matrix of a seed (ExpandA), by rows. -/
def expandA (rho : List Byte) : List (List (List Nat)) :=
  (List.range 6).map fun r => (List.range 5).map fun s => rejNtt (rho ++ [BitVec.ofNat 8 s, BitVec.ofNat 8 r])
/-- The matrix times a transformed vector. -/
def timesA (a : List (List (List Nat))) (v : List (List Nat)) : List (List Nat) :=
  a.map fun row => (List.zipWith mulDsa row v).foldl (polyAdd qDsa) (List.replicate 256 0)

/-- Where the next byte at most i stands in a stream, and what follows it. -/
def drawBelow (i : Nat) : List Byte → Nat × List Byte
  | [] => (0, [])
  | b :: l => if b.toNat ≤ i then (b.toNat, l) else drawBelow i l
/-- The challenge of a commitment hash (SampleInBall): 49 coefficients of 1 or -1. FIPS 204 bounds the bytes it can need by 221. -/
def sampleBall (c : List Byte) : List Nat :=
  let h := shake256 c 221
  let signs := leNat (h.take 8)
  let step := fun (x : List Nat × List Byte) (k : Nat) =>
    let i := 207 + k
    let (j, rest) := drawBelow i x.2
    let p := x.1.set i (x.1.getD j 0)
    (p.set j (if signs / 2 ^ k % 2 = 1 then qDsa - 1 else 1), rest)
  ((List.range 49).foldl step (List.replicate 256 0, h.drop 8)).1

/-- The keys of a 32-byte seed: public key, matrix seed, signing seed K, s1, s2 and t0, all as polynomials. -/
structure DsaKey where
  pub  : List Byte
  rho  : List Byte
  k    : List Byte
  s1   : List (List Nat)
  s2   : List (List Nat)
  t0   : List (List Nat)

/-- Key generation (FIPS 204). -/
def dsaKey (seed : List Byte) : DsaKey :=
  let h := shake256 (seed ++ [6, 5]) 128
  let rho := h.take 32
  let rho' := (h.drop 32).take 64
  let s1 := (List.range 5).map fun r => rejBounded (rho' ++ leBytes 2 r)
  let s2 := (List.range 6).map fun r => rejBounded (rho' ++ leBytes 2 (r + 5))
  let t := List.zipWith (polyAdd qDsa) ((timesA (expandA rho) (s1.map nttDsa)).map nttDsaInv) s2
  let hi := t.map fun p => p.map fun x => (x + 4095) / 8192
  let lo := List.zipWith (fun p h => polySub qDsa p (h.map (· * 8192))) t hi
  { pub := rho ++ hi.flatMap (packBitsLe 10), rho := rho, k := h.drop 96, s1 := s1, s2 := s2, t0 := lo }

/-- The representative of a message under a public key, with an empty context. -/
def dsaMu (pub m : List Byte) : List Byte := shake256 (shake256 pub 64 ++ [0, 0] ++ m) 64

/-- The hint of a vector as bytes (HintBitPack). -/
def packHint (h : List (List Bool)) : List Byte :=
  let ones := h.map fun p => (List.range 256).filter fun i => p.getD i false
  let counts := (List.range 6).map fun i => ((ones.take (i + 1)).map (·.length)).foldl (· + ·) 0
  padTo 55 (ones.flatten.map (BitVec.ofNat 8)) ++ counts.map (BitVec.ofNat 8)

/-- Whether numbers rise strictly. -/
def risingNat : List Nat → Bool
  | a :: b :: l => decide (a < b) && risingNat (b :: l)
  | _ => true

/-- The hint that 61 bytes hold (HintBitUnpack); none where they are not the bytes of a hint. -/
def unpackHint (b : List Byte) : Option (List (List Bool)) :=
  let v := b.map (·.toNat)
  let ends := v.drop 55
  let from_ := fun (i : Nat) => if i = 0 then 0 else ends.getD (i - 1) 0
  let ones := (List.range 6).map fun i => (v.drop (from_ i)).take (ends.getD i 0 - from_ i)
  if ends.length = 6 ∧ (List.range 6).all (fun i => decide (from_ i ≤ ends.getD i 0 ∧ ends.getD i 0 ≤ 55)) ∧ ones.all risingNat ∧
      ((v.take 55).drop (ends.getD 5 0)).all (· = 0) then
    some (ones.map fun l => (List.range 256).map fun i => l.contains i)
  else none

/-- The commitment hash of high parts. -/
def commitHash (mu : List Byte) (w1 : List (List Nat)) : List Byte := shake256 (mu ++ w1.flatMap (packBitsLe 4)) 48

/-- What one try of signing needs. -/
structure DsaSigner where
  key  : DsaKey
  a    : List (List (List Nat))
  mu   : List Byte
  seed : List Byte

/-- One try of signing with mask number kappa; none where it is rejected. -/
def dsaTry (x : DsaSigner) (kappa : Nat) : Option (List Byte) :=
  let y := (List.range 5).map fun r =>
    (unpackBitsLe 20 256 (shake256 (x.seed ++ leBytes 2 (kappa + r)) 640)).map fun v => (qDsa + gamma1 - v) % qDsa
  let w := (timesA x.a (y.map nttDsa)).map nttDsaInv
  let ct := commitHash x.mu (w.map fun p => p.map fun r => (decompose r).1)
  let c := nttDsa (sampleBall ct)
  let times := fun (v : List (List Nat)) => v.map fun p => nttDsaInv (mulDsa c (nttDsa p))
  let z := List.zipWith (polyAdd qDsa) y (times x.key.s1)
  let r := List.zipWith (polySub qDsa) w (times x.key.s2)
  let low := (r.flatten.map fun v => let d := (decompose v).2; max d gamma2 - min d gamma2).foldl max 0
  let ct0 := times x.key.t0
  let back := List.zipWith (polyAdd qDsa) r ct0
  let hint := List.zipWith (List.zipWith fun a b => decide ((decompose a).1 ≠ (decompose b).1)) r back
  if gamma1 - betaDsa ≤ normDsa z ∨ gamma2 - betaDsa ≤ low ∨ gamma2 ≤ normDsa ct0 ∨ 55 < (hint.flatten.filter id).length then none
  else some (ct ++ (z.flatMap fun p => packBitsLe 20 (p.map fun v => (qDsa + gamma1 - v) % qDsa)) ++ packHint hint)

/-- The first try that is not rejected, of at most n from mask number kappa. -/
def dsaTries (x : DsaSigner) : Nat → Nat → List Byte
  | 0, _ => []
  | n + 1, kappa =>
    match dsaTry x kappa with
    | some sig => sig
    | none => dsaTries x n (kappa + 5)

/-- The public key of a seed (R535). -/
def dsaPublicOf (seed : List Byte) : List Byte := (dsaKey seed).pub

/-- `dsaPublicOf` sealed: its value is reached through `dsaPublic_eq` alone. -/
opaque dsaPublicSealed : { f : List Byte → List Byte // f = dsaPublicOf } := ⟨dsaPublicOf, rfl⟩
/-- The public key of a seed (R535). -/
def dsaPublic : List Byte → List Byte := dsaPublicSealed.1
/-- The sealed function is the one it seals. -/
theorem dsaPublic_eq : dsaPublic = dsaPublicOf := dsaPublicSealed.2

/-- The 3,309-byte ML-DSA-65 signature in its pure form with an empty context and 32 random bytes (R536). FIPS 204 bounds the tries
by 814. -/
def dsaSignOf (seed rnd m : List Byte) : List Byte :=
  let key := dsaKey seed
  let mu := dsaMu key.pub m
  dsaTries { key := key, a := expandA key.rho, mu := mu, seed := shake256 (key.k ++ rnd ++ mu) 64 } 814 0

/-- `dsaSignOf` sealed: its value is reached through `dsaSign_eq` alone. -/
opaque dsaSignSealed : { f : List Byte → List Byte → List Byte → List Byte // f = dsaSignOf } := ⟨dsaSignOf, rfl⟩
/-- The 3,309-byte ML-DSA-65 signature in its pure form with an empty context and 32 random bytes (R536). FIPS 204 bounds the tries
by 814. -/
def dsaSign : List Byte → List Byte → List Byte → List Byte := dsaSignSealed.1
/-- The sealed function is the one it seals. -/
theorem dsaSign_eq : dsaSign = dsaSignOf := dsaSignSealed.2

/-- Whether an ML-DSA-65 signature verifies under a public key (R536). -/
def dsaVerifyOf (pub m sig : List Byte) : Bool :=
  match unpackHint (sig.drop 3248) with
  | none => false
  | some hint =>
    let ct := sig.take 48
    let z := (cut 640 ((sig.drop 48).take 3200)).map fun b => (unpackBitsLe 20 256 b).map fun v => (qDsa + gamma1 - v) % qDsa
    let t1 := (cut 320 (pub.drop 32)).map fun b => (unpackBitsLe 10 256 b).map (· * 8192)
    let c := nttDsa (sampleBall ct)
    let az := timesA (expandA (pub.take 32)) (z.map nttDsa)
    let w := List.zipWith (fun p t => nttDsaInv (polySub qDsa p (mulDsa c (nttDsa t)))) az t1
    let use := fun (h : Bool) (r : Nat) =>
      let d := decompose r
      if !h then d.1 else if gamma2 < d.2 then (d.1 + 1) % 16 else (d.1 + 15) % 16
    let w1 := List.zipWith (List.zipWith use) hint w
    decide (sig.length = 3309 ∧ pub.length = 1952) && decide (normDsa z < gamma1 - betaDsa) && decide (commitHash (dsaMu pub m) w1 = ct)

/-- `dsaVerifyOf` sealed: its value is reached through `dsaVerify_eq` alone. -/
opaque dsaVerifySealed : { f : List Byte → List Byte → List Byte → Bool // f = dsaVerifyOf } := ⟨dsaVerifyOf, rfl⟩
/-- Whether an ML-DSA-65 signature verifies under a public key (R536). -/
def dsaVerify : List Byte → List Byte → List Byte → Bool := dsaVerifySealed.1
/-- The sealed function is the one it seals. -/
theorem dsaVerify_eq : dsaVerify = dsaVerifyOf := dsaVerifySealed.2

/-! ## Dual signatures -/

/-- A dual signature (R536): the Ed25519 signature and the ML-DSA-65 signature, both over the same message. -/
def dualSign (edKey dsaSeed rnd m : List Byte) : List Byte := edSign edKey m ++ dsaSign dsaSeed rnd m

/-- Whether a dual signature is valid (R536): both halves verify. -/
def dualVerify (ed dsa m sig : List Byte) : Bool :=
  decide (sig.length = 3373) && edVerify ed m (sig.take 64) && dsaVerify dsa m (sig.drop 64)

end Sys2Proof.Machine
end

