-- ==== Sys2Proof/Machine/Tab.lean ====
section
/-! DEFINITION. Sparse tables: every addressed memory, register array and table of the module is a list of
(index, content) pairs in one canonical form: indices strictly rising, and no entry equal to what an unlisted index
reads as. Equal tables are therefore equal data. -/

namespace Sys2Proof.Machine

/-- A sparse table from an index to its content. -/
abbrev Tab (α : Type) := List (Nat × α)

/-- The content at an index; an unlisted index reads as `d`. [Log: DEDUCED, unsafe, entry 9.] -/
def Tab.get {α : Type} (d : α) : Tab α → Nat → α
  | [], _ => d
  | (k, v) :: t, a => if a = k then v else Tab.get d t a

/-- Write one entry, keeping the canonical form: writing `d` removes the entry. -/
def Tab.set {α : Type} [DecidableEq α] (d : α) : Tab α → Nat → α → Tab α
  | [], a, v => if v = d then [] else [(a, v)]
  | (k, w) :: t, a, v =>
    if a < k then (if v = d then (k, w) :: t else (a, v) :: (k, w) :: t)
    else if a = k then (if v = d then t else (a, v) :: t)
    else (k, w) :: Tab.set d t a v

/-- Every index of the table lies above `lo`, in rising order, and no entry holds `d`. -/
def Tab.wfFrom {α : Type} [DecidableEq α] (d : α) : Option Nat → Tab α → Bool
  | _, [] => true
  | none, (k, v) :: t => decide (v ≠ d) && Tab.wfFrom d (some k) t
  | some lo, (k, v) :: t => decide (lo < k) && decide (v ≠ d) && Tab.wfFrom d (some k) t

/-- The canonical form. -/
def Tab.wf {α : Type} [DecidableEq α] (d : α) (t : Tab α) : Bool := Tab.wfFrom d none t

/-- Change the content at an index by a function. -/
def Tab.upd {α : Type} [DecidableEq α] (d : α) (t : Tab α) (a : Nat) (f : α → α) : Tab α :=
  Tab.set d t a (f (Tab.get d t a))

/-- Write consecutive entries from `a`. -/
def Tab.setRange {α : Type} [DecidableEq α] (d : α) : Tab α → Nat → List α → Tab α
  | t, _, [] => t
  | t, a, v :: vs => Tab.setRange d (Tab.set d t a v) (a + 1) vs

/-- The contents of `n` consecutive entries from `a`. -/
def Tab.range {α : Type} (d : α) (t : Tab α) : Nat → Nat → List α
  | _, 0 => []
  | a, n + 1 => Tab.get d t a :: Tab.range d t (a + 1) n

/-- Keep the entries whose index satisfies `p`. -/
def Tab.keep {α : Type} (p : Nat → Bool) (t : Tab α) : Tab α := t.filter fun e => p e.1

/-- Write every entry of `u` into `t`. -/
def Tab.overlay {α : Type} [DecidableEq α] (d : α) (t u : Tab α) : Tab α :=
  u.foldl (fun acc e => Tab.set d acc e.1 e.2) t

end Sys2Proof.Machine
end

