-- ==== Sys2Proof/Machine/State.lean ====
section
/-! DEFINITION. Everything the manual gives the module to hold, as plain data: registers, memories, queues, link
and pin states, engines in progress. Default values are the values after a power-on reset of a module in its
factory state (R622); where the manual gives no value the assumption log names the one taken. -/

namespace Sys2Proof.Machine

/-! ## The scan cluster and the tasks -/

/-- Task states (R104). -/
inductive TState where
  | absent | disabled | idle | ready | running | preempted | done | faulted
  deriving DecidableEq, Repr, Inhabited

/-- Run modes (R106). -/
inductive RunMode where
  | stop | run | step
  deriving DecidableEq, Repr, Inhabited

/-- A set of grains (R146): `all` is the map of all ones that R156 sets. Bit grain g is g; the grain or data block
of word address w is 65,536 + w div 8 (R63, R129). -/
structure Grains where
  all : Bool := false
  gs  : List Nat := []
  deriving DecidableEq, Repr, Inhabited

/-- A write in a cycle journal (R128): one entry for each BIT or WORD point. -/
inductive JEntry where
  | bit (addr : Nat) (v : Bool)
  | word (addr : Nat) (v : W24)
  deriving DecidableEq, Repr, Inhabited

/-- A repetition in progress (R202): where the prefix stands, where the repeated instruction stands, whether it may
be suspended between iterations (R204). -/
structure Repeat where
  prefixPc : BitVec 21
  insPc    : BitVec 21
  interruptible : Bool
  deriving DecidableEq, Repr, Inhabited

/-- A run of a segment on a core: the segment, its registers and status (R178 to R182), call stack (R228), journal
and read map (R128, R129), and where it stands (R137, R157, R201, R236). -/
structure Run where
  task    : Nat := 0
  seg     : Nat := 0
  pc      : BitVec 21 := 0
  regs    : Tab W24 := []
  tsw     : W24 := 0
  repc    : W24 := 0
  rep     : Option Repeat := none
  resumed : Bool := false
  stack   : List (BitVec 21) := []
  journal : List JEntry := []
  readMap : List Nat := []
  direct  : Bool := false
  ended   : Bool := false
  stalled : Bool := false
  trap    : Option (BitVec 16 × BitVec 21) := none
  chk     : Bool := false
  miss    : Option (BitVec 4 × BitVec 2 × W24) := none
  supWait : Bool := false
  suspend : Bool := false
  icount  : Nat := 0
  deriving DecidableEq, Repr, Inhabited

/-- A scan core: the run it holds, retirement, whether it is an active core (R158), and its registers (R161). -/
structure Core where
  run      : Option Run := none
  retired  : Bool := false
  active   : Bool := true
  pcLast   : BitVec 21 := 0
  jrnPeak  : BitVec 13 := 0
  instr    : W32 := 0
  commits  : W32 := 0
  squash   : W32 := 0
  ovf      : W32 := 0
  serial   : W32 := 0
  resErr   : W32 := 0
  parErr   : W32 := 0
  eccCorr  : BitVec 16 := 0
  eccUnc   : BitVec 16 := 0
  fault    : Option (BitVec 3 × BitVec 5 × BitVec 14) := none
  faultPc  : BitVec 21 := 0
  faultLt  : W32 := 0
  deriving DecidableEq, Repr, Inhabited

/-- How a segment of the release stands (R149, R150): not yet dispatched, running on a core, tentatively skipped. -/
inductive SegSt where
  | pending | onCore (c : Nat) | skipped
  deriving DecidableEq, Repr, Inhabited

/-- One task at run time: `TSK_STATE`, `TSK_LT`, `TSK_OVR`, `TSK_TIME` (R119 to R121), the release in progress (its
bank, deadline, view, own writes and segments), and the grain maps of sparse scan (R146, R149, R151). -/
structure Task where
  st        : TState := .absent
  evtPend   : Bool := false
  ext       : Bool := false
  evtLost   : BitVec 16 := 0
  lt        : Tick := 0
  ovrTotal  : BitVec 16 := 0
  ovrConsec : Byte := 0
  execMax   : BitVec 16 := 0
  execLast  : BitVec 16 := 0
  lastTrap  : BitVec 16 := 0
  sticky    : BitVec 5 := 0
  due       : Nat := 0
  guarded   : Bool := false
  verdict   : Option Bool := none
  peerDone  : Bool := false
  bank      : Bool := false
  stepped   : Bool := false
  held      : Bool := false
  snapBits  : Tab Bool := []
  snapWords : Tab W24 := []
  ownBits   : Tab (Option Bool) := []
  ownWords  : Tab (Option W24) := []
  slots     : List Nat := []
  queue     : List (Nat × SegSt) := []
  ctx       : Option Run := none
  tod       : L48 := 0
  todFlags  : BitVec 2 := 0
  fullScan  : Bool := false
  fullK     : Bool := false
  dirty     : Grains := {}
  newPrev   : Grains := {}
  chg       : Grains := {}
  prev      : Grains := {}
  peak      : BitVec 16 := 0
  foreignAt : Option Nat := none
  deriving DecidableEq, Repr, Inhabited

/-- A task definition: the eight 32-bit words of a TASK_DEF body (R251, R116 to R118). -/
structure TaskDef where
  cfg      : W32 := 0
  period   : W32 := 0
  deadline : W32 := 0
  trig     : W32 := 0
  trap     : W32 := 0
  fbase    : W32 := 0
  flen     : W32 := 0
  quota    : W32 := 0
  deriving DecidableEq, Repr, Inhabited

/-- A program bank (R247). Segment entries have the layout of R123, catchment entries that of R144, decode entries
that of R242; `declared` marks the segments whose SEG_PUT declared them PURE (R124, R251). [Log: DEDUCED, unsafe, entry 63.] -/
structure Bank where
  parcels : Tab W24 := []
  segs    : Tab W32 := []
  declared : Tab Bool := []
  cats    : Tab (BitVec 64) := []
  decs    : Tab W32 := []
  ucode   : Tab W32 := []
  tasks   : Tab TaskDef := []
  digest  : BitVec 64 := 0
  deriving DecidableEq, Repr, Inhabited

/-- A region of the image layout (R67). -/
structure Region where
  start : BitVec 17
  count : BitVec 18
  cls   : BitVec 2
  owner : BitVec 5
  deriving DecidableEq, Repr, Inhabited

/-- Edit states (R253). -/
inductive EditState where
  | none | opened | building | built | armed | draining | failed
  deriving DecidableEq, Repr, Inhabited

/-- The stored program in the archive flash (R268, R309): its bank, its layout and its initialisation directives. -/
structure Stored where
  bank     : Bank := {}
  bitReg   : List Region := []
  wordReg  : List Region := []
  inits    : List Directive := []
  deriving DecidableEq, Repr, Inhabited

/-- Program banks, online edits and the program load (chapter 06, R247 to R274, R308, R309); `puts` are the segments whose entries the
change set between the two banks replaces (R123, R154). -/
structure Prog where
  bank0     : Bank := {}
  bank1     : Bank := {}
  active    : Bool := false
  held      : Bool := false
  gen       : W32 := 0
  edit      : EditState := .none
  undoAvail : Bool := false
  undone    : Bool := false
  armTick   : Tick := 0
  armUndo   : Bool := false
  armShadow : BitVec 16 := 0
  editErr   : BitVec 16 := 0
  errType   : Byte := 0
  errOfs    : BitVec 21 := 0
  editCount : W32 := 0
  shadowEcc : Bool := false
  editBuf   : Tab (Option Byte) := []
  loadOpen  : Bool := false
  loadBuf   : Tab (Option Byte) := []
  dirs      : List Directive := []
  owned     : List Directive := []
  puts      : List (BitVec 14) := []
  bitReg    : List Region := []
  wordReg   : List Region := []
  inits     : List Directive := []
  storedA   : Option Stored := none
  storedB   : Option Stored := none
  storing   : Bool := false
  emulSeen  : List Nat := []
  ucodeAt   : Option Nat := none
  deriving DecidableEq, Repr, Inhabited

/-- The scan cluster (chapter 03): cores, the served task, segment skip results, write tags (R148), CHK records
(R201), the supervisor's passes (R239), and the SCN and CAT registers. -/
structure Scan where
  cores     : Tab Core := [(8, { active := false })]
  served    : Option Nat := none
  tags      : Tab (Option Nat) := []
  chk       : Tab Bool := []
  supQueue  : List Nat := []
  segAddr   : W32 := 0
  retry     : W32 := 0
  squash    : W32 := 0
  runCount  : W32 := 0
  skipCount : W32 := 0
  catAddr   : W32 := 0
  missCount : W32 := 0
  missLast  : W32 := 0
  missAddr  : W32 := 0
  fullScans : W32 := 0
  deriving DecidableEq, Repr, Inhabited

/-- An image write of the host that waits for the next tick edge (R90). -/
structure HostWrite where
  word  : Bool
  addr  : W24
  vals  : List W24
  deriving DecidableEq, Repr, Inhabited

/-- Tasks, images and time (chapter 02). Word addresses 0 to 0x0F_FFFF are the word image, 0x10_0000 to 0x1F_FFFF
data memory (R62). `inBits` and `inWords` are the input buffers and `outBits` and `outWords` the output buffers of
the ports, by image address (R69, R87, R88). `stopReq` is a STOP that takes effect at the next tick edge, `stopAt` the tick of
the STOP of a task fault (R98). -/
structure Tsk where
  mode      : RunMode := .stop
  stopOut   : Bool := true
  tick      : Tick := 0
  tickHi    : BitVec 16 := 0
  tbCtrl    : W32 := 0
  tbNext    : Option W32 := none
  locked    : Bool := false
  activeSrc : BitVec 4 := 0
  offset    : BitVec 24 := 0
  tasks     : Tab Task := []
  bits      : Tab Bool := []
  words     : Tab W24 := []
  hostOver  : Tab (Option Bool) := []
  inBits    : Tab Bool := []
  inWords   : Tab W24 := []
  outBits   : Tab Bool := []
  outWords  : Tab W24 := []
  runAt     : Option Tick := none
  stopReq   : Bool := false
  stopAt    : Option Tick := none
  steps     : List Nat := []
  disables  : List Nat := []
  enables   : List Nat := []
  restarts  : List Nat := []
  triggers  : List Nat := []
  writes    : List HostWrite := []
  tod       : L48 := 0
  todFlags  : BitVec 2 := 0
  lastBg    : Nat := 31
  deriving DecidableEq, Repr, Inhabited

/-! ## Claims, casts and the system block -/

/-- A claim entry (R40): free, or the feature code, instance and the instances that share it (R41). -/
structure Claim where
  code   : Byte := 0
  inst   : Byte := 0
  shares : List Byte := []
  deriving DecidableEq, Repr, Inhabited

/-- The RES block (R37 to R40) and the enabled features (R31, R41). [Log: DESIGN CHOICE, unsafe, entry 7.] -/
structure Res where
  conflict : Bool := false
  confRes  : Byte := 0
  confFeat : Byte := 0
  confInst : Byte := 0
  reqFeat  : Byte := 0
  reqInst  : Byte := 0
  count    : W32 := 0
  claims   : Tab Claim := [(0, { code := 0x01 }), (1, { code := 0x01 }), (30, { code := 0x24 }), (32, { code := 0x01 }),
    (33, { code := 0x02 })]
  enabled  : List (Byte × Byte) := [(0x01, 0), (0x02, 0), (0x24, 0)]
  denied   : Bool := false
  deriving DecidableEq, Repr, Inhabited

/-- The cast distributor (R46 to R48, R609, R610): `copies` holds the cast copies by register address, `trigAt` the tick in
which the held cast was triggered. -/
structure Cast where
  held    : Bool := false
  trigAt  : Tick := 0
  missed  : Byte := 0
  source  : BitVec 6 := 0
  pinEn   : Bool := false
  pinSel  : BitVec 3 := 0b010
  count   : W32 := 0
  missedTotal : W32 := 0
  copies  : Tab W32 := []
  deriving DecidableEq, Repr, Inhabited

/-- Clock island i: losses of its recovered clock, and the clock count and the crossing counters that it held when its clock was lost (R608). -/
structure Isl where
  loss  : W32 := 0
  count : W32 := 0
  xin   : W32 := 0
  xout  : W32 := 0
  xmax  : W32 := 0
  deriving DecidableEq, Repr, Inhabited

/-- Where start-up stands (R54): in the boot ROM for want of a SUP image (R56), in one of the steps 3 to 7, in step 6 waiting for
the role or for the basin, or ended. -/
inductive Boot where
  | off | reset | rom | step3 | step4 | step5 | step6 | roleWait | forming | step7 | ready
  deriving DecidableEq, Repr, Inhabited

/-- The SYS and ISL blocks (R52, R604 to R608), supply and start-up (R54, R584, R585), straps and sleep. [Log: DESIGN CHOICE, unsafe, entry 4.] -/
structure Sys where
  boot      : Boot := .step3
  env       : BootEnv := ⟨true, true, true, 0b00000011, 0, false, 0, false, true, [], [(1, 0, 1)], none, none⟩
  cause     : BitVec 5 := 0b00001
  fatal     : Option (BitVec 3 × BitVec 16) := none
  fatalTick : Tick := 0
  fatalHi   : BitVec 16 := 0
  partner   : Bool := false
  ringId    : BitVec 6 := 0
  cmdCount  : W32 := 0
  eccCorr   : W32 := 0
  eccUnc    : W32 := 0
  uncorr    : BitVec 6 := 0
  scratch   : Tab W32 := []
  isl       : Tab Isl := []
  vinGood   : Bool := true
  pfail     : Bool := false
  asleep    : Bool := false
  startMode : Byte := 0
  actPending : Bool := false
  resetPending : Bool := false
  hostLink  : Bool := false
  usbVbus   : Bool := false
  upTicks   : Nat := 0
  tempMax   : BitVec 16 := 0x8000
  deriving DecidableEq, Repr, Inhabited

/-! ## Sessions and packets -/

/-- An entry of the reply cache (R294). -/
structure CacheEntry where
  seq    : W32
  req    : Req
  opcode : BitVec 16
  reply  : Option (BitVec 16 × List Byte)
  deriving DecidableEq, Repr, Inhabited

/-- A fragment held for reassembly (R296). -/
structure Fragment where
  idx    : Nat
  last   : Bool
  params : List Byte
  deriving DecidableEq, Repr, Inhabited

/-- A message in reassembly (R295 to R297): the request of its fragments. -/
structure Reassembly where
  req    : Req
  opcode : BitVec 16
  frags  : List Fragment
  deriving DecidableEq, Repr, Inhabited

/-- A challenge of AUTH_CHALLENGE that waits for its proof (R542). -/
structure Challenge where
  key    : BitVec 16
  nonce  : List Byte
  th1    : List Byte
  sig    : List Byte
  secret : List Byte
  deriving DecidableEq, Repr, Inhabited

/-- What a request that has been executed but not answered waits for; `never` is a write that a power-fail warning has
discarded (R510). -/
inductive Wait where
  | tick (t : Nat)
  | depot (page : Nat)
  | depotPlace (page : Nat) (data : List Byte)
  | verify (part : Nat)
  | twin (k : Nat)
  | forward (tag : W32)
  | recordAck (t : Nat)
  | gather (tag : W32)
  | never
  deriving DecidableEq, Repr, Inhabited

/-- A reply that is not sent yet (R292): the request it answers, and the parameters known so far. -/
structure Deferred where
  req    : Req
  opcode : BitVec 16
  params : List Byte
  wait   : Wait
  deriving DecidableEq, Repr, Inhabited

/-- Where the reply to a request that this module executes goes: a session of its own ports, the member that forwarded
it over the ring (R351), the partner that forwarded it over the sync link (R374), the records of a broadcast (R289), or the
port of an endpoint that holds no session (R293). -/
inductive ReplyTo where
  | session (ep : Endpoint)
  | ring (origin : Byte) (tag : W32)
  | sync (tag : W32)
  | child (tag : W32) (index : Nat)
  | port (ep : Endpoint)
  deriving DecidableEq, Repr, Inhabited

/-- A session (R290 to R299, R305, R321, R542 to R547). `passed`: its SEQ has passed 0xFFFF_FFFF (R614). -/
structure Session where
  ep       : Endpoint
  idx      : Byte
  major    : Byte
  minor    : Byte
  maxPkt   : BitVec 16
  mgmt     : Bool := false
  proved   : Bool := false
  enc      : Bool := false
  keyIdx   : BitVec 16 := 0
  role     : Byte := 0
  keys     : List Byte := []
  hello    : List Byte := []
  chal     : Option Challenge := none
  high     : Option W32 := none
  admitted : List W32 := []
  passed   : Bool := false
  cache    : List CacheEntry := []
  reasm    : List Reassembly := []
  queue    : List (Req × BitVec 16 × (List Byte ⊕ Instr)) := []
  waiting  : Option Deferred := none
  dis1     : W32 := 0
  dis5     : W32 := 0
  dis7     : W32 := 0
  disQ     : W32 := 0
  ending   : Bool := false
  notice   : Option Byte := none
  noticeNo : W32 := 0
  deriving DecidableEq, Repr, Inhabited

/-- The host ports (chapter 07): sessions, the SPI buffers and status (R278 to R280), the highest severity since the
last UNIT_STATUS (R306), the replies to forwarded requests and broadcast children that are not sent yet, and a RESET or a sleep that was
accepted, with how many SPI packets its reply stands behind (R304, R483). -/
structure HostIf where
  sessions : List Session := []
  udpPort  : BitVec 16 := 50544
  hostAddr : BitVec 128 := 0
  spiIn    : List (List Byte) := []
  spiOut   : List (List Byte) := []
  spiCrc   : Bool := false
  spiOvr   : Bool := false
  spiHost  : Bool := false
  highSev  : Byte := 0
  remote   : List (ReplyTo × Deferred) := []
  resetDue : Bool := false
  sleepDue : Bool := false
  resetLeft : Nat := 0
  deriving DecidableEq, Repr, Inhabited

/-! ## Pair and basin -/

/-- The resynchronisation in progress (R393): phase, round, join tick, tasks joined, blocks marked, tasks that the active
partner reported with a release in progress, and when it began. -/
structure Resync where
  phase  : BitVec 4 := 0
  round  : BitVec 4 := 0
  join   : Option Nat := none
  joined : List Nat := []
  marked : List Nat := []
  busy   : List Nat := []
  copied : List Bool := []
  start  : Nat := 0
  deriving DecidableEq, Repr, Inhabited

/-- The hot standby (chapter 09): RED block and the state of roles, paths, records, verdicts and digests. `peerRole` is the other
partner's role as this one acts on it, `peerSeen` the one of its last heartbeat (R398); `latchDi` and `latchGpio` are a standby's own
latch, which a missing record leaves it to (R378). -/
structure Red where
  role      : BitVec 3 := 0
  peerRole  : BitVec 3 := 0
  actIn     : Bool := true
  actDrv    : Bool := false
  pathSync  : Bool := false
  pathHb    : Bool := false
  degraded  : Bool := false
  presuming : Bool := false
  rdvMis    : Bool := false
  isolated  : Bool := false
  dualAct   : Bool := false
  pairEn    : Bool := false
  pairNext  : Bool := false
  warmTake  : Bool := false
  autoResync : Bool := true
  epoch     : BitVec 16 := 0
  epochHeard : Option (BitVec 16) := none
  peerRdv   : BitVec 16 := 0
  hbLossSync : W32 := 0
  hbLossHb  : W32 := 0
  adopt     : W32 := 0
  digestMis : W32 := 0
  peerOvr   : W32 := 0
  presumed  : W32 := 0
  crcErr    : W32 := 0
  takeovers : W32 := 0
  lastTake  : Tick := 0
  takeHi    : BitVec 16 := 0
  syncUp    : Bool := false
  syncMgmt  : Bool := false
  syncVer   : Byte := 0
  relinquish : Bool := false
  lastRecord : Tick := 0
  waits     : List (Nat × Nat × List Byte) := []
  recTick   : Nat := 0
  owed      : Bool := false
  dirsOwed  : Bool := false
  hbDrop    : List Byte := []
  lagMax    : BitVec 24 := 0
  acked     : Nat := 0
  peerFrame : Nat := 0
  ownDig    : List (Nat × Tick × BitVec 64) := []
  peerDig   : List (Nat × Tick × BitVec 64) := []
  resync    : Resync := {}
  autoPend  : Bool := false
  switchAt  : Option Nat := none
  peerSeen  : BitVec 3 := 0
  latchDi   : BitVec 16 := 0
  latchGpio : Byte := 0
  builtDig  : Option (BitVec 64) := none
  infoTag   : Option W32 := none
  items     : List RecItem := []
  adoptedAt : Tab Nat := []
  hist      : List (Nat × List (List Byte)) := []
  deriving DecidableEq, Repr, Inhabited

/-- A publication (R342, R361). -/
structure Pub where
  valid : Bool := false
  susp  : Bool := false
  word  : Bool := false
  base  : BitVec 22 := 0
  count : BitVec 17 := 0
  deriving DecidableEq, Repr, Inhabited

/-- The REGION frames of one exchange that have arrived: their offsets and data, and the size of the region once the last of
them has come (R343, R345). -/
structure RegionRx where
  x     : Nat
  parts : List (Nat × List Byte) := []
  size  : Option Nat := none
  deriving DecidableEq, Repr, Inhabited

/-- A subscription (R344, R361), the region data it has received, and the exchange last latched. -/
structure Sub where
  valid  : Bool := false
  fresh  : Bool := false
  member : BitVec 6 := 0
  region : BitVec 6 := 0
  base   : BitVec 22 := 0
  rx     : List RegionRx := []
  latest : Option Nat := none
  deriving DecidableEq, Repr, Inhabited

/-- An event entry (R350): `last` says that another member owns the event too, so that one more EVENT frame of it goes out. -/
structure PasEvt where
  own  : Bool := false
  addr : BitVec 22 := 0
  last : Bool := false
  deriving DecidableEq, Repr, Inhabited

/-- One module of a member as its DISCOVER frames show it (R331, R335): whether it is counted as up, the last round it was in,
the rounds in a row that it missed, and what its last frame said. -/
structure RingModule where
  up      : Bool := false
  round   : Option Nat := none
  absent  : Nat := 0
  serial  : BitVec 128 := 0
  hostUp  : Bool := false
  paired  : Bool := false
  active  : Bool := false
  bytes   : W32 := 0
  minor   : Byte := 0
  basin   : BitVec 64 := 0
  shown   : Bool := false
  deriving DecidableEq, Repr, Inhabited

/-- A member of the ring (R323, R335, R362): its modules with partner index 0 and 1, whether it is in the topology, has left
it, or lost a module as a duplicate (R324), and the line bytes admitted of it (R347). -/
structure Member where
  p0       : RingModule := {}
  p1       : RingModule := {}
  inTopo   : Bool := false
  lost     : Bool := false
  excluded : Bool := false
  admitted : W32 := 0
  deriving DecidableEq, Repr, Inhabited

/-- A message on its way over the ring or the sync link (R351, R374): its forwarding tag and the SRC byte of the module
that chose it, the DST byte, the packet, sends so far, whether it has been acknowledged. -/
structure Forward where
  tag    : W32
  origin : Byte
  dst    : Byte
  viaSync : Bool
  packet : List Byte
  sends  : Nat := 1
  acked  : Bool := false
  deriving DecidableEq, Repr, Inhabited

/-- An open origin record (R355, R356). -/
structure Origin where
  origin : List (BitVec 6)
  cls    : Byte
  sev    : BitVec 3
  t0     : Nat
  count  : Nat
  affected : List (List (BitVec 6))
  first  : Nat
  last   : Nat
  seqNo  : Nat
  deriving DecidableEq, Repr, Inhabited

/-- The gathering of the records of a broadcast to a pair or basin (R289). -/
structure Gather where
  tag     : W32
  waiting : List Nat
  records : List (Nat × BitVec 16 × List Byte)
  deriving DecidableEq, Repr, Inhabited

/-- The pass ring (chapter 08): the PAS block, the two links with the frames and CRC failures counted on each (R327), the
members, the topology in force and the one that waits, and what is under way. `heard` are the modules of the last round while the
basin forms (R332), `gone` the modules lost behind a gap (R337), `lostDue` those that a head has still to report (R353), `topoState` the
ring state of the topology in force, `rejoin` whether a module of another
fragment has appeared (R338), `startAt` the change tick after which the exchange starts (R332); `pubSet`, `subSet` and `evtSet` are what
the settings hold of publications, subscriptions and events (R361, R623). [Log: DESIGN CHOICE, unsafe, entry 156.] -/
structure Pas where
  ring      : BitVec 3 := 0
  head      : Bool := false
  hostless  : Bool := false
  eUp       : Bool := false
  wUp       : Bool := false
  eMgmt     : Bool := false
  wMgmt     : Bool := false
  eMinor    : Byte := 2
  wMinor    : Byte := 2
  eFrames   : Nat := 0
  wFrames   : Nat := 0
  eBad      : List Nat := []
  wBad      : List Nat := []
  wrapSeen  : Bool := false
  bypass    : Bool := true
  mapErr    : Bool := false
  budgetErr : Bool := false
  dupId     : Bool := false
  headId    : BitVec 6 := 0
  members   : BitVec 64 := 0
  ringEn    : Bool := true
  castSpread : Bool := false
  reportEn  : Bool := true
  fwdMin    : BitVec 3 := 0b101
  px        : BitVec 16 := 100
  d         : BitVec 16 := 106
  ofs       : BitVec 48 := 0
  ofsHi     : BitVec 16 := 0
  fresh     : BitVec 64 := 0
  freshEn   : Bool := false
  freshGrain : BitVec 16 := 0
  pubSel    : BitVec 6 := 0
  subSel    : BitVec 7 := 0
  evtSel    : BitVec 6 := 0
  pubs      : Tab Pub := []
  subs      : Tab Sub := []
  evts      : Tab PasEvt := []
  pubNext   : Tab (Option Pub) := []
  subNext   : Tab (Option Sub) := []
  evtNext   : Tab (Option PasEvt) := []
  pubSet    : Tab Pub := []
  subSet    : Tab Sub := []
  evtSet    : Tab PasEvt := []
  budget    : W32 := 0
  crcErr    : W32 := 0
  late      : W32 := 0
  wraps     : W32 := 0
  held      : W32 := 0
  minor     : Byte := 2
  memb      : Tab Member := []
  basin     : BitVec 64 := 0
  topoEpoch : BitVec 16 := 0
  topoNext  : Option (Nat × Topology) := none
  stable    : Nat := 0
  heard     : List Nat := []
  gone      : List Nat := []
  lostDue   : List Nat := []
  topoState : BitVec 3 := 0
  rejoin    : Bool := false
  round     : Option Nat := none
  sentRound : Option Nat := none
  lastHeard : Tab Nat := []
  seqs      : Tab (BitVec 16) := []
  seen      : List (Nat × Nat × BitVec 16) := []
  reported  : List (Nat × Byte × List (BitVec 6)) := []
  origins   : List Origin := []
  originSeq : Nat := 0
  forwards  : List Forward := []
  nextTag   : W32 := 0
  executed  : List (BitVec 8 × W32 × Option (List Byte)) := []
  pieces    : List (BitVec 8 × W32 × List Fragment) := []
  castAt    : List Nat := []
  nbE       : List (BitVec 6) := []
  nbW       : List (BitVec 6) := []
  lastX     : Option Nat := none
  startAt   : Option Nat := none
  ofsNext   : Option (BitVec 48) := none
  known     : Tab (Option (Bool × BitVec 17)) := []
  exNext    : Option (BitVec 16 × BitVec 16) := none
  gathers   : List Gather := []
  deriving DecidableEq, Repr, Inhabited

/-! ## Field ports -/

/-- Node states (R434). -/
inductive NodeSt where
  | unused | cfg | running | lost | cfgErr | mgmt
  deriving DecidableEq, Repr, Inhabited

/-- A Plainline node at run time (R408 to R411): its table entry and its status. -/
structure Node where
  entry   : Option PlNode := none
  owner   : Option Nat := none
  st      : NodeSt := .unused
  safe    : Bool := false
  ver     : Byte := 0
  miss    : Byte := 0
  epochDisc : Byte := 0
  rseq    : BitVec 16 := 0
  cycle   : W32 := 0
  sentAt  : Option Nat := none
  await   : Bool := false
  win     : Bool := false
  deriving DecidableEq, Repr, Inhabited

/-- The sequence recovery of one 802.1CB stream, identified by destination MAC address and VLAN (R401, R404): the latest number
accepted, the numbers of the last 32 that have come, and how many of the history have been filled. -/
structure Stream where
  dst  : BitVec 48
  vid  : BitVec 12
  last : BitVec 16
  seen : List (BitVec 16)
  fill : Nat
  deriving DecidableEq, Repr, Inhabited

/-- A field Ethernet port (R400 to R404, R433, R434). -/
structure FPort where
  frer    : Bool := false
  gm      : Bool := false
  link    : Bool := false
  asSync  : Bool := false
  gateList : Bool := false
  rx      : W32 := 0
  tx      : W32 := 0
  drop    : W32 := 0
  fcs     : W32 := 0
  e2e     : W32 := 0
  inDisc  : W32 := 0
  elim    : W32 := 0
  lost    : W32 := 0
  gateWait : W32 := 0
  asOfs   : BitVec 24 := 0
  pdelay  : BitVec 24 := 0
  qbv     : BitVec 7 := 0
  gates   : List (Byte × BitVec 20) := []
  gateTick : Tick := 0
  cycleNs : BitVec 30 := 0
  gatesNext : Option (List (Byte × BitVec 20) × BitVec 30 × Tick) := none
  prio1   : Byte := 248
  streams : List Stream := []
  kept    : List (BitVec 48 × BitVec 12 × BitVec 16) := []
  deriving DecidableEq, Repr, Inhabited

/-- The FLD block (R407 to R414, R433); `evts` holds EN and the bit address of each field event bit. -/
structure Fld where
  mapErr   : Bool := false
  healthEn : Bool := false
  grain    : BitVec 16 := 0
  nodeSel  : BitVec 12 := 0
  evtSel   : BitVec 5 := 0
  evts     : Tab (Bool × BitVec 22) := []
  miss     : W32 := 0
  ports    : Tab FPort := []
  groups   : List (BitVec 48) := [0, 0, 0, 0]
  nodes    : Tab Node := []
  diagNext : Nat := 0
  deriving DecidableEq, Repr, Inhabited

/-- A port message (R225): its TAG and its bytes. -/
structure PortMsg where
  tag   : W24
  bytes : List Byte
  deriving DecidableEq, Repr, Inhabited

/-- What a serial-class port is doing: a Modbus master transaction, a meter poll, a message. -/
inductive SerJob where
  | modbus (idx : Nat) (sent : List Byte) (tries : Nat)
  | meter (idx : Nat) (tries : Nat) (sel : Bool) (got : List (List Byte))
  | message (m : PortMsg)
  | canTx (obj : Nat)
  deriving DecidableEq, Repr, Inhabited

/-- A serial-class port (R415 to R423, R435): registers, configuration, queue, mailbox, work. -/
structure Ser where
  busOff   : Bool := false
  overCur  : Bool := false
  tec      : Byte := 0
  recCnt   : Byte := 0
  tx       : W32 := 0
  rx       : W32 := 0
  err      : W32 := 0
  timeout  : W32 := 0
  retry    : W32 := 0
  last     : Byte := 0
  rs485    : Option Rs485Cfg := none
  mbus     : Option MbusCfg := none
  can      : Option CanCfg := none
  mbox     : Option W24 := none
  queue    : List PortMsg := []
  job      : Option SerJob := none
  due      : List (Nat × Nat) := []
  lastDue  : Tab Nat := []
  fails    : Tab Nat := []
  txQueue  : List Nat := []
  busEn    : Bool := false
  closing  : List (PortMsg × Byte) := []
  deriving DecidableEq, Repr, Inhabited

/-- A check-value channel (R424 to R428, R436, R437) with the USER_CRC run on it. -/
structure CrcCh where
  mode    : BitVec 2 := 0
  refin   : Bool := false
  refout  : Bool := false
  le      : Bool := false
  widthM1 : BitVec 6 := 31
  preset  : Byte := 0
  poly    : BitVec 64 := 0
  init    : BitVec 64 := 0
  xor     : BitVec 64 := 0
  res     : BitVec 64 := 0
  busy    : Bool := false
  err     : Bool := false
  mismatch : BitVec 16 := 0
  addr    : W24 := 0
  count   : BitVec 21 := 0
  done    : Nat := 0
  reg     : BitVec 64 := 0
  deriving DecidableEq, Repr, Inhabited

/-- A GPIO instance (R431). -/
structure Gpio where
  dir     : Byte := 0
  filter  : Byte := 0
  bit     : W24 := 0
  run     : Nat := 0
  cand    : Bool := false
  level   : Bool := false
  out     : Bool := false
  deriving DecidableEq, Repr, Inhabited

/-- Field ports, serial ports, check-value unit, pins (chapter 10); `tinUp` says that TIME_IN brings the source second (R72). -/
structure Ports where
  fld     : Fld := {}
  ser     : Tab Ser := []
  meters  : Tab (Option MbusMeter) := []
  meterFcb : Tab Bool := []
  crc     : Tab CrcCh := []
  gpio    : Tab Gpio := []
  mfpLevel : BitVec 6 := 0
  tinPin  : Byte := 0
  ppsPin  : Byte := 1
  tbFlags : Byte := 0
  ppsWidth : W32 := 100000
  ppsHigh : Bool := false
  ppsAt   : Nat := 0
  edges   : W32 := 0
  rejected : W32 := 0
  tinUp    : Bool := false
  deriving DecidableEq, Repr, Inhabited

/-! ## Local I/O and safety -/

/-- The local I/O settings (R449). -/
structure DioCfg where
  flags   : Byte := 0
  inBase  : BitVec 22 := 0
  outBase : BitVec 22 := 0
  sample  : Byte := 5
  silence : Byte := 10
  di      : List Byte := List.replicate 16 0
  deriving DecidableEq, Repr, Inhabited

/-- A channel of the safety monitor (R462, R463): its causes, RESTART_NEEDED and ON. -/
structure SafCh where
  on       : Bool := false
  restart  : Bool := false
  fault    : Bool := false
  discrep  : Bool := false
  silence  : Bool := false
  req      : Bool := false
  demand   : Bool := false
  disabled : Bool := false
  deriving DecidableEq, Repr, Inhabited

/-- The demand logic of one SDI (R462): how many SAF cycles in a row it has read as it does. -/
structure Sdi where
  demand  : Bool := false
  discrep : Bool := false
  offA    : Nat := 0
  offB    : Nat := 0
  bothOn  : Nat := 0
  bothOff : Nat := 0
  differ  : Nat := 0
  deriving DecidableEq, Repr, Inhabited

/-- The I/O die with its safety monitor, and the logic side's mirrors (chapter 11). [Log: DESIGN CHOICE, unsafe, entry 5.] -/
structure Dio where
  up        : Bool := false
  mgmt      : Bool := false
  silenceSeen : Bool := false
  supplyOk  : Bool := false
  version   : Byte := 0x11
  cfgGenAck : Byte := 0
  inp       : BitVec 16 := 0
  rb        : Byte := 0
  outSent   : Byte := 0
  reqSent   : BitVec 2 := 0
  fSupply   : Bool := false
  fMismatch : Byte := 0
  fThermal  : Byte := 0
  fShort    : Byte := 0
  cfg       : DioCfg := {}
  cfgNext   : Option DioCfg := none
  cfgGen    : Byte := 0
  upErr     : W32 := 0
  downErr   : W32 := 0
  downSeen  : BitVec 16 := 0
  silenceCount : W32 := 0
  rbCount   : W32 := 0
  shortCount : W32 := 0
  downSeq   : BitVec 16 := 0
  lastUp    : Option (BitVec 16) := none
  outBuf    : Byte := 0
  reqBuf    : BitVec 2 := 0
  reqOut    : BitVec 2 := 0
  safStatus : W32 := 0
  safSwitch : BitVec 16 := 0
  safFault  : W32 := 0
  demandCount : W32 := 0
  lastDemand : W32 := 0
  darkCount : W32 := 0
  outOk     : Bool := false
  deriving DecidableEq, Repr, Inhabited

/-- The I/O die itself (IOD island, R439 to R464); `ver` is the barrier version negotiated (R446), 0 where none is; `testing` says that the
self-test of start-up has not ended (R469). -/
structure Iod where
  powered  : Bool := true
  ver      : Byte := 0x11
  vdoLow   : Bool := false
  out      : Byte := 0
  reqs     : BitVec 2 := 0
  cfg      : List Byte := [5, 10] ++ List.replicate 16 0 ++ [0, 0]
  cfgGen   : Byte := 0
  candGen  : Byte := 0
  cand     : List Byte := [5, 10] ++ List.replicate 16 0 ++ [0, 0]
  silent   : Bool := false
  silenceFlag : Bool := false
  lastDown : Option (BitVec 16) := none
  upSeq    : BitVec 16 := 0
  badDown  : BitVec 16 := 0
  slot     : Nat := 0
  filt     : BitVec 16 := 0
  runs     : Tab Nat := []
  misRun   : Tab Nat := []
  changed  : Tab Nat := []
  mismatch : Byte := 0
  short    : Byte := 0
  thermal  : Byte := 0
  rb       : Byte := 0
  ch1      : SafCh := {}
  ch2      : SafCh := {}
  sdi1     : Sdi := {}
  sdi2     : Sdi := {}
  sdiNow   : BitVec 4 := 0
  rstIn    : Bool := false
  rstHigh  : Nat := 0
  testing  : Bool := true
  selfFail : Bool := false
  selfDone : Bool := false
  cfgChanged : Bool := false
  now      : Byte := 0b00000011
  inForce  : Byte := 0b00000011
  fault    : Option (BitVec 2 × BitVec 4) := none
  rbDiff1  : Nat := 0
  rbDiff2  : Nat := 0
  supplyCut : Bool := false
  darkPass : Nat := 0
  demands  : Nat := 0
  deriving DecidableEq, Repr, Inhabited

/-! ## Backup domain -/

/-- The backup domain (chapter 12): RTC, wake, PWRON and watchdog. -/
structure Bkd where
  vin      : Bool := true
  running  : Bool := true
  rtc      : BitVec 47 := 0
  setSec   : W32 := 0
  setFrac  : BitVec 15 := 0
  trim     : BitVec 8 := 0
  hold     : Nat := 0
  trimAcc  : BitVec 20 := 0
  fracLat  : BitVec 15 := 0
  ticksLat : BitVec 15 := 0
  osf      : Bool := true
  first    : Bool := true
  stop     : Bool := false
  bor      : Bool := false
  wakeN    : BitVec 24 := 0
  wakeLeft : Nat := 0
  pwron    : Bool := false
  sleepRef : Bool := false
  wakeCause : BitVec 4 := 0
  wakeOvr  : W32 := 0
  wdtEn    : Bool := true
  wdtLock  : Bool := false
  rstEn    : Bool := true
  slotAct  : Bool := false
  expired  : Bool := false
  keyErr   : Bool := false
  slotsOff : Bool := false
  keyPend  : Bool := false
  period   : BitVec 22 := 0x200000
  wopen    : BitVec 22 := 1
  periodNow : BitVec 22 := 0x200000
  wopenNow : BitVec 22 := 1
  c        : BitVec 22 := 0
  cStop    : Bool := false
  rstDue   : Bool := false
  slotEn   : W32 := 0
  armed    : W32 := 0
  seen     : W32 := 0
  missedMap : W32 := 0
  lastSvc  : BitVec 47 := 0
  svcLat   : BitVec 15 := 0
  expCount : W32 := 0
  violCount : W32 := 0
  evValid  : Bool := false
  evLogged : Bool := false
  evRst    : Bool := false
  evCause  : BitVec 4 := 0
  evTick   : BitVec 47 := 0
  evTickLat : BitVec 15 := 0
  evSvc    : BitVec 47 := 0
  evSvcLat : BitVec 15 := 0
  evSeen   : W32 := 0
  evArmed  : W32 := 0
  evSupPc  : W32 := 0
  evCorePc : Tab W32 := []
  dup      : Tab Byte := []
  missCnt  : Tab Byte := []
  deriving DecidableEq, Repr, Inhabited

/-! ## Depot, log, identity, update -/

/-- The value of a twin record (R503, R622). Boot: running slot, slot to return to and whether it is on trial or
rejected, per part, and whether a pair partner or basin member was recorded. Download (R554): part, image length, slot, slot state and
the bitmap copy in force. -/
inductive TwinVal where
  | boot (slot trial back rejected : BitVec 5) (pair basin : Bool)
  | trial (count : BitVec 2)
  | program (stored second : Bool)
  | epoch (e : BitVec 16)
  | settings (gen : Bool) (format : BitVec 16)
  | logPos (next : W32)
  | download (part : BitVec 3) (length : W32) (slot : Bool) (st : BitVec 4) (copy : Bool)
  deriving DecidableEq, Repr, Inhabited

/-- One copy of a twin record (R513, R514). -/
structure TwinCopy where
  seq   : W32 := 0
  val   : Option TwinVal := none
  deriving DecidableEq, Repr, Inhabited

/-- A twin record: copies A and B (R513). -/
structure Twin where
  a : TwinCopy := {}
  b : TwinCopy := {}
  deriving DecidableEq, Repr, Inhabited

/-- Who asked for a page write (R505). -/
inductive DepSrc where
  | host (whom : ReplyTo) (seq : W32) | program (core : Nat) | firmware (page : Nat) (data : List Byte)
  | refresh | twin (k : Nat) | record (page : Nat) (c : TwinCopy)
  deriving DecidableEq, Repr, Inhabited

/-- A queued page write (R505): a page of bytes, or a copy of a twin record. -/
structure DepWrite where
  page : Nat
  data : List Byte
  twin : Option (Nat × TwinCopy) := none
  srcs : List DepSrc
  deriving DecidableEq, Repr, Inhabited

/-- The depot (R502 to R515, R529, R530): bytes of pages 18 to 63 and 256 to 1,023 by address, twin records of pages 0 to 11, 16 and 17,
the maps of each page's uncorrectable groups and of its groups with a single-bit error, the bytes of a page below 256 whose write a
supply failure cut (R511), the pages due for a refresh, and the write queue whose head is in progress. -/
structure Depot where
  bytes    : Tab Byte := []
  twins    : Tab Twin := [
    (0, { a := { seq := 1, val := some (.boot 0 0 0 0 false false) } }),
    (1, { a := { seq := 1, val := some (.trial 0) } }),
    (2, { a := { seq := 1, val := some (.program false false) } }),
    (3, { a := { seq := 1, val := some (.epoch 0) } }),
    (4, { a := { seq := 1, val := some (.settings false 0) } }),
    (5, { a := { seq := 1, val := some (.logPos 0) } })]
  bad      : Tab W32 := []
  soft     : Tab W32 := []
  torn     : Tab (List Byte) := []
  due      : List Nat := []
  queue    : List DepWrite := []
  busy     : Bool := false
  scan     : Bool := false
  pfail    : Bool := false
  patrol   : BitVec 10 := 0
  writes   : W32 := 0
  refreshed : W32 := 0
  corrected : W32 := 0
  uncorr   : W32 := 0
  ties     : W32 := 0
  refused  : W32 := 0
  logged   : List Nat := []
  wear     : Tab Nat := []
  fw       : Tab Nat := []
  twinNext : Tab (Option TwinVal) := []
  waiters  : List DepSrc := []
  deriving DecidableEq, Repr, Inhabited

/-- An accession record (R516), without its CRC. -/
structure Acc where
  index  : W32
  code   : BitVec 16
  sev    : BitVec 3
  fromPf : Bool := false
  coal   : Bool := false
  unit   : Byte := 0
  rtc    : BitVec 47 := 0
  tick   : Tick := 0
  origin : List (BitVec 6) := []
  count  : W32 := 1
  data   : List Byte := []
  deriving DecidableEq, Repr, Inhabited

/-- The losses of a pending LOST record (R522). -/
structure Lost where
  counts : Tab Nat := []
  sev    : BitVec 3 := 0
  total  : W32 := 0
  rtc    : BitVec 47 := 0
  tick   : Tick := 0
  deriving DecidableEq, Repr, Inhabited

/-- A power-fail image (R525); `missing` holds the severities of the records that a supply failure kept it from
taking. -/
structure PfImage where
  recs    : List Acc := []
  closed  : Option Acc := none
  pending : Option Lost := none
  missing : List Nat := []
  deriving DecidableEq, Repr, Inhabited

/-- The accession log (R516 to R527, R531, R532). -/
structure Log where
  next     : W32 := 0
  buf      : List Acc := []
  closed   : Option Acc := none
  pending  : Option Lost := none
  flash    : List Acc := []
  frozen   : Bool := false
  freezer  : Option Endpoint := none
  freezeEnd : Nat := 0
  merged   : Bool := false
  intake   : W32 := 0
  flushed  : W32 := 0
  overwritten : W32 := 0
  lost     : Tab W32 := []
  image    : Option PfImage := none
  posAt    : Option Nat := none
  deriving DecidableEq, Repr, Inhabited

/-- States of a firmware slot (R569). -/
inductive SlotSt where
  | empty | receiving | complete | verifying | valid | invalid | trial | running | rejected
  deriving DecidableEq, Repr, Inhabited

/-- A firmware slot (R548, R552, R554, R569): its state, version, header bytes, the image as written to the flash, the units
received, those ever written, and whether a unit was written twice with different data. -/
structure Slot where
  st     : SlotSt := .empty
  ver    : BitVec 24 := 0
  header : List Byte := []
  length : Nat := 0
  image  : Tab Byte := []
  units  : Tab Bool := []
  written : Tab Bool := []
  spoiled : Bool := false
  deriving DecidableEq, Repr, Inhabited

/-- One firmware part: the running slot and its two slots. -/
structure Part where
  runB : Bool := false
  a    : Slot := { st := .running }
  b    : Slot := {}
  deriving DecidableEq, Repr, Inhabited

/-- Settings that are stored (R623): the fields named as stored with the settings. -/
structure Stores where
  startMode : Byte := 0
  stopOut   : Bool := true
  pairEn    : Bool := false
  warmTake  : Bool := false
  autoResync : Bool := true
  enables   : List (Byte × Byte) :=
    [(0x01, 0), (0x02, 0), (0x20, 0), (0x24, 0)]
  castPin   : BitVec 3 := 0b010
  tinPin    : Byte := 0
  ppsPin    : Byte := 1
  tbFlags   : Byte := 0
  ppsWidth  : W32 := 100000
  updCfg    : W32 := 10
  encReq    : Bool := false
  dio       : DioCfg := {}
  pubs      : Tab Pub := []
  subs      : Tab Sub := []
  evts      : Tab PasEvt := []
  gpio      : Tab Gpio := []
  ser       : Tab Ser := []
  meters    : Tab (Option MbusMeter) := []
  groups    : List (BitVec 48) := [0, 0, 0, 0]
  nodes     : Tab Node := []
  fports    : Tab FPort := []
  spiHost   : Bool := false
  hostAddr  : BitVec 128 := 0
  udpPort   : BitVec 16 := 50544
  wdtPeriod : BitVec 22 := 0x200000
  wdtWopen  : BitVec 22 := 1
  wdtSlots  : W32 := 0
  wdtRst    : Bool := true
  wdtAct    : Bool := false
  wdtLock   : Bool := false
  deriving DecidableEq, Repr, Inhabited

/-- Firmware update, identity, keys and stored settings (chapter 14, R623); `early` marks settings written in start-up. -/
structure Upd where
  parts    : Tab Part := []
  openPart : Option Nat := none
  blocks   : Nat := 0
  recPair  : Bool := false
  recBasin : Bool := false
  windowEnd : Nat := 0
  mode     : Bool := false
  confirm  : BitVec 6 := 10
  fallbacks : W32 := 0
  saveDue  : Option (Nat × Bool) := none
  storing  : Option (Bool × Stores) := none
  rejecting : Bool := false
  settingsRead : Bool := true
  loadFailed : Bool := false
  encReq   : Bool := false
  authFail : W32 := 0
  tagFail  : W32 := 0
  replay   : W32 := 0
  lockout  : Bool := false
  lockEnd  : Nat := 0
  fails    : List Nat := []
  gen0     : Stores := {}
  gen1     : Stores := {}
  dirty    : Bool := false
  early    : BitVec 6 := 0
  deriving DecidableEq, Repr, Inhabited

/-! ## What leaves the module -/

/-- A frame, packet or level that the module has put on one of its outputs. Pass ring, sync link and Plainline frames are the
bytes that leave (R16, R330, R372, R405, R440): a ring frame on the east or the west ring, one whose CRC failed as it was forwarded
(R329: header and payload, its check value apart), a frame on the sync link or the HB pair, an Ethernet frame without its FCS. -/
inductive Sent where
  | packet (ep : Endpoint) (tag : Option (BitVec 32)) (bytes : List Byte)
  | probeReply (kind : ProbeKind) (target : BitVec 128) (data : List Byte)
  | spiReturn (bytes : List Byte)
  | plainline (port : BitVec 3) (frame : List Byte)
  | gptp (port : BitVec 3) (master : Bool) (priority1 : Byte)
  | modbus (port : BitVec 1) (adu : List Byte)
  | mbus (port : BitVec 1) (telegram : List Byte)
  | can (port : BitVec 1) (f : CanFrame) (brs : Bool)
  | checked (ch : BitVec 2) (bytes : List Byte)
  | down (frame : List Byte)
  | up (frame : List Byte)
  | ring (east : Bool) (frame : List Byte)
  | ringBad (east : Bool) (frame : List Byte)
  | mdio (phy : BitVec 5)
  | sync (hb : Bool) (frame : List Byte)
  deriving DecidableEq, Repr, Inhabited

/-! ## The whole module -/

/-- The module. `sent` is what it has put on its outputs, newest first; `free` numbers the free values drawn so far
(the model's own fields, as is `pending`, the commands that wait, first in, first out). [Log: DEDUCED, unsafe, entry 8; DESIGN CHOICE, safe, entry 14.] -/
structure State where
  pending : List Instr := []
  free    : Nat := 0
  sent    : List Sent := []
  sys     : Sys := {}
  res     : Res := {}
  cast    : Cast := {}
  tsk     : Tsk := {}
  scan    : Scan := {}
  prog    : Prog := {}
  host    : HostIf := {}
  red     : Red := {}
  pas     : Pas := {}
  ports   : Ports := {}
  dio     : Dio := {}
  iod     : Iod := {}
  bkd     : Bkd := {}
  depot   : Depot := {}
  log     : Log := {}
  upd     : Upd := {}
  deriving DecidableEq, Repr, Inhabited

/-- The reasons for which a step can stop with a fault. [Log: DEDUCED, safe, entry 167.] -/
inductive Fault where
  /-- Nothing raises it: the manual gives every command an effect. Safe. -/
  | none
  deriving DecidableEq, Repr

/-- The reasons for which a command can be refused by the model. -/
inductive Refusal where
  /-- Raised by the arm of a command that has no meaning in the model yet. Safe. -/
  | notModelled (mnemonic : String)
  deriving DecidableEq, Repr

/-- The module after a power-on reset in its factory state, at the end of start-up step 2, from which on it answers (R51, R54, R60, R605,
R622). [Log: DESIGN CHOICE, unsafe, entry 3.] -/
def State.reset : State := {}

end Sys2Proof.Machine
end

