-- ==== Sys2Proof/Machine/Wire.lean ====
section
/-! DEFINITION. The frames of the barrier (R440), of the pass ring (R330, R331), of the sync link and HB pair (R372 to R375) and of Plainline
(R404, R405) as the bytes that leave the module, every multi-byte field most significant byte first (R16). -/

namespace Sys2Proof.Machine

/-- The bytes of a mapping: bits packed, then words of 3 bytes (R307, R331, R405). -/
def packPoints (bits : List Bool) (ws : List W24) : List Byte := packBits bits ++ ws.flatMap fun w => beBytes 3 w.toNat

/-- Bytes and the CRC-32C that follows them (R330, R372). -/
def withCrc (b : List Byte) : List Byte := b ++ beBytes 4 (crc32c b)

/-! ## Settings blocks (R316, R407) -/

/-- The bytes of a node entry (R407). -/
def nodeBytes (e : PlNode) : List Byte :=
  beBytes 2 e.node.toNat ++ [e.flags, e.port] ++ beBytes 6 e.mac.toNat ++ beBytes 2 e.tag.toNat ++ [e.group, e.layoutRev] ++
  beBytes 2 e.outBits.toNat ++ beBytes 3 e.outBitBase.toNat ++ beBytes 2 e.outWords.toNat ++ beBytes 3 e.outWordBase.toNat ++
  beBytes 2 e.inBits.toNat ++ beBytes 3 e.inBitBase.toNat ++ beBytes 2 e.inWords.toNat ++ beBytes 3 e.inWordBase.toNat ++
  beBytes 3 e.poll.toNat ++ beBytes 2 e.resp.toNat ++ [e.lossLimit] ++ beBytes 2 e.hold.toNat

/-- The bytes of a settings block. -/
def settingsBytes (st : Settings) : List Byte :=
  match st with
  | .empty => []
  | .plGroups g => [0, 0, 0, 0] ++ g.flatMap fun a => beBytes 6 a.toNat
  | .plNodes l => [1, 0, 0, 0] ++ l.flatMap nodeBytes
  | .plClear => [2, 0, 0, 0]
  | .plKind k => [k, 0, 0, 0]
  | .timebase tin pps flags width => [tin, pps, flags, 0] ++ beBytes 4 width.toNat
  | .castPin pin => [pin, 0, 0, 0]
  | .gpio dir filter bit => [dir, filter, 0, 0] ++ beBytes 3 bit.toNat ++ [0]
  | st => Config.encodeSettings st

/-! ## Barrier frames (R440, R441) -/

/-- A down frame (R440), without its reserved bytes and its check value. -/
structure DownFrame where
  type   : Byte
  ver    : Byte
  seq    : BitVec 16
  out    : Byte
  req    : Byte
  cfgGen : Byte
  cfg    : List Byte
  deriving DecidableEq, Repr, Inhabited

/-- An up frame (R440), without its reserved bytes and its check value. -/
structure UpFrame where
  type     : Byte
  ver      : Byte
  seq      : BitVec 16
  inp      : BitVec 16
  rb       : Byte
  short    : Byte
  thermal  : Byte
  mismatch : Byte
  ioFlags  : Byte
  cfgGen   : Byte
  safStatus : W32
  safSwitch : BitVec 16
  safFault : Byte
  ack      : BitVec 16
  badDown  : BitVec 16
  deriving DecidableEq, Repr, Inhabited

/-- The CRC-16/EN-13757 of bytes (R426, R441). -/
def crcBarrier (b : List Byte) : Nat := crcOf ⟨16, 0x3D65, 0, false, false, 0xFFFF⟩ b

/-- 30 bytes and their check value (R440, R441). -/
def sealBarrier (b : List Byte) : List Byte := b ++ beBytes 2 (crcBarrier b)

/-- Whether 32 bytes hold the check value of bytes 0 to 29 (R441). -/
def barrierCrcOk (b : List Byte) : Bool := decide (b.length = 32) && decide (beNat (b.drop 30) = crcBarrier (b.take 30))

/-- The bytes of a down frame (R440). -/
def downBytes (f : DownFrame) : List Byte :=
  sealBarrier ([f.type, f.ver] ++ beBytes 2 f.seq.toNat ++ [f.out, f.req, f.cfgGen, 0] ++ f.cfg ++ [0, 0])

/-- The bytes of an up frame (R440). -/
def upBytes (f : UpFrame) : List Byte :=
  sealBarrier ([f.type, f.ver] ++ beBytes 2 f.seq.toNat ++ beBytes 2 f.inp.toNat ++ [f.rb, f.short, f.thermal, f.mismatch, f.ioFlags, f.cfgGen] ++
    beBytes 4 f.safStatus.toNat ++ beBytes 2 f.safSwitch.toNat ++ [f.safFault, 0] ++ beBytes 2 f.ack.toNat ++ beBytes 2 f.badDown.toNat ++
    [0, 0, 0, 0] ++ [0, 0])

/-- The fields of a down frame's bytes (R440); its reserved bits are not read (R15). -/
def downFields (b : List Byte) : DownFrame :=
  { type := b.getD 0 0, ver := b.getD 1 0, seq := BitVec.ofNat 16 (beNat ((b.drop 2).take 2)), out := b.getD 4 0, req := b.getD 5 0 &&& 3,
    cfgGen := b.getD 6 0, cfg := (b.drop 8).take 20 }

/-- The fields of an up frame's bytes (R440); its reserved bits, and those of the `SAF_STATUS` and `SAF_FAULT` it carries (R470, R471),
are not read (R15). -/
def upFields (b : List Byte) : UpFrame :=
  let at2 := fun i => BitVec.ofNat 16 (beNat ((b.drop i).take 2))
  { type := b.getD 0 0, ver := b.getD 1 0, seq := at2 2, inp := at2 4, rb := b.getD 6 0, short := b.getD 7 0, thermal := b.getD 8 0,
    mismatch := b.getD 9 0, ioFlags := b.getD 10 0 &&& 3, cfgGen := b.getD 11 0,
    safStatus := BitVec.ofNat 32 (beNat ((b.drop 12).take 4)) &&& 0xF01FFFFF, safSwitch := at2 16, safFault := b.getD 18 0 &&& 0x3F,
    ack := at2 20, badDown := at2 22 }

/-! ## Pass ring frames (R330, R331) -/

/-- A pass ring frame before it takes its place on a ring: `east` says on which ring it travels. -/
structure RingFrame where
  type    : Nat
  ver     : Nat
  src     : Nat
  dst     : Nat
  hops    : Nat
  east    : Bool
  more    : Bool
  wrapped : Bool
  ack     : Bool
  tick    : Nat
  seq     : Nat
  payload : List Byte

/-- Header and payload of a frame (R330). LEN of a REGION frame counts its region data (R343). [Log: DEDUCED, unsafe, entry 257.] -/
def ringOpen (f : RingFrame) : List Byte :=
  beBytes 1 f.type ++ beBytes 1 f.ver ++ beBytes 1 f.src ++ beBytes 1 f.dst ++ beBytes 1 f.hops ++
  beBytes 1 (bitAt (!f.east) 7 + bitAt f.more 6 + bitAt f.wrapped 5 + bitAt f.ack 4) ++
  beBytes 2 (if f.type = 0x10 then f.payload.length - 4 else f.payload.length) ++
  beBytes 6 f.tick ++ beBytes 2 f.seq ++ f.payload

/-- The bytes of a frame (R330). -/
def ringBytes (f : RingFrame) : List Byte := withCrc (ringOpen f)

/-- The payload of DISCOVER (R331). -/
def discoverBytes (d : Discover) : List Byte :=
  beBytes 16 d.serial.toNat ++ beBytes 1 (b01 d.hostUp + bitAt d.paired 1 + bitAt d.active 2) ++ [d.role, d.minor, 0] ++
  beBytes 4 d.bytes.toNat ++ beBytes 8 d.basin.toNat

/-- The payload of TOPOLOGY (R331). -/
def topologyBytes (t : Topology) : List Byte :=
  beBytes 1 t.head.toNat ++ beBytes 1 t.state.toNat ++ beBytes 2 t.epoch.toNat ++ beBytes 2 t.px.toNat ++ beBytes 2 t.d.toNat ++
  beBytes 8 t.members.toNat ++ beBytes 8 t.susp.toNat ++ beBytes 8 t.basin.toNat

/-- The payload of TICK_SYNC (R331). -/
def tickSyncBytes (ns correction : Nat) : List Byte := beBytes 2 ns ++ beBytes 4 correction

/-- The payload of REGION (R331). -/
def regionPayload (index offset : Nat) (data : List Byte) : List Byte := beBytes 1 index ++ [0] ++ beBytes 2 offset ++ data

/-- The payload of EVENT (R331). -/
def eventBytes (e : Nat) : List Byte := beBytes 1 e ++ [0, 0, 0]

/-- The payload of COMMAND (R331). -/
def commandBytes (tag : W32) (origin : Byte) (piece : Nat) (bytes : List Byte) : List Byte :=
  beBytes 4 tag.toNat ++ [origin] ++ beBytes 1 piece ++ [0, 0] ++ bytes

/-- The payload of CAST (R331). -/
def castBytes (ns source : Nat) : List Byte := beBytes 2 ns ++ beBytes 1 source ++ [0]

/-- The payload of REPORT (R331): the origin's hops one to a byte. -/
def reportBytes (q : Report) : List Byte :=
  [q.cls] ++ beBytes 1 q.sev.toNat ++ beBytes 1 q.origin.length ++ [0] ++
  padTo 8 (q.origin.map fun h => BitVec.ofNat 8 h.toNat) ++ beBytes 8 q.detail.toNat

/-! ## Sync link and HB pair frames (R372 to R375) -/

/-- The bytes of a frame (R372). -/
def syncBytes (type ver src : Nat) (more : Bool) (tick : Nat) (payload : List Byte) : List Byte :=
  withCrc (beBytes 1 type ++ beBytes 1 ver ++ beBytes 1 src ++ beBytes 1 (bitAt more 7) ++ beBytes 6 tick ++
    beBytes 2 payload.length ++ payload)

/-- The payload of HEARTBEAT (R373). -/
def heartbeatBytes (hb : Heartbeat) : List Byte :=
  beBytes 1 hb.role.toNat ++ beBytes 1 (b01 hb.relinquish + bitAt hb.fatal 1) ++ beBytes 2 hb.epoch.toNat ++
  beBytes 2 hb.rdv.toNat ++ beBytes 4 hb.digest.toNat

/-- The parameters of IMG_WRITE for a host write (R307, R375). -/
def hostWriteBytes (word : Bool) (addr : W24) (vals : List W24) : List Byte :=
  beBytes 1 (b01 word) ++ [0] ++ beBytes 3 addr.toNat ++ beBytes 2 vals.length ++
  (if word then packPoints [] vals else packBits (vals.map fun v => v.getLsbD 0))

/-- Type and data of a record item (R375); the manual gives no form to the data of run control, and no type to the item of a
switchover. [Log: DESIGN CHOICE, safe, entry 187.] -/
def itemParts : RecItem → Nat × List Byte
  | .hostWrite w a vs => (0x01, hostWriteBytes w a vs)
  | .runControl e => (0x02, Config.runItem e)
  | .editTick t => (0x03, beBytes 6 t.toNat)
  | .undoTick t => (0x04, beBytes 6 t.toNat)
  | .settings (.settings c i st) => (0x05, [c, i, 0, 0] ++ settingsBytes st)
  | .settings d => (0x05, (Config.stateCoding d).2.2)
  | .gpio l => (0x06, [l])
  | .switchover t => (Config.switchItem.toNat, beBytes 6 t.toNat)

/-- One item of a record (R375). -/
def itemBytes (i : RecItem) : List Byte := beBytes 1 (itemParts i).1 ++ beBytes 2 (itemParts i).2.length ++ (itemParts i).2

/-- The payload of RECORD (R375). -/
def recordBytes (b : RecordBody) : List Byte :=
  beBytes 2 b.flags.toNat ++ beBytes 6 b.tod.toNat ++ beBytes 2 b.di.toNat ++ beBytes 4 b.evt.toNat ++
  (b.digests.flatMap fun d => beBytes 8 d.toNat) ++ beBytes 2 b.items.length ++ b.items.flatMap itemBytes

/-- A task and its LT, as DONE, VERDICT and DIGEST carry them (R373). -/
def taskBytes (n : Nat) (lt : Tick) : List Byte := beBytes 1 n ++ beBytes 6 lt.toNat

/-- The payload of VERDICT (R373). -/
def verdictBytes (es : List (Nat × Tick × Bool)) : List Byte :=
  beBytes 1 es.length ++ es.flatMap fun e => taskBytes e.1 e.2.1 ++ beBytes 1 (b01 (!e.2.2))

/-- Area, byte offset and data of resynchronisation data (R373). The manual gives the areas no codes, and the states of
tasks, banks and settings no form. [Log: DESIGN CHOICE, safe, entry 187.] -/
def stateParts (d : ResyncData) : Byte × Nat × List Byte :=
  match d with
  | .bits a vs => (Config.stateArea 0, a.toNat / 8, packBits vs)
  | .words a vs => (Config.stateArea 1, 3 * a.toNat, packPoints [] vs)
  | .depot p data => (Config.stateArea 2, 256 * p.toNat, data)
  | d => Config.stateCoding d

/-! ## Plainline frames (R404, R405) -/

/-- The payload of a Plainline frame without its E2E check value (R405). -/
def plOpen (ver type epoch cycle node map flags : Nat) (data : List Byte) : List Byte :=
  beBytes 1 ver ++ beBytes 1 type ++ beBytes 2 epoch ++ beBytes 4 cycle ++ beBytes 2 node ++ beBytes 4 map ++ beBytes 2 flags ++ data

/-- The payload of a Plainline frame: E2E, then zero bytes up to 46 (R405, R406). -/
def plPayload (b : List Byte) : List Byte := withCrc b ++ List.replicate (46 - (b.length + 4)) 0

/-- An Ethernet frame without its FCS (R404, R405, R407): addresses, the C-tag where VID is not 0, the R-TAG of a replicated
frame, EtherType 0x88B5, payload. -/
def plainlineFrame (dst src tag : Nat) (rtag : Option Nat) (payload : List Byte) : List Byte :=
  beBytes 6 dst ++ beBytes 6 src ++ (if tag % 4096 = 0 then [] else beBytes 2 0x8100 ++ beBytes 2 tag) ++
  (match rtag with | some q => beBytes 2 0xF1C1 ++ beBytes 2 0 ++ beBytes 2 q | none => []) ++ beBytes 2 0x88B5 ++ payload

end Sys2Proof.Machine
end

