-- ==== Sys2Proof/Machine/Send.lean ====
section
/-! DEFINITION. Packets that the module sends (R276 to R286, R298, R545, R547), accession records and their intake
(R516 to R522), notices (R321), and fault reports (R353 to R357). -/

namespace Sys2Proof.Machine

/-- What leaves the module is recorded newest first. -/
def emit (x : Sent) (s : State) : State := { s with sent := x :: s.sent }

/-! ## Frames of the ring and the sync link -/

/-- The SRC byte of this module's ring frames (R330). -/
def ownSrc (s : State) : Byte := BitVec.ofNat 8 (bitAt (s.red.pairEn && s.sys.partner) 7 + s.sys.ringId.toNat)

/-- Whether frames leave through a port (R338, R50): a link in management-only mode counts as broken for a frame that is not of
the management set. -/
def portPasses (s : State) (east mgmt : Bool) : Bool :=
  if east then s.pas.eUp && (!s.pas.eMgmt || mgmt) else s.pas.wUp && (!s.pas.wMgmt || mgmt)

/-- The commands of the management set, by their group (R50, R301). -/
def mgmtGroup (group : Nat) : Bool := [0x00, 0x07, 0x08, 0x0E].contains group

/-- The frames that a link in management-only mode carries (R338): DISCOVER, TOPOLOGY, REPORT, and COMMAND frames of the
management set, by the opcode in the first piece of their packet. [Log: DESIGN CHOICE, unsafe, entry 188.] -/
def mgmtFrame (type : Nat) (ack : Bool) (payload : List Byte) : Bool :=
  type = 0x01 || type = 0x02 || type = 0x40 ||
  (type = 0x20 && (ack || payload.getD 5 0 ≠ 0 || mgmtGroup (payload.getD 22 0).toNat))

/-- A frame leaves through the port of its ring, or, where that is broken, on the other ring with WRAPPED set (R328). A module
behind its by-pass adds none (R325), and one that sleeps sends none (R483). [Log: DEDUCED, unsafe, entry 189.] -/
def putFrame (f : RingFrame) (s : State) : State :=
  let m := mgmtFrame f.type f.ack f.payload
  if s.pas.bypass ∨ s.sys.asleep then s
  else if portPasses s f.east m then emit (.ring f.east (ringBytes f)) s
  else if portPasses s (!f.east) m then
    emit (.ring (!f.east) (ringBytes { f with east := !f.east, wrapped := true })) s
  else s

/-- Send a frame of this module with the next SEQ of its type (R329, R330): on both rings, or on the east ring alone.
[Log: DESIGN CHOICE, unsafe, entry 190.] -/
def sendRing (type dst : Nat) (both more ack : Bool) (tick : Nat) (payload : List Byte) (s : State) : State :=
  if s.pas.bypass ∨ s.sys.asleep then s
  else
    let f : RingFrame := {
      type := type, ver := 16 + s.pas.minor.toNat, src := (ownSrc s).toNat, dst := dst, hops := 0, east := true, more := more,
      wrapped := false, ack := ack, tick := tick, seq := (Tab.get 0 s.pas.seqs type).toNat, payload := payload }
    let s := putFrame f s
    let s := if both then putFrame { f with east := false } s else s
    { s with pas.seqs := Tab.upd 0 s.pas.seqs type (· + 1) }

/-- Whether the sync link carries a frame (R50, R372): in management-only mode heartbeats alone, and forwarded packets of the
management set, by the opcode in the first piece of the packet. [Log: DEDUCED, unsafe, entry 212.] -/
def syncCarries (s : State) (type : Nat) (payload : List Byte) : Bool :=
  s.red.syncUp && (!s.red.syncMgmt || type = 0x01 ||
    (type = 0x11 && payload.getD 0 0 = 6 && mgmtGroup (payload.getD 23 0).toNat))

/-- Send a frame on the sync link, or on the HB pair, in as many pieces of up to 1,024 bytes as it needs (R372). -/
def sendSync (hb : Bool) (type tick : Nat) (payload : List Byte) (s : State) : State :=
  if !hb && !syncCarries s type payload then s else
  let ps := if payload.isEmpty then [[]] else chunks 1024 payload.length payload
  ps.zipIdx.foldl (fun s p =>
    emit (.sync hb (syncBytes type s.red.syncVer.toNat (b01 s.sys.partner) (decide (p.2 + 1 < ps.length)) tick p.1)) s) s

/-- Send data that carry their own byte offset, in pieces (R373): what stands before the offset, then offset and data. -/
def sendParts (type tick : Nat) (head : List Byte) (offset : Nat) (data : List Byte) (s : State) : State :=
  if !syncCarries s type head then s else
  let k := 1020 - head.length
  let ps := if data.isEmpty then [[]] else chunks k data.length data
  ps.zipIdx.foldl (fun s p =>
    emit (.sync false (syncBytes type s.red.syncVer.toNat (b01 s.sys.partner) (decide (p.2 + 1 < ps.length)) tick
      (head ++ beBytes 4 (offset + k * p.2) ++ p.1))) s) s

/-- A CONTROL frame (R373, R374). -/
def sendControl (code : Nat) (data : List Byte) (s : State) : State :=
  sendSync false 0x11 s.tsk.tick.toNat (beBytes 1 code ++ data) s

/-- A forwarded packet or its reply on the sync link (R374): CONTROL frames of code 0x06 that carry what COMMAND frames carry
(R331, R351), in pieces that keep a frame's payload within 1,024 bytes, with MORE on every piece but the last. [Log: DEDUCED, unsafe, entry 213.] -/
def sendControlCommand (tag : W32) (origin : Byte) (bytes : List Byte) (s : State) : State :=
  if !syncCarries s 0x11 (0x06 :: commandBytes tag origin 0 bytes) then s else
  let ps := chunks 1015 bytes.length bytes
  ps.zipIdx.foldl (fun s p =>
    emit (.sync false (syncBytes 0x11 s.red.syncVer.toNat (b01 s.sys.partner) (decide (p.2 + 1 < ps.length)) s.tsk.tick.toNat
      (0x06 :: commandBytes tag origin p.2 p.1))) s) s

/-- The SRC byte of the other partner's ring frames (R330). -/
def peerDst (s : State) : Byte := BitVec.ofNat 8 (bitAt (!s.sys.partner) 7 + s.sys.ringId.toNat)

/-- A STATE frame of resynchronisation data (R373). -/
def sendState (d : ResyncData) (s : State) : State :=
  let p := stateParts d
  sendParts 0x10 s.tsk.tick.toNat [p.1, 0] p.2.1 p.2.2 s

/-! ## Sessions and packets -/

/-- The session of an endpoint (R290). -/
def sessionOf (s : State) (ep : Endpoint) : Option Session := s.host.sessions.find? (·.ep = ep)

/-- Change the session of an endpoint. -/
def updSession (ep : Endpoint) (f : Session → Session) (s : State) : State :=
  { s with host.sessions := s.host.sessions.map fun x => if x.ep = ep then f x else x }

/-- The PATH field (R285) of hops, with the fragment index. -/
def pathField (ext : Bool) (hops : List (BitVec 6)) (frag : Nat) : Nat :=
  if ext then 7 * 2 ^ 45 + frag
  else hops.length * 2 ^ 45 + frag +
    (hops.zipIdx.map fun h => h.1.toNat * 2 ^ (39 - 6 * h.2)).sum

/-- The extended path that follows a header of DEPTH 7 (R287). -/
def extPath (ext : Bool) (hops : List (BitVec 6)) : List Byte :=
  if ext then BitVec.ofNat 8 hops.length :: hops.map fun h => BitVec.ofNat 8 h.toNat else []

/-- The 20-byte header (R283). -/
def header (major minor flags : Nat) (seq path opcode plen status : Nat) : List Byte :=
  beBytes 1 0xC7 ++ beBytes 1 major ++ beBytes 1 minor ++ beBytes 1 flags ++ beBytes 4 seq ++ beBytes 6 path ++
  beBytes 2 opcode ++ beBytes 2 plen ++ beBytes 2 status

/-- Protect the parameters of one packet of a proved session: an HMAC tag (R545), or encryption with its tag (R547).
`kind` is 1 for a reply and 2 for a notice. CACHED is taken as 0. -/
def protect (x : Session) (kind : Nat) (hdr ext params : List Byte) (seq frag opcode status : Nat) : List Byte :=
  if !x.proved then params
  else if x.enc then
    let nonce := beBytes 1 kind ++ beBytes 4 seq ++ beBytes 1 frag ++ beBytes 2 opcode ++ beBytes 2 status ++ [0, 0]
    let r := gcmSeal ((x.keys.drop 96).take 32) nonce (hdr ++ ext) params
    r.1 ++ r.2.take 16
  else params ++ (hmacSha256 ((x.keys.drop 32).take 32) (hdr ++ ext ++ params)).take 16

/-- The trailer of SPI and USB packets (R282). -/
def withTrailer (ep : Endpoint) (bs : List Byte) : List Byte :=
  match ep with
  | .spi | .usb => bs ++ beBytes 4 (crc32c bs)
  | _ => bs

/-- The USB packets that carry a transfer: full ones, and a short or empty one at the end (R281). -/
def usbPackets (b : List Byte) : List (List Byte) :=
  let n := ({} : Config.UsbDevice).packet
  chunks n b.length b ++ (if b.length % n = 0 then [[]] else [])

/-- Hand one packet to its transport: the SPI outbound queue (R280), or the wire. -/
def transmit (ep : Endpoint) (tag : Option (BitVec 32)) (bs : List Byte) (s : State) : State :=
  match ep with
  | .spi => { s with host.spiOut := s.host.spiOut ++ [withTrailer ep bs] }
  | _ => emit (.packet ep tag (withTrailer ep bs)) s

/-- The transport's packet limit (R275). -/
def transportLimit : Endpoint → Nat
  | .eth _ => 1500
  | .udp _ _ => 1452
  | .spi | .usb => 8484

/-- Send a reply (R286, R298): split into fragments that fit MAX_PKT. `cached` sets CACHED. The reply that proves a
session is the last packet of the exchange, which travels without an auth tag (R542). [Log: DESIGN CHOICE, unsafe, entry 60; DEDUCED, unsafe, entry 143; DEDUCED, unsafe, entry 224.] -/
def sendReply (r : Req) (opcode status : BitVec 16) (params : List Byte) (cached : Bool) (s : State) : State :=
  let none' : Session := { ep := r.ep, idx := 0xFF, major := r.major, minor := r.minor,
                           maxPkt := BitVec.ofNat 16 (transportLimit r.ep) }
  let x := (sessionOf s r.ep).getD none'
  let x := if opcode = 3 ∧ status = 0 then { x with proved := false } else x
  let ext := match r.raw with | some w => w.2 | none => extPath r.ext r.hops
  let room := x.maxPkt.toNat - 20 - ext.length - (if x.proved then 16 else 0)
  let ps := if params.isEmpty then [[]] else chunks room params.length params
  let n := ps.length
  ps.zipIdx.foldl (fun s p =>
    let more := decide (p.2 + 1 < n)
    let mk := fun (c : Bool) => header x.major.toNat x.minor.toNat
      (0x80 + bitAt x.proved 6 + bitAt more 5 + bitAt c 4 + bitAt r.bcast 3) r.seq.toNat
      (match r.raw with | some w => w.1.toNat / 64 * 64 + p.2 | none => pathField r.ext r.hops p.2) opcode.toNat p.1.length status.toNat
    transmit r.ep r.tag (mk cached ++ ext ++
      protect x 1 (mk false) ext p.1 r.seq.toNat p.2 opcode.toNat status.toNat) s) s

/-- The bytes of an accession record without its CRC (R516). -/
def accBody (a : Acc) : List Byte :=
  beBytes 4 a.index.toNat ++ beBytes 2 a.code.toNat ++
  [BitVec.ofNat 8 (a.sev.toNat + bitAt a.fromPf 3 + bitAt a.coal 4), a.unit] ++
  beBytes 6 a.rtc.toNat ++ beBytes 6 a.tick.toNat ++
  [BitVec.ofNat 8 a.origin.length] ++ padTo 7 (a.origin.map fun h => BitVec.ofNat 8 h.toNat) ++
  beBytes 4 a.count.toNat ++ padTo 28 a.data

/-- The 64 bytes of an accession record (R516). -/
def accBytes (a : Acc) : List Byte := accBody a ++ beBytes 4 (crc32c (accBody a))

/-- Offer a notice to one session (R321): its number rises whether or not the packet is discarded for a full SPI
outbound queue (R280). A sleeping module sends none (R483). -/
def notice (a : Acc) (x : Session) (s : State) : State :=
  match if s.sys.asleep then none else x.notice with
  | none => s
  | some low =>
    if a.sev.toNat < low.toNat then s
    else
      let full := decide (x.ep = .spi) && decide (s.host.spiOut.length ≥ 16)
      let s := updSession x.ep (fun y => { y with noticeNo := y.noticeNo + 1,
                                                  disQ := if full then satInc y.disQ else y.disQ }) s
      if full then s
      else
        let hdr := header x.major.toNat x.minor.toNat (0x80 + bitAt x.proved 6) x.noticeNo.toNat 0 0x0710 64 0
        transmit x.ep none (hdr ++ protect x 2 hdr [] (accBytes a) x.noticeNo.toNat 0 0x0710 0) s

/-- Count one loss of severity `sev` into the pending LOST record (R522). -/
def countLoss (sev : BitVec 3) (s : State) : State :=
  let p := s.log.pending.getD { rtc := s.bkd.rtc, tick := s.tsk.tick }
  let p := { p with counts := Tab.upd 0 p.counts sev.toNat (fun n => min (n + 1) 0xFFFFFF),
                    sev := if p.sev.toNat < sev.toNat then sev else p.sev, total := satInc p.total }
  { s with log.pending := some p, log.lost := Tab.upd 0 s.log.lost sev.toNat satInc }

/-- The lowest severity in a list of records. -/
def lowestSev (l : List Acc) : Nat := l.foldl (fun m a => min m a.sev.toNat) 7

/-- Drop the newest record of severity `v`. -/
def dropNewest (v : Nat) (l : List Acc) : List Acc :=
  let r := l.reverse
  (r.takeWhile (fun a => a.sev.toNat ≠ v) ++ (r.dropWhile (fun a => a.sev.toNat ≠ v)).drop 1).reverse

/-- Put a record into the RAM buffer, dropping the arriving or the newest lowest-severity one when it is full
(R521). -/
def bufferIn (a : Acc) (s : State) : State :=
  if s.log.buf.length < 2048 then { s with log.buf := s.log.buf ++ [a] }
  else
    let low := lowestSev s.log.buf
    if a.sev.toNat ≤ low then countLoss a.sev s
    else countLoss (BitVec.ofNat 3 low) { s with log.buf := dropNewest low s.log.buf ++ [a] }

/-- Write an accession into the log (R520): index, stamps, buffer, notices, and the severity kept for UNIT_STATUS
(R306). -/
def logIn (a : Acc) (s : State) : State :=
  let a := { a with index := s.log.next, rtc := s.bkd.rtc, tick := s.tsk.tick }
  let s := { s with log.next := s.log.next + 1, log.intake := satInc s.log.intake,
                    host.highSev := if s.host.highSev.toNat < a.sev.toNat then BitVec.ofNat 8 a.sev.toNat
                                    else s.host.highSev }
  let s := bufferIn a s
  s.host.sessions.foldl (fun s x => notice a x s) s

/-! ## Fault reports and the head's origin table (R353 to R357) -/

/-- The basin tick (R339): the basin offset added to the module's own tick count. -/
def basinTick (s : State) : Nat := (s.tsk.tick + s.pas.ofs).toNat

/-- Whether the module is a member of a basin: a ring state other than ALONE and FORMING (R336). -/
def inBasin (s : State) : Bool := s.pas.ring = 2 ∨ s.pas.ring = 3 ∨ s.pas.ring = 4

/-- The module's own unit path relative to the basin root: the member, and in a pair the partner (R19). -/
def selfPath (s : State) : List (BitVec 6) :=
  s.sys.ringId :: (if s.red.pairEn then [if s.sys.partner then 1 else 0] else [])

/-- Whether origin a lies below origin b (R355). -/
def belowOrigin (a b : List (BitVec 6)) : Bool := b.isPrefixOf a && decide (b.length < a.length)

/-- Join two sets of origins. -/
def joinOrigins (a b : List (List (BitVec 6))) : List (List (BitVec 6)) :=
  b.foldl (fun l x => if l.contains x then l else l ++ [x]) a

/-- The accession of a closed origin record (R356, R518). -/
def originAcc (o : Origin) : Acc :=
  { index := 0, code := BitVec.ofNat 16 (0x180 + o.cls.toNat), sev := o.sev, coal := true, rtc := 0, tick := 0,
    origin := o.origin, count := BitVec.ofNat 32 o.count,
    data := [o.cls] ++ beBytes 2 o.affected.length ++ beBytes 6 o.first ++ beBytes 6 o.last }

/-- Whether open record r takes report q of basin tick t (R355). -/
def takesReport (q : Report) (t : Nat) (r : Origin) : Bool :=
  decide (ticksSince r.t0 t < 100000) &&
  ((r.origin = q.origin && r.cls = q.cls) || belowOrigin q.origin r.origin || (q.cls = 1 && r.origin = q.origin))

/-- The record that takes a report: the longest origin, then the oldest (R355). -/
def bestRecord (l : List Origin) : Option Origin :=
  l.foldl (fun m o => match m with
    | none => some o
    | some k => if o.origin.length > k.origin.length ∨ (o.origin.length = k.origin.length ∧ o.seqNo < k.seqNo) then some o else some k) none

/-- The record to close when the table is full: the lowest severity, then the oldest (R357). -/
def weakestRecord (l : List Origin) : Option Origin :=
  l.foldl (fun m o => match m with
    | none => some o
    | some k => if o.sev.toNat < k.sev.toNat ∨ (o.sev = k.sev ∧ o.seqNo < k.seqNo) then some o else some k) none

/-- Write an open record and take it off the table (R356). -/
def closeOrigin (o : Origin) (s : State) : State :=
  logIn (originAcc o) { s with pas.origins := s.pas.origins.filter (·.seqNo ≠ o.seqNo) }

/-- Merge record x into record r (R355). -/
def mergeOrigin (r x : Origin) : Origin :=
  { r with t0 := earlierTick r.t0 x.t0, count := r.count + x.count, affected := joinOrigins r.affected x.affected,
           sev := if r.sev.toNat < x.sev.toNat then x.sev else r.sev, first := earlierTick r.first x.first, last := laterTick r.last x.last }

/-- The head coalesces a report (R355, R357). -/
def coalesce (q : Report) (t : Nat) (s : State) : State :=
  match bestRecord (s.pas.origins.filter (takesReport q t)) with
  | some r =>
    let r' := { r with count := r.count + 1, affected := joinOrigins r.affected [q.origin],
                       cls := if q.cls = 1 ∧ r.origin = q.origin then 1 else r.cls,
                       sev := if r.sev.toNat < q.sev.toNat then q.sev else r.sev, first := earlierTick r.first t, last := laterTick r.last t }
    { s with pas.origins := s.pas.origins.map fun o => if o.seqNo = r.seqNo then r' else o }
  | none =>
    let s := if s.pas.origins.length ≥ 256 then
        match weakestRecord s.pas.origins with | some o => closeOrigin o s | none => s
      else s
    let r : Origin := { origin := q.origin, cls := q.cls, sev := q.sev, t0 := t, count := 1, affected := [q.origin],
                        first := t, last := t, seqNo := s.pas.originSeq }
    let below := s.pas.origins.filter fun o => belowOrigin o.origin q.origin
    let r := below.foldl mergeOrigin r
    { s with pas.originSeq := s.pas.originSeq + 1,
             pas.origins := (s.pas.origins.filter fun o => !belowOrigin o.origin q.origin) ++ [r] }

/-- The DST byte of member m (R330): in a pair its active partner. -/
def memberDst (s : State) (m : Nat) : Byte :=
  let k := Tab.get {} s.pas.memb m
  BitVec.ofNat 8 (bitAt (k.p1.up && (k.p1.active || !k.p0.up)) 7 + m)

/-- Send a report to the head (R353, R354): at most one for each origin and class in 100,000 ticks. [Log: DEDUCED, unsafe, entry 27; DEDUCED, unsafe, entry 173.] -/
def report (cls : Nat) (sev : BitVec 3) (origin : List (BitVec 6)) (detail : Nat) (s : State) : State :=
  if !inBasin s ∨ (!s.pas.reportEn ∧ cls ≠ 1) then s
  else
    let t := basinTick s
    let c := BitVec.ofNat 8 cls
    if s.pas.reported.any fun r => r.2.1 = c && r.2.2 = origin && decide (ticksSince r.1 t < 100000) then
      { s with pas.held := satInc s.pas.held }
    else
      let q : Report := ⟨c, sev, origin, BitVec.ofNat 64 detail⟩
      let s := { s with pas.reported := (t, c, origin) :: s.pas.reported.filter fun r => decide (ticksSince r.1 t < 100000) }
      if s.pas.head then coalesce q t s
      else sendRing 0x40 (memberDst s s.pas.headId.toNat).toNat false false false t (reportBytes q) s

/-- Intake of an accession (R520); a member of a basin forwards one of severity FWD_MIN or higher (R353). -/
def intake (a : Acc) (s : State) : State :=
  let s := logIn a s
  if a.sev.toNat ≥ s.pas.fwdMin.toNat then report 0x10 a.sev (selfPath s ++ [a.unit.setWidth 6]) a.code.toNat s else s

/-- Write an accession of internal unit `unit` (R518: `data` holds the items in order). [Log: DESIGN CHOICE, unsafe, entry 25.] -/
def accession (unit code sev : Nat) (data : List Byte) (s : State) : State :=
  intake { index := 0, code := BitVec.ofNat 16 code, sev := BitVec.ofNat 3 sev, unit := BitVec.ofNat 8 unit,
           rtc := 0, tick := 0, data := data } s

/-- A free value of the next draw (the counter advances). -/
def drawWord (s : State) : W32 × State := (Config.freeWord s.free, { s with free := s.free + 1 })

/-- A free truth value of the next draw. -/
def drawBool (s : State) : Bool × State := (Config.freeBool s.free, { s with free := s.free + 1 })

end Sys2Proof.Machine
end

