-- ==== Sys2Proof/Machine/RegView.lean ====
section
/-! DEFINITION. What every control register shows, without the side effects of a read (chapter 16 and the register
tables of the chapters it names). A register for which the manual gives no value shows `Config.reading`. -/

namespace Sys2Proof.Machine

/-- Whether a feature instance is enabled (R31). -/
def enabled (s : State) (code inst : Nat) : Bool :=
  s.res.enabled.contains (BitVec.ofNat 8 code, BitVec.ofNat 8 inst)

/-- Bits [63:32] or [31:0] of a number as a register. -/
def lo32 (v : Nat) : W32 := BitVec.ofNat 32 v

/-- Bits [63:32] of a number as a register. -/
def hi32 (v : Nat) : W32 := BitVec.ofNat 32 (v / 2 ^ 32)

/-- The active bank, and the other one (R247). -/
def activeBank (s : State) : Bank := if s.prog.active then s.prog.bank1 else s.prog.bank0
/-- The shadow bank. -/
def shadowBank (s : State) : Bank := if s.prog.active then s.prog.bank0 else s.prog.bank1
/-- Bank 0 or bank 1. -/
def bankOf (s : State) (b : Bool) : Bank := if b then s.prog.bank1 else s.prog.bank0

/-- Task n at run time. -/
def task (s : State) (n : Nat) : Task := Tab.get {} s.tsk.tasks n
/-- The definition of task n in the active bank. -/
def taskDef (s : State) (n : Nat) : TaskDef := Tab.get {} (activeBank s).tasks n
/-- Change task n. -/
def updTask (n : Nat) (f : Task → Task) (s : State) : State :=
  { s with tsk.tasks := Tab.upd {} s.tsk.tasks n f }
/-- Core c. -/
def core (s : State) (c : Nat) : Core := Tab.get {} s.scan.cores c
/-- Change core c. -/
def updCore (c : Nat) (f : Core → Core) (s : State) : State :=
  { s with scan.cores := Tab.upd {} s.scan.cores c f }

/-- The version in a slot (R568): that of its header, or of the factory image, which was never received. -/
def slotVer (k : Nat) (x : Slot) : BitVec 24 :=
  if x.length = 0 ∧ x.st ≠ .empty then Config.factoryVersion k else x.ver

/-- The 512 header bytes of a slot's image (R549). -/
def slotHeader (k : Nat) (x : Slot) : List Byte :=
  if x.length = 0 ∧ x.st ≠ .empty then padTo 512 (Config.factoryHeader k) else x.header

/-- Part k. -/
def partOf (s : State) (k : Nat) : Part := Tab.get {} s.upd.parts k
/-- The slot that part k runs from, and the other one. -/
def runSlot (p : Part) : Slot := if p.runB then p.b else p.a
/-- The slot that is not running. -/
def idleSlot (p : Part) : Slot := if p.runB then p.a else p.b
/-- The version of the running image of part k. -/
def runVer (s : State) (k : Nat) : BitVec 24 := slotVer k (runSlot (partOf s k))

/-- The replica-determinism version of the running SUP image (R396, R549). -/
def ownRdv (s : State) : BitVec 16 := BitVec.ofNat 16 (beNat (((slotHeader 0 (runSlot (partOf s 0))).drop 20).take 2))

/-- State codes of R104. -/
def tstateCode : TState → Nat
  | .absent => 0 | .disabled => 1 | .idle => 2 | .ready => 3 | .running => 4 | .preempted => 5 | .done => 6
  | .faulted => 7

/-- Edit state codes of R253. -/
def editCode : EditState → Nat
  | .none => 0 | .opened => 1 | .building => 2 | .built => 3 | .armed => 4 | .draining => 5 | .failed => 6

/-- Mode codes of R113. -/
def modeCode : RunMode → Nat
  | .stop => 0 | .run => 1 | .step => 2

/-- Slot state codes of R569. -/
def slotCode : SlotSt → Nat
  | .empty => 0 | .receiving => 1 | .complete => 2 | .verifying => 3 | .valid => 4 | .invalid => 5 | .trial => 6
  | .running => 7 | .rejected => 8

/-- Node state codes of R434. -/
def nodeCode : NodeSt → Nat
  | .unused => 0 | .cfg => 1 | .running => 2 | .lost => 3 | .cfgErr => 4 | .mgmt => 5

/-- The node state of a code of R434. -/
def nodeOf : Nat → NodeSt
  | 1 => .cfg | 2 => .running | 3 => .lost | 4 => .cfgErr | 5 => .mgmt | _ => .unused

/-- A task whose release is in progress: READY, RUNNING, PREEMPTED or DONE (R111). -/
def released (t : Task) : Bool := t.st = .ready ∨ t.st = .running ∨ t.st = .preempted ∨ t.st = .done

/-- The bits of 0 to n-1 that satisfy `p`, as a map. -/
def bitMap (n : Nat) (p : Nat → Bool) : Nat := ((List.range n).map fun i => bitAt (p i) i).sum

/-- The data of the latest write of page p that is queued or that the firmware waits to queue (R506). -/
def queuedData (s : State) (p : Nat) : Option (List Byte) :=
  let w := s.depot.waiters.reverse.findSome? fun x => match x with | .firmware q d => if q = p then some d else none | _ => none
  w.or ((s.depot.queue.reverse.find? fun x => x.page = p && x.twin.isNone).map (·.data))

/-- One byte of the depot pages 256 to 1,023 (R506): queued data first; an uncorrectable group reads as zeros. -/
def depotByte (s : State) (a : Nat) : Byte :=
  match queuedData s (a / 256) with
  | some d => d.getD (a % 256) 0
  | none => if (Tab.get 0 s.depot.bad (a / 256)).getLsbD (a % 256 / 8) then 0 else Tab.get 0 s.depot.bytes a

/-- `n` bytes of the depot from address `a`. -/
def depotBytes (s : State) (a : Nat) : Nat → List Byte
  | 0 => []
  | n + 1 => depotByte s a :: depotBytes s (a + 1) n

/-- Depot address of enrolment slot i (R541). -/
def slotBase (i : Nat) : Nat := 0x10000 + 2048 * i

/-- Whether enrolment slot i is in use: its state byte is 0x01 and its CRC matches (R541). -/
def slotInUse (s : State) (i : Nat) : Bool :=
  decide (depotByte s (slotBase i + 3) = 1) &&
  decide (crc32c (depotBytes s (slotBase i) 252 ++ [0, 0, 0, 0] ++ depotBytes s (slotBase i + 256) 1792)
    = beNat (depotBytes s (slotBase i + 252) 4))

/-- Whether the module runs as a partner in a standby role (R366). -/
def standby (s : State) : Bool := s.red.role = 2 ∨ s.red.role = 3 ∨ s.red.role = 4

/-- Seconds from ticks of 10 µs. -/
def secsLeft (s : State) (endTick : Nat) : Nat := (endTick - s.sys.upTicks + 99999) / 100000

/-- `DIO_FAULT` (R468). -/
def dioFault (s : State) : W32 :=
  lo32 (bitAt s.dio.fSupply 31 + s.dio.fMismatch.toNat * 2 ^ 16 + s.dio.fThermal.toNat * 2 ^ 8 + s.dio.fShort.toNat)

/-- A channel field of `SAF_STATUS` (R470). -/
def chanField (c : SafCh) : Nat :=
  bitAt c.on 7 + bitAt c.restart 6 + bitAt c.fault 5 + bitAt c.discrep 4 + bitAt c.silence 3 + bitAt c.req 2 +
  bitAt c.demand 1 + bitAt c.disabled 0

/-- `SAF_STATUS` as the I/O die holds it (R470); while the self-test runs, its outcome and both channels read 0 (R469). -/
def safImage (s : State) : W32 :=
  let told := fun (n : Nat) => if s.iod.testing then 0 else n
  lo32 (told (bitAt s.iod.selfFail 31 + bitAt s.iod.selfDone 30 + bitAt s.iod.cfgChanged 29) +
    bitAt (s.iod.now.getLsbD 6) 28 + bitAt s.iod.rstIn 20 + s.iod.sdiNow.toNat * 2 ^ 16 +
    told (chanField s.iod.ch2 * 2 ^ 8 + chanField s.iod.ch1))

/-- `SAF_SWITCH` as the I/O die holds it: no setting is in force while the self-test runs (R469). -/
def safSwitches (d : Iod) : BitVec 16 := d.now ++ (if d.testing then 0 else d.inForce)

/-- Whether internal unit u has a condition of the Degraded column (R607). -/
def degraded (s : State) (u : Nat) : Bool :=
  match u with
  | 0 => s.res.denied || s.res.conflict
  | 1 => (List.range 9).any fun c => (core s c).retired
  | 2 => (List.range 8).any (fun p => enabled s 0x10 p && !(Tab.get {} s.ports.fld.ports p).link) ||
         s.ports.fld.nodes.any (fun n => n.2.st = .lost) || s.red.degraded || s.pas.ring = 3
  | 3 => dioFault s ≠ 0
  | 4 => s.dio.safStatus.getLsbD 0 || s.dio.safStatus.getLsbD 8
  | 5 => s.bkd.osf
  | _ => false

/-- Whether internal unit u has a condition of the Faulted column (R607). -/
def faulted (s : State) (u : Nat) : Bool :=
  match u with
  | 0 => s.sys.fatal.isSome
  | 1 => (List.range 32).any fun n => (task s n).st = .faulted
  | 2 => s.pas.ring = 4 || s.pas.dupId
  | 3 => !s.dio.up && s.sys.boot ≠ .step3
  | 4 => s.dio.safStatus.getLsbD 31 || s.dio.safStatus.getLsbD 29 || s.dio.safStatus.getLsbD 5 ||
         s.dio.safStatus.getLsbD 13
  | 5 => s.bkd.evValid
  | _ => false

/-- HEALTH of internal unit u: 0 normal, 1 degraded, 2 faulted (R607). -/
def health (s : State) (u : Nat) : Nat := if faulted s u then 2 else if degraded s u then 1 else 0

/-- The worst HEALTH of the six units (R605). -/
def worstHealth (s : State) : Nat := ((List.range 6).map (health s)).foldl max 0

/-- `SYS_UNIT_STATUS[u]` (R607). -/
def unitStatus (s : State) (u : Nat) : Nat :=
  health s u * 2 ^ 30 + bitAt (s.sys.uncorr.getLsbD u) 2 + bitAt (faulted s u) 1 + bitAt (degraded s u) 0

/-- Start-up step in progress (R605); before step 3 nothing can read it. -/
def startStep (s : State) : Nat :=
  match s.sys.boot with
  | .ready => 0 | .step7 => 7 | .step6 | .roleWait | .forming => 6 | .step5 => 5 | .step4 => 4 | _ => 3

/-- The higher of a temperature and a reading, both signed 16-bit numbers (R604). -/
def hotter (a : BitVec 16) (b : W32) : BitVec 16 := if a.toInt < (b.setWidth 16).toInt then b.setWidth 16 else a

/-- The SYS block (R604 to R607). -/
def viewSys (s : State) (o : Nat) : W32 :=
  match o with
  | 0x00 => lo32 (0x6424 * 2 ^ 16 + Config.hwRev.toNat * 2 ^ 8)
  | 0x04 => lo32 (worstHealth s * 2 ^ 30 + bitAt s.sys.pfail 29 + bitAt (s.sys.boot = .ready) 28 + startStep s * 2 ^ 24)
  | 0x08 => lo32 Config.bootRomVersion.toNat
  | 0x0C => lo32 (bitAt s.sys.partner 8 + s.sys.ringId.toNat)
  | 0x10 => lo32 s.sys.cause.toNat
  | 0x14 => match s.sys.fatal with
            | none => 0
            | some (u, c) => lo32 (2 ^ 31 + u.toNat * 2 ^ 24 + c.toNat)
  | 0x18 => lo32 s.sys.fatalTick.toNat
  | 0x1C => lo32 s.sys.fatalHi.toNat
  | 0x20 => lo32 (Config.serial.toNat / 2 ^ 96)
  | 0x24 => lo32 (Config.serial.toNat / 2 ^ 64)
  | 0x28 => lo32 (Config.serial.toNat / 2 ^ 32)
  | 0x2C => lo32 Config.serial.toNat
  | 0x30 => lo32 Config.mac.toNat
  | 0x34 => hi32 Config.mac.toNat
  | 0x38 => Config.reading 0x10038 s.free
  | 0x3C => Config.reading 0x1003C s.free &&& 0xFF#32
  | 0x40 => Config.reading 0x10040 s.free &&& 0xFFFF#32
  | 0x44 => Config.reading 0x10044 s.free &&& 0xFFFF#32
  | 0x48 => (hotter s.sys.tempMax (Config.reading 0x10048 s.free)).setWidth 32
  | 0x4C => lo32 (s.sys.upTicks / 100000)
  | 0x50 => s.sys.cmdCount
  | 0x54 => s.sys.eccCorr
  | 0x58 => s.sys.eccUnc
  | _ => if 0x80 ≤ o ∧ o < 0x98 then lo32 (unitStatus s ((o - 0x80) / 4))
         else if 0xA0 ≤ o ∧ o < 0xB0 then Tab.get 0 s.sys.scratch ((o - 0xA0) / 4)
         else 0

/-- What `ISL_COUNT`, `ISL_XIN`, `ISL_XOUT` and `ISL_XMAX` of an island with a running clock read: open values (R608).
[Log: DESIGN CHOICE, safe, entry 240.] -/
def islReading (o : Nat) (s : State) : W32 := Config.reading (0x20000 + o) s.free &&& (if o % 0x20 = 0x14 then 0xFF#32 else 0xFFFFFFFF#32)

/-- Island i's clock stops (R608): its counters hold what they have counted. -/
def holdClock (i : Nat) (s : State) : State :=
  let r := fun (o : Nat) => islReading (0x100 + 0x20 * i + o) s
  { s with sys.isl := Tab.upd {} s.sys.isl i fun x => { x with count := r 0x08, xin := r 0x0C, xout := r 0x10, xmax := r 0x14 } }

/-- Island i loses its recovered clock (R608), which is counted. -/
def loseClock (i : Nat) (s : State) : State :=
  let s := holdClock i s
  { s with sys.isl := Tab.upd {} s.sys.isl i fun x => { x with loss := satInc x.loss } }

/-- Whether island i has a running clock (R608). -/
def islRunning (s : State) (i : Nat) : Bool :=
  match i with
  | 3 => s.sys.hostLink
  | 4 => s.pas.eUp
  | 5 => s.pas.wUp
  | 6 => s.red.syncUp
  | 7 => s.iod.powered
  | 8 => s.bkd.running
  | _ => i < 9

/-- Whether island i's recovered clock is locked: always for an island with its own clock (R608). -/
def islLocked (s : State) (i : Nat) : Bool := if 3 ≤ i ∧ i ≤ 6 then islRunning s i else true

/-- The ISL block (R608). -/
def viewIsl (s : State) (o : Nat) : W32 :=
  if o = 0 then lo32 (bitMap 9 (islRunning s))
  else if o = 4 then lo32 (bitMap 9 (islLocked s))
  else if 0x100 ≤ o ∧ o < 0x220 then
    let i := (o - 0x100) / 0x20
    match o % 0x20 with
    | 0x00 => lo32 (bitAt (islRunning s i) 31 + bitAt (islLocked s i) 30)
    | 0x04 => if i = 7 then 0 else (Config.islFreq i s.free).setWidth 32
    | 0x08 => if i = 7 then 0 else if i = 8 then lo32 s.bkd.rtc.toNat else if islRunning s i then islReading o s else (Tab.get {} s.sys.isl i).count
    | 0x0C => if i = 7 then 0 else if islRunning s i then islReading o s else (Tab.get {} s.sys.isl i).xin
    | 0x10 => if i = 7 then 0 else if islRunning s i then islReading o s else (Tab.get {} s.sys.isl i).xout
    | 0x14 => if i = 7 then 0 else if islRunning s i then islReading o s else (Tab.get {} s.sys.isl i).xmax
    | 0x18 => lo32 ([4, 2, 4, 8, 8, 8, 8, 1200, 10].getD i 0)
    | 0x1C => if 3 ≤ i ∧ i ≤ 6 then (Tab.get {} s.sys.isl i).loss else 0
    | _ => 0
  else 0

/-- `RES_CLAIM[n]` (R40). -/
def claimWord (c : Claim) : Nat :=
  if c.code = 0 then 0 else 2 ^ 31 + c.code.toNat * 2 ^ 8 + c.inst.toNat

/-- The RES block (R37 to R40). -/
def viewRes (s : State) (o : Nat) : W32 :=
  match o with
  | 0x0 => lo32 (bitAt s.res.conflict 31 + s.res.confRes.toNat * 2 ^ 16 + s.res.confFeat.toNat * 2 ^ 8 +
                 s.res.confInst.toNat)
  | 0x4 => lo32 (s.res.reqFeat.toNat * 2 ^ 8 + s.res.reqInst.toNat)
  | 0x8 => s.res.count
  | _ => if 0x100 ≤ o ∧ o < 0x208 then lo32 (claimWord (Tab.get {} s.res.claims ((o - 0x100) / 4))) else 0

/-- The live registers of the CAST block and the cast copies (R48, R609, R610). -/
def viewCast (s : State) (o : Nat) : W32 :=
  match o with
  | 0x0 => lo32 (bitAt s.cast.held 31 + s.cast.missed.toNat * 2 ^ 16 + s.cast.source.toNat)
  | 0x4 => lo32 (bitAt s.cast.pinEn 31 + s.cast.pinSel.toNat)
  | 0x8 => s.cast.count
  | 0xC => s.cast.missedTotal
  | _ => Tab.get 0 s.cast.copies o

/-- Whether core c holds the oldest segment of the served task (R126). -/
def isOldest (s : State) (c : Nat) : Bool :=
  match (core s c).run with
  | none => false
  | some r => match (task s r.task).queue with
    | (_, .onCore k) :: _ => k = c
    | _ => false

/-- STATE of core c (R166): a run in journal mode reads as speculative and one that has ended, stalled or stopped at a trap as
waiting, also where its segment is the oldest. [Log: DESIGN CHOICE, unsafe, entry 185.] -/
def coreState (s : State) (c : Nat) : Nat :=
  let k := core s c
  if k.retired then 4
  else match k.run with
    | none => if k.active then 0 else 5
    | some r => if r.direct then 2 else if r.ended || r.stalled || r.trap.isSome then 3 else 1

/-- `SCN_STATUS` (R163). -/
def scnStatus (s : State) : Nat :=
  let spare := (List.range 9).any fun c => !(core s c).active && !(core s c).retired
  bitAt (!spare) 31 + bitAt spare 30 + ((List.range 9).filter fun c => (core s c).active).length * 2 ^ 24 +
  bitMap 9 (fun c => (core s c).retired)

/-- `SCN_CORE_STATUS[c]` (R166); TASK and SEG of a core that holds no segment read 0. [Log: DESIGN CHOICE, unsafe, entry 216.] -/
def coreStatus (s : State) (c : Nat) : Nat :=
  let r := (core s c).run.getD {}
  coreState s c * 2 ^ 29 + bitAt (isOldest s c) 28 + r.task * 2 ^ 19 + r.seg

/-- PC of the current instruction of core c (R162); without a segment, the PC at which its last run stood. [Log: DESIGN CHOICE, unsafe, entry 215.] -/
def corePc (s : State) (c : Nat) : BitVec 21 :=
  match (core s c).run with
  | some r => r.pc
  | none => (core s c).pcLast

/-- A segment table entry as the registers show it (R123). -/
def segWord (b : Bank) (n : Nat) : W32 := Tab.get 0 b.segs n

/-- The SCN block (R161 to R167). -/
def viewScn (s : State) (o : Nat) : W32 :=
  match o with
  | 0x00 => lo32 (scnStatus s)
  | 0x08 => s.scan.segAddr
  | 0x0C => segWord (if s.scan.segAddr.getLsbD 16 then shadowBank s else activeBank s) (s.scan.segAddr.toNat % 2 ^ 14)
  | 0x10 => s.scan.retry
  | 0x14 => s.scan.squash
  | 0x18 => s.scan.runCount
  | 0x1C => s.scan.skipCount
  | _ =>
    if 0x100 ≤ o ∧ o < 0x180 then
      let n := (o - 0x100) / 4
      lo32 ((taskDef s n).quota.toNat % 2 ^ 16 * 2 ^ 16 + (task s n).peak.toNat)
    else if 0x1000 ≤ o ∧ o < 0x1240 then
      let c := (o - 0x1000) / 0x40
      let k := core s c
      match o % 0x40 with
      | 0x00 => lo32 (coreStatus s c)
      | 0x04 => Config.reading (0x50000 + o) s.free
      | 0x08 => lo32 (corePc s c).toNat
      | 0x0C => lo32 (k.jrnPeak.toNat * 2 ^ 16 + (match k.run with | some r => r.journal.length | none => 0))
      | 0x10 => k.instr
      | 0x14 => Config.reading (0x50000 + o) s.free
      | 0x18 => k.commits
      | 0x1C => k.squash
      | 0x20 => k.ovf
      | 0x24 => k.serial
      | 0x28 => k.resErr
      | 0x2C => k.parErr
      | 0x30 => lo32 (k.eccUnc.toNat * 2 ^ 16 + k.eccCorr.toNat)
      | 0x34 => match k.fault with
                | none => 0
                | some (cause, t, sg) => lo32 (2 ^ 31 + cause.toNat * 2 ^ 28 + t.toNat * 2 ^ 16 + sg.toNat)
      | 0x38 => lo32 k.faultPc.toNat
      | 0x3C => k.faultLt
      | _ => 0
    else 0

/-- `TSK_CFG[n]` (R116): the definition's fields, PRESENT, and ENABLED as it stands. -/
def tskCfg (s : State) (n : Nat) : W32 :=
  let t := task s n
  if t.st = .absent then 0
  else ((taskDef s n).cfg &&& 0x6FFF001F#32) ||| 0x80000000#32 |||
       (if t.st = .disabled then 0#32 else 0x10000000#32)

/-- `TSK_STATE[n]` (R119). -/
def tskState (t : Task) : Nat :=
  tstateCode t.st * 2 ^ 28 + bitAt t.evtPend 27 + bitAt t.ext 26 + t.evtLost.toNat

/-- `TSK_RELEASED` and `TSK_FAULTED` (R111). -/
def tskReleased (s : State) : Nat := bitMap 32 fun n => released (task s n)
/-- `TSK_FAULTED` (R111). -/
def tskFaulted (s : State) : Nat := bitMap 32 fun n => (task s n).st = .faulted

/-- `TSK_RUN_CTRL` (R113). -/
def runCtrl (s : State) : Nat := modeCode s.tsk.mode * 2 ^ 30 + b01 s.tsk.stopOut

/-- `TSK_TB_STATUS` (R115). -/
def tbStatus (s : State) : Nat := bitAt s.tsk.locked 31 + s.tsk.activeSrc.toNat * 2 ^ 24 + s.tsk.offset.toNat

/-- The TSK block (R111 to R121). A write of `TSK_TB_CTRL` reads back before it takes effect. [Log: DESIGN CHOICE, unsafe, entry 180.] -/
def viewTsk (s : State) (o : Nat) : W32 :=
  match o with
  | 0x00 => lo32 (runCtrl s)
  | 0x08 => lo32 s.tsk.tick.toNat
  | 0x0C => lo32 s.tsk.tickHi.toNat
  | 0x10 => lo32 (tskReleased s)
  | 0x14 => lo32 (tskFaulted s)
  | 0x18 => (s.tsk.tbNext.getD s.tsk.tbCtrl)
  | 0x1C => lo32 (tbStatus s)
  | _ =>
    if 0x1000 ≤ o ∧ o < 0x1400 then
      let n := (o - 0x1000) / 0x20
      let t := task s n
      let d := taskDef s n
      let here := fun (w : W32) => if t.st = .absent then 0 else w
      match o % 0x20 with
      | 0x00 => tskCfg s n
      | 0x04 => here (lo32 (d.period.toNat % 2 ^ 20))
      | 0x08 => here (lo32 (d.deadline.toNat % 2 ^ 20))
      | 0x0C => here d.trig
      | 0x10 => lo32 (tskState t)
      | 0x14 => lo32 t.lt.toNat
      | 0x18 => lo32 (t.ovrTotal.toNat * 2 ^ 16 + t.ovrConsec.toNat)
      | 0x1C => lo32 (t.execMax.toNat * 2 ^ 16 + t.execLast.toNat)
      | _ => 0
    else 0

/-- A catchment entry as `CAT_ADDR` selects it (R168). -/
def catEntry (s : State) : Nat :=
  (Tab.get 0 (if s.scan.catAddr.getLsbD 16 then shadowBank s else activeBank s).cats
    (s.scan.catAddr.toNat % 2 ^ 13)).toNat

/-- The CAT block (R168). -/
def viewCat (s : State) (o : Nat) : W32 :=
  match o with
  | 0x00 => lo32 (((activeBank s).cats.filter fun e => e.2.getLsbD 63).length)
  | 0x04 => s.scan.catAddr
  | 0x08 => lo32 (catEntry s)
  | 0x0C => hi32 (catEntry s)
  | 0x10 => s.scan.missCount
  | 0x14 => s.scan.missLast
  | 0x18 => s.scan.missAddr
  | 0x1C => s.scan.fullScans
  | _ => 0

/-- The value of a copy where the copy is valid (R514): no group of its page is uncorrectable, and no supply failure has cut its write. -/
def copyValue (s : State) (page : Nat) (c : TwinCopy) : Option TwinVal :=
  if Tab.get 0 s.depot.bad page = 0 ∧ Tab.get [] s.depot.torn page = [] then c.val else none

/-- The copy that R514 takes: its value, whether it is copy B, its SEQ. -/
def twinTaken (s : State) (k : Nat) : Option (TwinVal × Bool × W32) :=
  let t := Tab.get {} s.depot.twins k
  match copyValue s (2 * k) t.a, copyValue s (2 * k + 1) t.b with
  | none, none => none
  | some v, none => some (v, false, t.a.seq)
  | none, some v => some (v, true, t.b.seq)
  | some v, some w => if t.a.seq.toNat < t.b.seq.toNat then some (w, true, t.b.seq) else some (v, false, t.a.seq)

/-- The value that the firmware last gave a twin record: the one that waits, else the queued one, else the stored. -/
def twinNow (s : State) (k : Nat) : Option TwinVal :=
  match Tab.get none s.depot.twinNext k with
  | some v => some v
  | none =>
    match s.depot.queue.reverse.find? fun w => (w.twin.map (·.1)) = some k with
    | some w => w.twin.bind fun t => t.2.val
    | none => (twinTaken s k).map (·.1)

/-- The trial counter (R557). -/
def trialCount (s : State) : BitVec 2 := match twinNow s 1 with | some (.trial n) => n | _ => 0

/-- The slot of the archive flash that the stored-program selector names (R268, R513): true is the second. -/
def storedSlot (s : State) : Option Bool :=
  match twinTaken s 2 with
  | some (.program true b, _) => some b
  | _ => none

/-- The stored program (R268). -/
def storedPrg (s : State) : Option Stored :=
  match storedSlot s with
  | some b => if b then s.prog.storedB else s.prog.storedA
  | none => none

/-- STORED of `PRG_STATUS`: the active bank is the stored program (R274). [Log: DEDUCED, unsafe, entry 151.] -/
def isStored (s : State) : Bool :=
  match storedPrg s with
  | none => false
  | some p => p.bank.digest = (activeBank s).digest

/-- `PRG_STATUS` (R274). -/
def prgStatus (s : State) : Nat :=
  bitAt s.prog.active 31 + editCode s.prog.edit * 2 ^ 28 + bitAt s.prog.undoAvail 27 + bitAt (isStored s) 26 +
  bitAt s.prog.undone 25

/-- `PRG_DRAIN` (R273): tasks that run a release on the previous bank. -/
def prgDrain (s : State) : Nat :=
  if s.prog.edit = .draining then bitMap 32 fun n => released (task s n) && (task s n).bank != s.prog.active else 0

/-- `PRG_BUILD` (R273); the progress of a build in 1/256 is an open value while it runs and, since a whole build has no
code in 1/256, once it has ended. [Log: DESIGN CHOICE, safe, entry 152.] -/
def prgBuild (s : State) : W32 :=
  let p := match s.prog.edit with
    | .none | .opened => 0
    | _ => Config.reading 0x80010 s.free &&& 0xFF000000#32
  p + lo32 (if s.prog.edit = .opened then s.prog.editBuf.length else 0)

/-- `PRG_EDIT_ERR` (R273). -/
def prgEditErr (s : State) : Nat := s.prog.errType.toNat * 2 ^ 16 + s.prog.editErr.toNat

/-- The PRG block (R273, R274). -/
def viewPrg (s : State) (o : Nat) : W32 :=
  match o with
  | 0x00 => lo32 (prgStatus s)
  | 0x04 => s.prog.gen
  | 0x08 => lo32 s.prog.armTick.toNat
  | 0x0C => lo32 s.prog.armShadow.toNat
  | 0x10 => prgBuild s
  | 0x14 => lo32 (prgEditErr s)
  | 0x18 => lo32 s.prog.errOfs.toNat
  | 0x1C => lo32 (prgDrain s)
  | 0x20 => lo32 (activeBank s).digest.toNat
  | 0x24 => hi32 (activeBank s).digest.toNat
  | 0x28 => lo32 (shadowBank s).digest.toNat
  | 0x2C => hi32 (shadowBank s).digest.toNat
  | 0x30 => s.prog.editCount
  | _ => 0

/-- `RED_STATUS` (R398). -/
def redStatus (s : State) : Nat :=
  let r := s.red
  r.role.toNat * 2 ^ 29 + r.peerSeen.toNat * 2 ^ 26 + bitAt s.sys.partner 25 + bitAt r.actIn 24 + bitAt r.actDrv 23 +
  bitAt r.pathSync 22 + bitAt r.pathHb 21 + bitAt r.degraded 20 + bitAt r.presuming 19 + bitAt r.rdvMis 18 +
  bitAt r.isolated 17 + bitAt r.dualAct 16

/-- The RED block (R397 to R399). -/
def viewRed (s : State) (o : Nat) : W32 :=
  let r := s.red
  match o with
  | 0x00 => lo32 (redStatus s)
  | 0x04 => lo32 (bitAt r.pairNext 31 + bitAt r.warmTake 30 + bitAt r.autoResync 29)
  | 0x08 => lo32 r.epoch.toNat
  | 0x0C => lo32 ((ownRdv s).toNat * 2 ^ 16 + r.peerRdv.toNat)
  | 0x10 => r.hbLossSync
  | 0x14 => r.hbLossHb
  | 0x18 => r.adopt
  | 0x1C => r.digestMis
  | 0x20 => r.peerOvr
  | 0x24 => r.presumed
  | 0x28 => r.crcErr
  | 0x2C => r.lagMax.setWidth 32
  | 0x30 => lo32 (r.resync.phase.toNat * 2 ^ 28 + r.resync.round.toNat * 2 ^ 16) +
            (if r.resync.phase = 0 then 0 else Config.reading 0x90030 s.free &&& 0xFF#32)
  | 0x34 => r.takeovers
  | 0x38 => lo32 r.lastTake.toNat
  | 0x3C => lo32 r.takeHi.toNat
  | _ => 0

/-- Members in the topology. -/
def memberCount (s : State) : Nat := ((List.range 64).filter fun m => s.pas.members.getLsbD m).length

/-- `PAS_STATUS` (R360). -/
def pasStatus (s : State) : Nat :=
  let p := s.pas
  p.ring.toNat * 2 ^ 29 + bitAt p.head 28 + bitAt p.hostless 27 + bitAt p.eUp 26 + bitAt p.wUp 25 + bitAt p.bypass 24 +
  bitAt p.mapErr 23 + bitAt p.budgetErr 22 + bitAt p.dupId 21 + p.headId.toNat * 2 ^ 13 + s.sys.ringId.toNat * 2 ^ 7 +
  memberCount s

/-- `PAS_PUB_A` of a publication (R361). -/
def pubWord (p : Pub) : Nat := bitAt p.valid 31 + bitAt p.susp 30 + bitAt p.word 29 + p.base.toNat
/-- `PAS_SUB_A` of a subscription (R361). -/
def subWord (p : Sub) : Nat := bitAt p.valid 31 + bitAt p.fresh 30 + p.member.toNat * 2 ^ 22 + p.region.toNat * 2 ^ 16

/-- The PAS block (R359 to R361). The window registers show what was last written (a write waits for the next
exchange tick before it takes effect). -/
def viewPas (s : State) (o : Nat) : W32 :=
  let p := s.pas
  let pubNow := Tab.get {} p.pubs p.pubSel.toNat
  let subNow := Tab.get {} p.subs p.subSel.toNat
  let pub := { (Tab.get none p.pubNext p.pubSel.toNat).getD pubNow with susp := pubNow.susp }
  let sub := { (Tab.get none p.subNext p.subSel.toNat).getD subNow with fresh := subNow.fresh }
  let evt := (Tab.get none p.evtNext p.evtSel.toNat).getD (Tab.get {} p.evts p.evtSel.toNat)
  match o with
  | 0x00 => lo32 (pasStatus s)
  | 0x04 => lo32 (bitAt p.ringEn 31 + bitAt p.castSpread 30 + bitAt p.reportEn 29 + p.fwdMin.toNat)
  | 0x08 => lo32 (p.d.toNat * 2 ^ 16 + p.px.toNat)
  | 0x0C => lo32 p.ofs.toNat
  | 0x10 => lo32 p.ofsHi.toNat
  | 0x14 => lo32 p.members.toNat
  | 0x18 => hi32 p.members.toNat
  | 0x1C => lo32 p.fresh.toNat
  | 0x20 => hi32 p.fresh.toNat
  | 0x24 => lo32 (bitAt p.freshEn 31 + p.freshGrain.toNat)
  | 0x28 => lo32 p.pubSel.toNat
  | 0x2C => lo32 (pubWord pub)
  | 0x30 => lo32 pub.count.toNat
  | 0x34 => lo32 p.subSel.toNat
  | 0x38 => lo32 (subWord sub)
  | 0x3C => lo32 sub.base.toNat
  | 0x40 => lo32 p.evtSel.toNat
  | 0x44 => lo32 (bitAt (evt.own && !evt.last) 31 + evt.addr.toNat)
  | 0x48 => p.budget
  | 0x4C => p.crcErr
  | 0x50 => p.late
  | 0x54 => p.wraps
  | 0x58 => p.held
  | _ => 0

/-- `FLD_PL_NODES_UP` (R433). -/
def nodesUp (s : State) : Nat := (s.ports.fld.nodes.filter fun n => n.2.st = .running).length

/-- Whether replication runs on the pair of field port p (R404). -/
def frerOn (s : State) (p : Nat) : Bool :=
  let e := p - p % 2
  enabled s 0x10 e && enabled s 0x10 (e + 1) && (Tab.get {} s.ports.fld.ports e).frer

/-- `FLD_PORT_STATUS[p]` (R434). -/
def portStatus (s : State) (p : Nat) : Nat :=
  let f := Tab.get {} s.ports.fld.ports p
  bitAt f.link 31 + bitAt (frerOn s p) 30 + bitAt f.asSync 29 + bitAt f.gateList 28

/-- The MAC address of field port p: the base address B plus 1 plus p (R400). -/
def portMac (p : Nat) : Nat := (Config.mac.toNat + 1 + p) % 2 ^ 48

/-- The FLD block (R433, R434). -/
def viewFld (s : State) (o : Nat) : W32 :=
  let f := s.ports.fld
  match o with
  | 0x00 => lo32 (bitAt f.mapErr 31)
  | 0x04 => lo32 (bitAt f.healthEn 31 + f.grain.toNat)
  | 0x08 => lo32 (nodesUp s)
  | 0x0C => lo32 f.nodeSel.toNat
  | 0x10 => let n := Tab.get {} f.nodes f.nodeSel.toNat
            lo32 (nodeCode n.st * 2 ^ 29 + bitAt n.safe 28 + n.ver.toNat * 2 ^ 16 + n.miss.toNat * 2 ^ 8 +
                  n.epochDisc.toNat)
  | 0x14 => lo32 f.evtSel.toNat
  | 0x18 => let e := Tab.get (false, 0) f.evts f.evtSel.toNat
            lo32 (bitAt e.1 31 + e.2.toNat)
  | 0x1C => f.miss
  | _ =>
    if 0x1000 ≤ o ∧ o < 0x1200 then
      let p := (o - 0x1000) / 0x40
      let q := Tab.get {} f.ports p
      match o % 0x40 with
      | 0x00 => lo32 (bitAt (enabled s 0x10 p) 31 + bitAt q.frer 30 + bitAt q.gm 29)
      | 0x04 => lo32 (portStatus s p)
      | 0x08 => q.rx
      | 0x0C => q.tx
      | 0x10 => q.drop
      | 0x14 => q.fcs
      | 0x18 => q.e2e
      | 0x1C => q.inDisc
      | 0x20 => q.elim
      | 0x24 => q.lost
      | 0x28 => q.gateWait
      | 0x2C => lo32 q.asOfs.toNat
      | 0x30 => lo32 q.pdelay.toNat
      | 0x34 => lo32 (portMac p)
      | 0x38 => hi32 (portMac p)
      | 0x3C => lo32 q.qbv.toNat
      | _ => 0
    else 0

/-- The feature of serial-class port q (R435). -/
def serFeature (q : Nat) : Nat × Nat :=
  if q < 2 then (0x12, q) else if q < 4 then (0x13, q - 2) else (0x14, q - 4)

/-- `SER_STATUS[q]` (R435). -/
def serStatus (s : State) (q : Nat) : Nat :=
  let x := Tab.get {} s.ports.ser q
  let e := enabled s (serFeature q).1 (serFeature q).2
  bitAt (e && !x.busOff && !x.overCur) 31 + bitAt x.busOff 30 + bitAt x.overCur 29 +
  bitAt (match x.can with | some c => c.listen | none => false) 28 + x.tec.toNat * 2 ^ 8 + x.recCnt.toNat

/-- The SER block (R435). -/
def viewSer (s : State) (o : Nat) : W32 :=
  if 0x1000 ≤ o ∧ o < 0x10C0 then
    let q := (o - 0x1000) / 0x20
    let x := Tab.get {} s.ports.ser q
    match o % 0x20 with
    | 0x00 => lo32 (bitAt (enabled s (serFeature q).1 (serFeature q).2) 31)
    | 0x04 => lo32 (serStatus s q)
    | 0x08 => x.tx
    | 0x0C => x.rx
    | 0x10 => x.err
    | 0x14 => x.timeout
    | 0x18 => x.retry
    | 0x1C => lo32 x.last.toNat
    | _ => 0
  else 0

/-- `CRC_STAT[n]` (R437). -/
def crcStat (c : CrcCh) : Nat := bitAt c.busy 31 + bitAt c.err 30 + c.mismatch.toNat

/-- The CRC block (R436, R437). -/
def viewCrc (s : State) (o : Nat) : W32 :=
  if 0x1000 ≤ o ∧ o < 0x1080 then
    let n := (o - 0x1000) / 0x20
    let c := Tab.get {} s.ports.crc n
    match o % 0x20 with
    | 0x00 => lo32 (bitAt (enabled s 0x26 n) 31 + c.mode.toNat * 2 ^ 29 + bitAt c.refin 28 + bitAt c.refout 27 +
                    bitAt c.le 26 + c.widthM1.toNat * 2 ^ 16 + c.preset.toNat * 2 ^ 8)
    | 0x04 => lo32 c.poly.toNat
    | 0x08 => hi32 c.poly.toNat
    | 0x0C => lo32 c.init.toNat
    | 0x10 => hi32 c.init.toNat
    | 0x14 => lo32 c.xor.toNat
    | 0x18 => hi32 c.xor.toNat
    | 0x1C => lo32 (crcStat c)
    | _ => 0
  else if 0x100 ≤ o ∧ o < 0x120 then
    let c := Tab.get {} s.ports.crc ((o - 0x100) / 8)
    if o % 8 = 0 then lo32 c.res.toNat else hi32 c.res.toNat
  else 0

/-- The FILTER fields of eight DI_CFG bytes, 4 bits each (R449, R467). -/
def diFilters (l : List Byte) : Nat :=
  ((l.take 8).zipIdx.map fun b => b.1.toNat / 16 * 2 ^ (4 * b.2)).sum

/-- `DIO_STATUS` (R468). -/
def dioStatus (s : State) : Nat :=
  let d := s.dio
  bitAt d.up 31 + bitAt d.mgmt 30 + bitAt d.silenceSeen 29 + bitAt d.supplyOk 28 + d.version.toNat * 2 ^ 16 +
  d.cfgGenAck.toNat * 2 ^ 8

/-- The DIO block (R467, R468). A byte of DI_CFG holds FILTER in bits 7 to 4, PULSE_OFF in bit 1 and TYPE in
bit 0 (R449). -/
def viewDio (s : State) (o : Nat) : W32 :=
  let d := s.dio
  let c := d.cfgNext.getD d.cfg
  match o with
  | 0x00 => lo32 (dioStatus s)
  | 0x04 => lo32 (d.rb.toNat * 2 ^ 16 + d.inp.toNat)
  | 0x08 => lo32 (d.reqSent.toNat * 2 ^ 8 + d.outSent.toNat)
  | 0x0C => dioFault s
  | 0x10 => lo32 (bitAt (c.flags.getLsbD 0) 31 + c.inBase.toNat)
  | 0x14 => lo32 (bitAt (c.flags.getLsbD 1) 31 + c.outBase.toNat)
  | 0x18 => lo32 (c.silence.toNat * 2 ^ 8 + c.sample.toNat)
  | 0x1C => lo32 (bitMap 16 (fun i => (c.di.getD i 0).getLsbD 0) +
                  bitMap 16 (fun i => (c.di.getD i 0).getLsbD 1) * 2 ^ 16)
  | 0x20 => lo32 (diFilters c.di)
  | 0x24 => lo32 (diFilters (c.di.drop 8))
  | 0x28 => d.upErr
  | 0x2C => d.downErr
  | 0x30 => d.silenceCount
  | 0x34 => d.rbCount
  | 0x38 => d.shortCount
  | _ => 0

/-- The SAF block (R469 to R471). -/
def viewSaf (s : State) (o : Nat) : W32 :=
  let d := s.dio
  match o with
  | 0x00 => d.safStatus
  | 0x04 => lo32 d.safSwitch.toNat
  | 0x08 => d.safFault
  | 0x0C => d.demandCount
  | 0x10 => d.lastDemand
  | 0x14 => d.darkCount
  | 0x18 => lo32 (runVer s 4).toNat
  | _ => 0

/-- `RTC_STATUS` (R499). -/
def rtcStatus (s : State) : Nat := bitAt s.bkd.osf 31 + bitAt s.bkd.first 30 + bitAt s.bkd.stop 29 + bitAt s.bkd.bor 28

/-- The RTC block (R498, R499). -/
def viewRtc (s : State) (o : Nat) : W32 :=
  let b := s.bkd
  match o with
  | 0x00 => lo32 (b.rtc.toNat / 2 ^ 15)
  | 0x04 => lo32 b.fracLat.toNat
  | 0x08 => lo32 b.rtc.toNat
  | 0x0C => lo32 b.ticksLat.toNat
  | 0x10 => b.setSec
  | 0x14 => lo32 b.setFrac.toNat
  | 0x18 => lo32 b.trim.toNat
  | 0x1C => lo32 (rtcStatus s)
  | 0x20 => lo32 b.wakeN.toNat
  | 0x24 => lo32 ((b.wakeLeft + 127) / 128)
  | 0x28 => lo32 (bitAt b.pwron 31 + bitAt b.sleepRef 28)
  | 0x2C => lo32 b.wakeCause.toNat
  | 0x30 => b.wakeOvr
  | _ => 0

/-- Whether the watchdog window is open (R485). -/
def windowOpen (s : State) : Bool := s.bkd.wdtEn && decide (s.bkd.wopenNow.toNat ≤ s.bkd.c.toNat)

/-- `WDT_STATUS` (R501). -/
def wdtStatus (s : State) : Nat :=
  bitAt (windowOpen s) 31 + bitAt s.bkd.expired 30 + bitAt s.bkd.keyErr 29 + bitAt s.bkd.slotsOff 28 +
  bitAt s.bkd.keyPend 27

/-- Four 8-bit counts of slots 4m to 4m+3 (R500). -/
def slotBytes (t : Tab Byte) (m : Nat) : Nat :=
  ((List.range 4).map fun j => (Tab.get 0 t (4 * m + j)).toNat * 2 ^ (8 * j)).sum

/-- The WDT block (R500, R501). -/
def viewWdt (s : State) (o : Nat) : W32 :=
  let b := s.bkd
  match o with
  | 0x00 => lo32 (bitAt b.wdtEn 31 + bitAt b.wdtLock 30 + bitAt b.rstEn 29 + bitAt b.slotAct 28)
  | 0x04 => lo32 (wdtStatus s)
  | 0x10 => lo32 b.period.toNat
  | 0x14 => lo32 b.wopen.toNat
  | 0x18 => lo32 b.c.toNat
  | 0x1C => b.slotEn
  | 0x20 => b.armed
  | 0x24 => b.seen
  | 0x28 => b.missedMap
  | 0x2C => lo32 b.lastSvc.toNat
  | 0x30 => lo32 b.svcLat.toNat
  | 0x34 => b.expCount
  | 0x38 => b.violCount
  | 0x80 => lo32 (bitAt b.evValid 31 + bitAt b.evLogged 30 + bitAt b.evRst 8 + b.evCause.toNat)
  | 0x84 => lo32 b.evTick.toNat
  | 0x88 => lo32 b.evTickLat.toNat
  | 0x8C => lo32 b.evSvc.toNat
  | 0x90 => lo32 b.evSvcLat.toNat
  | 0x94 => b.evSeen
  | 0x98 => b.evArmed
  | 0x9C => b.evSupPc
  | _ =>
    if 0xA0 ≤ o ∧ o < 0xC4 then Tab.get 0 b.evCorePc ((o - 0xA0) / 4)
    else if 0x100 ≤ o ∧ o < 0x120 then lo32 (slotBytes b.dup ((o - 0x100) / 4))
    else if 0x120 ≤ o ∧ o < 0x140 then lo32 (slotBytes b.missCnt ((o - 0x120) / 4))
    else 0

/-- Writes that hold a place in the depot's queue (R505). -/
def depQueued (s : State) : Nat := s.depot.queue.length

/-- The DEP block (R529, R530). -/
def viewDep (s : State) (o : Nat) : W32 :=
  let d := s.depot
  match o with
  | 0x00 => lo32 (bitAt d.busy 31 + bitAt d.scan 30 + bitAt d.pfail 29 + depQueued s * 2 ^ 20 +
                  (if d.busy then match d.queue with | w :: _ => w.page | [] => 0 else 0))
  | 0x04 => lo32 d.patrol.toNat
  | 0x08 => d.writes
  | 0x0C => d.refreshed
  | 0x10 => d.corrected
  | 0x14 => d.uncorr
  | 0x18 => lo32 (d.bad.length)
  | 0x1C => d.ties
  | 0x20 => d.refused
  | _ => 0

/-- The oldest index in the log (R520, R526): of the flash log, else of the buffer, else the next index. -/
def oldestIndex (s : State) : W32 :=
  match s.log.flash, s.log.buf with
  | a :: _, _ => a.index
  | [], a :: _ => a.index
  | [], [] => s.log.next

/-- The ACC block (R531, R532). -/
def viewAcc (s : State) (o : Nat) : W32 :=
  let l := s.log
  match o with
  | 0x00 => lo32 (bitAt l.frozen 31 + bitAt (l.flash.length ≥ 1048576) 30 + bitAt l.merged 29 +
                  bitAt l.pending.isSome 28 + (if l.frozen then secsLeft s l.freezeEnd else 0) * 2 ^ 16 + l.buf.length)
  | 0x04 => oldestIndex s
  | 0x08 => l.next - 1
  | 0x0C => lo32 l.flash.length
  | 0x10 => l.intake
  | 0x14 => l.flushed
  | 0x18 => l.overwritten
  | _ => if 0x20 ≤ o ∧ o < 0x40 then Tab.get 0 l.lost ((o - 0x20) / 4) else 0

/-- Whether a part is in TRIAL (R557). -/
def inTrial (s : State) : Bool :=
  (List.range 5).any fun k => let p := Tab.get {} s.upd.parts k; p.a.st = .trial || p.b.st = .trial

/-- Whether every part in TRIAL is loaded and runs (R558). -/
def trialRuns (s : State) : Bool := (List.range 5).all fun k => decide ((idleSlot (partOf s k)).st ≠ .trial)

/-- KIND of a definition: 0 cyclic, 1 event, 2 background (R116). -/
def kindOf (d : TaskDef) : Nat := field d.cfg.toNat 30 29
/-- Whether a task is defined. -/
def present (d : TaskDef) : Bool := d.cfg.getLsbD 31

/-- Whether a background task is enabled (R370). -/
def enabledBackground (s : State) : Bool :=
  (List.range 32).any fun n => present (taskDef s n) && kindOf (taskDef s n) = 2 && (task s n).st != .disabled

/-- Whether different replica-determinism versions alone bar a warm standby from the step (R558): the sync link is up, and no enabled
background task bars it (R370, R393). -/
def onlyRdvBars (s : State) : Bool :=
  s.red.rdvMis && s.red.syncUp && !s.red.syncMgmt && !enabledBackground s

/-- The checks of R558; a fatal fault of this start would have reset the module (R51). -/
def checksPass (s : State) : Bool :=
  trialRuns s &&
  decide (s.sys.boot = .ready) && !s.dio.safStatus.getLsbD 31 && s.upd.settingsRead && !s.upd.loadFailed &&
  (!s.upd.recPair || decide (s.red.role = 1 ∨ s.red.role = 3) || (decide (s.red.role = 4) && onlyRdvBars s)) &&
  (!s.upd.recBasin || decide (s.pas.ring = 2 ∨ s.pas.ring = 3))

/-- The UPD block (R568, R569). -/
def viewUpd (s : State) (o : Nat) : W32 :=
  let u := s.upd
  match o with
  | 0x00 => lo32 (bitAt u.openPart.isSome 31 + u.openPart.getD 0 * 2 ^ 28 + bitAt (inTrial s) 27 + bitAt (inTrial s && checksPass s) 26 +
                  (trialCount s).toNat * 2 ^ 16 + (if inTrial s then secsLeft s u.windowEnd else 0))
  | 0x04 => lo32 (bitAt u.mode 31 + u.confirm.toNat)
  | 0x08 => u.fallbacks
  | _ =>
    if 0x100 ≤ o ∧ o < 0x150 then
      let p := Tab.get {} u.parts ((o - 0x100) / 0x10)
      match o % 0x10 with
      | 0x0 => lo32 (bitAt p.runB 31 + slotCode p.a.st * 2 ^ 24 + slotCode p.b.st * 2 ^ 20)
      | 0x4 => lo32 (slotVer ((o - 0x100) / 0x10) p.a).toNat
      | 0x8 => lo32 (slotVer ((o - 0x100) / 0x10) p.b).toNat
      | _ => lo32 (if p.runB then p.a.units.length else p.b.units.length)
    else 0

/-- Proved sessions over host ports (R571). -/
def provedCount (s : State) : Nat := (s.host.sessions.filter fun x => x.proved && x.ep != .usb).length

/-- The SEC block (R570, R571). -/
def viewSec (s : State) (o : Nat) : W32 :=
  let u := s.upd
  let slots := bitMap 16 (slotInUse s)
  match o with
  | 0x00 => lo32 (bitAt u.lockout 31 + provedCount s * 2 ^ 24 +
                  ((List.range 16).filter (slotInUse s)).length * 2 ^ 16 + slots)
  | 0x04 => lo32 (bitAt u.encReq 31)
  | 0x08 => u.authFail
  | 0x0C => u.tagFail
  | 0x10 => u.replay
  | 0x14 => lo32 (if u.lockout then secsLeft s u.lockEnd else 0)
  | _ => 0

/-- What the register at a byte address shows (R598, R599); an address where no register stands reads 0. [Log: DESIGN CHOICE, safe, entry 61; DESIGN CHOICE, unsafe, entry 155.] -/
def peek (s : State) (addr : Nat) : W32 :=
  let o := addr % 2 ^ 16 / 4 * 4
  match addr / 2 ^ 16 with
  | 0x01 => viewSys s o | 0x02 => viewIsl s o | 0x03 => viewRes s o | 0x04 => viewCast s o
  | 0x05 => viewScn s o | 0x06 => viewTsk s o | 0x07 => viewCat s o | 0x08 => viewPrg s o
  | 0x09 => viewRed s o | 0x0A => viewPas s o | 0x0C => viewFld s o | 0x0D => viewSer s o
  | 0x0E => viewCrc s o | 0x0F => viewDio s o | 0x10 => viewSaf s o | 0x11 => viewRtc s o
  | 0x12 => viewWdt s o | 0x13 => viewDep s o | 0x14 => viewAcc s o | 0x15 => viewUpd s o
  | 0x16 => viewSec s o
  | _ => 0

/-- A stored field was written (R623). -/
def touchSettings (s : State) : State := { s with upd.dirty := true }

/-- A stored field that step 7 of start-up loads was written: 0 RST_EN and SLOT_ACT, 1 LOCK, 2 PERIOD, 3 WOPEN, 4 the slots of the
watchdog, 5 STOP_OUT (R113, R489). One written before it is stored as written, and so step 7 keeps it (R623). -/
def touchEarly (k : Nat) (s : State) : State := touchSettings { s with upd.early := s.upd.early ||| BitVec.ofNat 6 (2 ^ k) }

end Sys2Proof.Machine
end

