-- ==== Sys2Proof/Machine/CastOps.lean ====
section
/-! DEFINITION. The cast distributor (R42 to R48, R352, R609 to R611). -/

namespace Sys2Proof.Machine

/-- The registers that a cast copies: offset in the CAST block and value (R611). [Log: DESIGN CHOICE, safe, entry 157.] -/
def castCopies (s : State) : List (Nat × W32) :=
  let p := peek s
  let w := fun (n : Nat) => BitVec.ofNat 32 n
  [(0x800, p 0x10004), (0x804, p 0x10038), (0x808, p 0x140008), (0x80C, p 0x1004C)] ++
  ((List.range 9).map fun i => (0x1000 + 4 * i, p (0x20108 + 0x20 * i))) ++
  [(0x1800, p 0x30000), (0x1804, p 0x30004), (0x2800, p 0x50000)] ++
  ((List.range 9).map fun c => (0x2804 + 4 * c, p (0x51000 + 0x40 * c))) ++
  ((List.range 9).map fun c => (0x2828 + 4 * c, p (0x51008 + 0x40 * c))) ++
  [(0x3000, p 0x60000), (0x3004, lo32 s.tsk.tick.toNat), (0x3008, hi32 s.tsk.tick.toNat),
   (0x300C, w ((Config.reading 0x4300C s.free).toNat % 5000)), (0x3010, p 0x60010), (0x3014, p 0x60014)] ++
  ((List.range 32).flatMap fun n => [(0x3100 + 8 * n, lo32 (task s n).lt.toNat), (0x3104 + 8 * n, hi32 (task s n).lt.toNat)]) ++
  ((List.range 32).map fun n => (0x3200 + 4 * n, lo32 (tskState (task s n)))) ++
  [(0x3800, p 0x70014), (0x3804, p 0x70018), (0x4000, p 0x80000), (0x4004, p 0x80004),
   (0x4800, p 0x90000), (0x4804, p 0x90008), (0x4808, lo32 s.red.lastRecord.toNat), (0x480C, hi32 s.red.lastRecord.toNat),
   (0x5000, p 0xA0000), (0x5004, p 0xA0014), (0x5008, p 0xA0018), (0x500C, p 0xA001C), (0x5010, p 0xA0020),
   (0x6000, p 0xC0008)] ++
  ((List.range 8).map fun q => (0x6004 + 4 * q, p (0xC1004 + 0x40 * q))) ++
  ((List.range 8).map fun q => (0x6800 + 4 * q, p (0xD1004 + 0x20 * q))) ++
  ((List.range 4).map fun n => (0x7000 + 4 * n, p (0xE101C + 0x20 * n))) ++
  [(0x7800, w (s.iod.rb.toNat * 2 ^ 16 + s.iod.filt.toNat)), (0x7804, w (s.iod.reqs.toNat * 2 ^ 8 + s.iod.out.toNat)),
   (0x7808, w (bitAt s.iod.vdoLow 31 + s.iod.mismatch.toNat * 2 ^ 16 + s.iod.thermal.toNat * 2 ^ 8 + s.iod.short.toNat)),
   (0x8000, safImage s), (0x8800, lo32 s.bkd.rtc.toNat), (0x8804, hi32 s.bkd.rtc.toNat),
   (0x9000, p 0x120018), (0x9004, p 0x120024), (0x9008, p 0x120020)]

/-- Whether a trigger of source bit `src` reaches the distributor on the SUP edge of the held cast's own trigger (R46): a free
truth value within the tick of that trigger, never after it, and never for a source that has its bit in SOURCE already.
[Log: DESIGN CHOICE, safe, entry 123.] -/
def sameSupEdge (src : Nat) (s : State) : Bool :=
  decide (s.cast.trigAt = s.tsk.tick) && !s.cast.source.getLsbD src && Config.freeBool s.free

/-- The cast trigger with source bit `src` (R42, R43, R46): triggers of one SUP edge make one cast, a later trigger while a
cast is held counts a miss, else every cast copy is latched. -/
def raiseCast (src : Nat) (s : State) : State :=
  if s.cast.held then
    if sameSupEdge src s then { s with cast.source := s.cast.source ||| BitVec.ofNat 6 (2 ^ src), free := s.free + 1 }
    else { s with cast.missed := satInc s.cast.missed, cast.missedTotal := satInc s.cast.missedTotal, free := s.free + 1 }
  else
    let t := (castCopies s).foldl (fun t e => Tab.set 0 t e.1 e.2) s.cast.copies
    { s with cast.held := true, cast.trigAt := s.tsk.tick, cast.source := s.cast.source ||| BitVec.ofNat 6 (2 ^ src),
             cast.count := satInc s.cast.count, cast.copies := t, free := s.free + 1 }

/-- CAST_ARM (R46): clear HELD, SOURCE and MISSED. -/
def castArmOp (s : State) : State :=
  { s with cast.held := false, cast.source := 0, cast.missed := 0 }

/-- A CAST frame whose trigger time is the basin tick at sending plus 20 (R352), with its nanoseconds into the tick, which the
model leaves free, and its source bit. [Log: DESIGN CHOICE, unsafe, entry 191.] -/
def sendCastFrame (src : Nat) (s : State) : State :=
  let (ns, s) := drawWord s
  sendRing 0x30 0xFF true false false ((basinTick s + 20) % 2 ^ 48) (castBytes (ns.toNat % 10000) src) s

/-- The cast of a watchdog expiry or a fatal fault, spread over the basin when CAST_SPREAD is set (R352). -/
def raiseCastSpread (src : Nat) (s : State) : State :=
  let s := raiseCast src s
  if s.pas.castSpread && inBasin s then sendCastFrame src s else s

end Sys2Proof.Machine
end

