-- ==== Sys2Proof/Machine/Bkd.lean ====
section
/-! DEFINITION. The backup domain: real-time clock, periodic wake, sleep, watchdog (chapter 12). -/

namespace Sys2Proof.Machine

/-- Whether start-up has come to step 6 (R54), from which on the module uses its pass ports and its sync link (R61). -/
def fromStep6 (s : State) : Bool :=
  s.sys.boot = .step6 || s.sys.boot = .roleWait || s.sys.boot = .forming || s.sys.boot = .step7 || s.sys.boot = .ready

/-- Whether the supervisor runs and interprets commands: past start-up step 2 and not asleep (R54, R60, R483). [Log: DEDUCED, unsafe, entry 165.] -/
def supRuns (s : State) : Bool :=
  !s.sys.asleep && (s.sys.boot = .step3 || s.sys.boot = .step4 || s.sys.boot = .step5 || fromStep6 s)

/-! ## Time and wake -/

/-- The counter advances by `n` at one edge; the wake interval counts the same steps (R474, R481). -/
def rtcStep (n : Nat) (b : Bkd) : Bkd :=
  { b with rtc := b.rtc + BitVec.ofNat 47 n, wakeLeft := b.wakeLeft - n }

/-- The watchdog counter at one edge (R485): it advances while it is enabled and VIN is present, and stays at PERIOD until the expiry
of R486. -/
def wdtEdge (b : Bkd) : Bkd :=
  if b.wdtEn && !b.cStop && b.vin && decide (b.c.toNat < b.periodNow.toNat) then { b with c := b.c + 1 } else b

/-- One edge of the crystal clock (R474, R477, R485): the counter advances unless the trim holds it, the trim accumulator counts the
period, and the watchdog counter advances. -/
def bkdEdge (b : Bkd) : Bkd :=
  if !b.running then b
  else wdtEdge { (if b.hold = 0 then rtcStep 1 b else { b with hold := b.hold - 1 }) with trimAcc := b.trimAcc + 1 }

/-- One edge of the backup domain's clock: what `step` does when no command waits. -/
def bkdClock (s : State) : State := { s with bkd := bkdEdge s.bkd }

/-- Full wake interval of 128 × N counter steps (R481). -/
def wakeFull (n : BitVec 24) : Nat := 128 * n.toNat

/-- COMMIT (R476): load the counter from staging, restart the trim and the wake interval, clear OSF and its causes. -/
def rtcCommitOp (s : State) : State :=
  { s with bkd.rtc := BitVec.ofNat 47 (s.bkd.setSec.toNat * 32768 + s.bkd.setFrac.toNat),
           bkd.hold := 0, bkd.trimAcc := 0, bkd.wakeLeft := wakeFull s.bkd.wakeN,
           bkd.osf := false, bkd.first := false, bkd.stop := false, bkd.bor := false }

/-- A wake source ends sleep and sets its bit in the wake cause (R484); without sleep it does nothing. -/
def wakeDie (source : Nat) (s : State) : State :=
  if s.sys.asleep then
    { s with sys.asleep := false, bkd.wakeCause := s.bkd.wakeCause ||| BitVec.ofNat 4 (2 ^ source) }
  else s

/-- A firing of the periodic wake (R481, R482). -/
def wakeFire (s : State) : State :=
  if s.bkd.wakeN = 0 then s
  else
    let s := wakeDie 0 { s with bkd.wakeLeft := wakeFull s.bkd.wakeN }
    { s with bkd.wakeCause := s.bkd.wakeCause ||| 1#4, bkd.pwron := true,
             bkd.wakeOvr := if s.bkd.pwron then satInc s.bkd.wakeOvr else s.bkd.wakeOvr }

/-- The trim takes effect at the end of 2^20 crystal periods (R477): one edge advances by 1 + TRIM counts, or −TRIM
edges hold, of which this edge is the first. The accumulator of periods starts again (R476). -/
def trimStep (b : Bkd) : Bkd :=
  if !b.running then b
  else if b.trim.toInt < 0 then wdtEdge { b with hold := (-b.trim.toInt).toNat - 1, trimAcc := 0 }
  else wdtEdge (rtcStep (1 + b.trim.toNat) { b with hold := 0, trimAcc := 0 })

/-- A write of 1 to `RTC_PWR.SLEEP` (R483). -/
def sleepOp (s : State) : State :=
  if s.tsk.mode = .stop ∧ s.red.role = 0 then { s with sys.asleep := true }
  else { s with bkd.sleepRef := true }

/-! ## Watchdog -/

/-- The map of slots armed when a window opens (R491). -/
def armedMap (s : State) : W32 :=
  if s.tsk.mode = .run then
    BitVec.ofNat 32 (bitMap 32 fun n => s.bkd.slotEn.getLsbD n && (task s n).st != .absent && (task s n).st != .disabled)
  else 0

/-- A new window begins: C restarts at 0, the configured PERIOD and WOPEN come into force with WOPEN limited to
PERIOD (R485), the seen map clears and the slots are armed (R491, R492). -/
def openWindow (s : State) : State :=
  let w := if s.bkd.wopen.toNat > s.bkd.period.toNat then s.bkd.period else s.bkd.wopen
  { s with bkd.c := 0, bkd.cStop := false, bkd.periodNow := s.bkd.period, bkd.wopen := w, bkd.wopenNow := w,
           bkd.seen := 0, bkd.armed := armedMap s }

/-- The evidence of an expiry (R493). -/
def evidence (cause : BitVec 4) (armed seen : W32) (s : State) : State :=
  { s with bkd.evValid := true, bkd.evLogged := false, bkd.evRst := false, bkd.evCause := cause,
           bkd.evTick := s.bkd.rtc, bkd.evSvc := s.bkd.lastSvc, bkd.evArmed := armed, bkd.evSeen := seen,
           bkd.evSupPc := Config.reading 0x12009C s.free, free := s.free + 1,
           bkd.evCorePc := (List.range 9).foldl (fun t c => Tab.set 0 t c
             (BitVec.ofNat 32 (bitAt (!(core s c).retired) 31 + (corePc s c).toNat))) [] }

/-- SUP writes the records of the RAM buffer, the closed and the pending LOST record as a power-fail image (R525); in the boot ROM it
does not run (R56). -/
def writeImage (s : State) : State :=
  if s.sys.boot = .rom then s else { s with log.image := some { recs := s.log.buf, closed := s.log.closed, pending := s.log.pending } }

/-- What the supervisor does at an expiry (R488, R525): it writes the WDT_EXPIRY accession for new evidence, and the
power-fail image when a watchdog reset is to follow. `alive` is false while it sleeps or hangs. [Log: DESIGN CHOICE, unsafe, entry 158.] -/
def supAtExpiry (alive new reset : Bool) (s : State) : State :=
  if alive then
    let s := if new then { accession 0 0x0501 7 [] s with bkd.evLogged := true } else s
    if reset then writeImage s else s
  else s

/-- An expiry (R488) with its cause and the armed and seen maps of its window. [Log: DEDUCED, unsafe, entry 159.] -/
def expire (cause : BitVec 4) (armed seen : W32) (alive : Bool) (s : State) : State :=
  let new := !s.bkd.evValid
  let s := { s with red.actDrv := false, red.actIn := s.red.actIn || (s.red.actDrv && s.red.peerRole ≠ 1) }
  let s := if new then evidence cause armed seen s else s
  let s := { s with bkd.expCount := satInc s.bkd.expCount }
  let s := raiseCastSpread 2 s
  let s := { s with bkd.expired := true }
  if s.bkd.rstEn then
    supAtExpiry alive new true { s with bkd.cStop := true, bkd.rstDue := true }
  else
    supAtExpiry alive new false { openWindow s with bkd.periodNow := s.bkd.periodNow, bkd.wopen := s.bkd.wopen,
                                                    bkd.wopenNow := s.bkd.wopenNow }

/-- The armed slots without a check-in at a valid service (R492); none while WATCHDOG holds no claim (R490). -/
def missedSlots (s : State) : List Nat :=
  if enabled s 0x02 0 then (List.range 32).filter fun n => s.bkd.armed.getLsbD n && !s.bkd.seen.getLsbD n else []

/-- Count the misses of a valid service (R492). -/
def countMisses (ms : List Nat) (s : State) : State :=
  ms.foldl (fun s n =>
    accession 0 0x0502 5 [BitVec.ofNat 8 n]
      { s with bkd.missedMap := s.bkd.missedMap ||| BitVec.ofNat 32 (2 ^ n),
               bkd.missCnt := Tab.upd 0 s.bkd.missCnt n satInc }) s

/-- A service (R486, R492). [Log: DESIGN CHOICE, unsafe, entry 58.] -/
def serviceOp (s : State) : State :=
  if !s.bkd.wdtEn || s.bkd.cStop then s
  else if s.bkd.c.toNat < s.bkd.wopenNow.toNat then
    expire 2 s.bkd.armed s.bkd.seen true { s with bkd.violCount := satInc s.bkd.violCount }
  else
    let armed := s.bkd.armed
    let seen := s.bkd.seen
    let ms := missedSlots s
    let s := openWindow (countMisses ms { s with bkd.lastSvc := s.bkd.rtc })
    if s.bkd.slotAct && !ms.isEmpty then expire 3 armed seen true s else s

/-- C reaches PERIOD (R486). Whether the supervisor hangs is open when it let the watchdog time out. [Log: DESIGN CHOICE, safe, entry 57.] -/
def timeoutOp (s : State) : State :=
  if !s.bkd.wdtEn || s.bkd.cStop || !s.bkd.vin then s
  else
    let (hung, s) := drawBool s
    expire 1 s.bkd.armed s.bkd.seen (supRuns s && !hung) { s with bkd.c := s.bkd.periodNow }

/-- C reaches WOPEN (R485): a sleeping control die is woken (R487). -/
def windowOpenOp (s : State) : State :=
  if !s.bkd.wdtEn || s.bkd.cStop || !s.bkd.vin then s
  else wakeDie 1 { s with bkd.c := if s.bkd.c.toNat < s.bkd.wopenNow.toNat then s.bkd.wopenNow else s.bkd.c }

/-- A write of 1 to `WDT_CTRL.EN` (R485). -/
def wdtEnableOp (s : State) : State :=
  if s.bkd.wdtEn then s else openWindow { s with bkd.wdtEn := true }

/-- A write to `WDT_KEY` (R494, R495). -/
def keyWriteOp (key : BitVec 16) (s : State) : State :=
  if key = 0x6A17#16 ∧ !s.bkd.keyPend then { s with bkd.keyPend := true }
  else if key = 0x95E8#16 ∧ s.bkd.keyPend ∧ !s.bkd.wdtLock then { s with bkd.keyPend := false, bkd.wdtEn := false }
  else { s with bkd.keyPend := false, bkd.keyErr := true }

/-- The nearest value in a range. -/
def clamp (lo hi v : Nat) : Nat := if v < lo then lo else if hi < v then hi else v

/-- A write to `WDT_PERIOD` (R485, R495). [Log: DEDUCED, unsafe, entry 160.] -/
def setPeriod (v : Nat) (s : State) : State :=
  if s.bkd.wdtLock then s else { s with bkd.period := BitVec.ofNat 22 (clamp 33 2097152 (v % 2 ^ 22)) }

/-- A write to `WDT_WOPEN` (R485, R495). -/
def setWopen (v : Nat) (s : State) : State :=
  if s.bkd.wdtLock then s else { s with bkd.wopen := BitVec.ofNat 22 (clamp 1 s.bkd.period.toNat (v % 2 ^ 22)) }

/-- The check-ins of one tick edge complete into BKD (R490, R492). -/
def checkIns (tasks : List Nat) (s : State) : State :=
  if !enabled s 0x02 0 then { s with bkd.slotsOff := true }
  else
    tasks.foldl (fun s n =>
      if s.bkd.seen.getLsbD n then { s with bkd.dup := Tab.upd 0 s.bkd.dup n satInc }
      else { s with bkd.seen := s.bkd.seen ||| BitVec.ofNat 32 (2 ^ n) }) { s with bkd.slotsOff := false }

/-- The watchdog registers that every reset of R51 restores (R489, R501). -/
def wdtResetValues (b : Bkd) : Bkd :=
  { b with wdtEn := true, wdtLock := false, rstEn := true, slotAct := false, expired := false, keyErr := false,
           slotsOff := false, keyPend := false, period := 0x200000, wopen := 1, periodNow := 0x200000, wopenNow := 1,
           c := 0, cStop := false, rstDue := false, slotEn := 0, armed := 0, seen := 0 }

/-! ## The rows -/

/-- BKD_SUPPLY_CHANGEOVER (R472). -/
def execBkdSupplyChangeover (vin : Bool) (s : State) : Host.Outcome State Fault Refusal :=
  .next { s with bkd.vin := vin }

/-- BKD_RESET (R472, R473, R480). -/
def execBkdReset (s : State) : Host.Outcome State Fault Refusal :=
  .next { s with bkd := { vin := s.bkd.vin } }

/-- VBAT_BROWNOUT (R480). -/
def execVbatBrownout (s : State) : Host.Outcome State Fault Refusal :=
  .next (if s.bkd.vin then s else { s with bkd.osf := true, bkd.bor := true })

/-- CRYSTAL_STOP (R480): the counters of its island hold (R608). -/
def execCrystalStop (s : State) : Host.Outcome State Fault Refusal :=
  .next { (if s.bkd.running then holdClock 8 s else s) with bkd.running := false, bkd.osf := true, bkd.stop := true }

/-- CRYSTAL_RESTART (R480). -/
def execCrystalRestart (s : State) : Host.Outcome State Fault Refusal :=
  .next { s with bkd.running := true }

/-- RTC_COMMIT (R476). -/
def execRtcCommit (s : State) : Host.Outcome State Fault Refusal := .next (rtcCommitOp s)

/-- A command that writes 1 to `RTC_PWR.SLEEP` (R483): SUP sends its reply first, and sleep follows. -/
def askSleep (s : State) : State :=
  if s.tsk.mode = .stop ∧ s.red.role = 0 then { s with host.sleepDue := true } else { s with bkd.sleepRef := true }

/-- SLEEP (R483). -/
def execSleep (s : State) : Host.Outcome State Fault Refusal := .next (sleepOp s)

/-- WAKE_FROM_SLEEP (R484). -/
def execWakeFromSleep (source : BitVec 2) (s : State) : Host.Outcome State Fault Refusal :=
  .next (wakeDie source.toNat s)

/-- WAKE_FIRING (R481, R482). -/
def execWakeFiring (s : State) : Host.Outcome State Fault Refusal := .next (wakeFire s)

/-- RTC_TRIM_STEP (R477). -/
def execRtcTrimStep (s : State) : Host.Outcome State Fault Refusal := .next { s with bkd := trimStep s.bkd }

/-- WDT_ENABLE (R485). -/
def execWdtEnable (s : State) : Host.Outcome State Fault Refusal := .next (wdtEnableOp s)

/-- WDT_LOCK (R495), which is stored with the settings (R623). -/
def execWdtLock (s : State) : Host.Outcome State Fault Refusal := .next (touchEarly 1 { s with bkd.wdtLock := true })

/-- WDT_SERVICE (R486). -/
def execWdtService (s : State) : Host.Outcome State Fault Refusal := .next (serviceOp s)

/-- WDT_TIMEOUT (R486). -/
def execWdtTimeout (s : State) : Host.Outcome State Fault Refusal := .next (timeoutOp s)

/-- WDT_WINDOW_OPEN (R487). -/
def execWdtWindowOpen (s : State) : Host.Outcome State Fault Refusal := .next (windowOpenOp s)

/-- WDT_KEY_WRITE (R494). -/
def execWdtKeyWrite (key : BitVec 16) (s : State) : Host.Outcome State Fault Refusal := .next (keyWriteOp key s)

/-- WDT_KEY_LAPSE (R494): the 67th edge after a first key. -/
def execWdtKeyLapse (s : State) : Host.Outcome State Fault Refusal :=
  .next (if s.bkd.keyPend then { s with bkd.keyPend := false, bkd.keyErr := true } else s)

end Sys2Proof.Machine
end

