-- ==== Sys2Proof/Machine/DepotOps.lean ====
section
/-! DEFINITION. The depot's pages, twin records and write queue (R502 to R515, R622). -/

namespace Sys2Proof.Machine

/-- The numbers that stand for a twin record's value in `Config.twinData`. -/
def twinNums : TwinVal → List Nat
  | .boot a b c d e f => [0, a.toNat, b.toNat, c.toNat, d.toNat, b01 e, b01 f]
  | .trial n => [1, n.toNat]
  | .program b c => [2, b01 b, b01 c]
  | .epoch e => [3, e.toNat]
  | .settings g f => [4, b01 g, f.toNat]
  | .logPos n => [5, n.toNat]
  | .download p n b st c => [6, p.toNat, n.toNat, b01 b, st.toNat, b01 c]

/-- The data bytes of a twin record; the claim epoch and the log position are numbers, the layout of the others is
not given. -/
def twinBytes (k : Nat) (c : TwinCopy) : List Byte :=
  match c.val with
  | none => List.replicate 256 0
  | some v =>
    let d := (Config.twinData k (twinNums v)).take 244
    let b := beBytes 4 c.seq.toNat ++ beBytes 2 d.length ++ beBytes 2 (Config.twinKind k).toNat ++ padTo 244 d
    b ++ beBytes 4 (crc32c b)

/-- The bytes of a page that the firmware writes: zeros until it has written it (R622); settings generation 0 is
written at the factory. -/
def firmwareBytes (s : State) (p : Nat) : List Byte :=
  let v := Tab.get 0 s.depot.fw p
  if v = 0 ∧ ¬ (64 ≤ p ∧ p < 160) then List.replicate 256 0
  else (List.range 256).map fun i => Config.firmwarePage (p + 1024 * v) i

/-- Whether a page holds a copy of a twin record: those of R503, and that of the download state (R554). -/
def twinPage (p : Nat) : Bool := decide (p < 12) || decide (p = 16) || decide (p = 17)

/-- The bytes of a page as stored, uncorrectable groups as they stand. -/
def storedBytes (s : State) (p : Nat) : List Byte :=
  if Tab.get [] s.depot.torn p ≠ [] then Tab.get [] s.depot.torn p
  else if twinPage p then
    let t := Tab.get {} s.depot.twins (p / 2)
    twinBytes (p / 2) (if p % 2 = 0 then t.a else t.b)
  else if 64 ≤ p ∧ p < 256 then firmwareBytes s p
  else Tab.range 0 s.depot.bytes (256 * p) 256

/-- A queued write's page bytes. -/
def writeBytes (w : DepWrite) : List Byte :=
  match w.twin with
  | some (k, c) => twinBytes k c
  | none => padTo 256 w.data

/-- A page as a read returns it, and its uncorrectable-group map: the data of the latest queued write, else the
stored page with zeros in uncorrectable groups (R506). -/
def pageRead (s : State) (p : Nat) : List Byte × W32 :=
  match s.depot.queue.reverse.find? (·.page = p) with
  | some w => (writeBytes w, 0)
  | none =>
    let m := Tab.get 0 s.depot.bad p
    ((storedBytes s p).zipIdx.map fun e => if m.getLsbD (e.2 / 8) then 0 else e.1, m)

/-- The number of uncorrectable groups of a map. -/
def badGroups (m : W32) : Nat := ((List.range 32).filter fun i => m.getLsbD i).length

/-- The groups of a page whose single-bit error a read of the stored page corrects (R506). -/
def softGroups (s : State) (p : Nat) : W32 :=
  if s.depot.queue.any fun w => w.page = p then 0 else Tab.get 0 s.depot.soft p &&& ~~~(Tab.get 0 s.depot.bad p)

/-- What a read of a page counts and logs of its uncorrectable groups (R506): DEP_UNCORR, and DEPOT_UNCORR once per page and power-on. -/
def noteBad (p : Nat) (s : State) : State :=
  let n := badGroups (pageRead s p).2
  if n = 0 then s
  else
    let s := { s with depot.uncorr := satAdd s.depot.uncorr n }
    if s.depot.logged.contains p then s
    else accession 0 0x0603 4 [] { s with depot.logged := p :: s.depot.logged }

/-- Whether a page below 256 has contents of its own kind, a twin record's or the firmware's; the others are bytes by address. -/
def wholePage (p : Nat) : Bool := twinPage p || (decide (64 ≤ p) && decide (p < 256))

/-- The contents of a page written more than 10^6 times are free values (R614). [Log: DESIGN CHOICE, safe, entry 171.] -/
def wornPage (p : Nat) (s : State) : State :=
  let b := padTo 256 (Config.freeBytes s.free)
  if Tab.get 0 s.depot.wear p ≤ 1000000 ∨ b = storedBytes s p then s
  else
    let s := { s with free := s.free + 1 }
    if wholePage p then { s with depot.torn := Tab.set [] s.depot.torn p b }
    else { s with depot.bytes := Tab.setRange 0 s.depot.bytes (256 * p) b }

/-- What a read of a page counts and logs (R506). A worn page need not keep what was read (R614). -/
def noteRead (p : Nat) (s : State) : State :=
  wornPage p (noteBad p { s with depot.corrected := satAdd s.depot.corrected (badGroups (softGroups s p)) })

/-- Places of the queue held by writes that are not of the six twin records of R503 (R505). -/
def placesHeld (s : State) : Nat := (s.depot.queue.filter fun w => w.twin.isNone).length

/-- Whether a write to page p replaces one that is queued and not started (R505). -/
def replaces (s : State) (p : Nat) : Bool :=
  (if s.depot.busy then s.depot.queue.drop 1 else s.depot.queue).any fun w => w.page = p && w.twin.isNone

/-- Whether a write to page p can enter the queue now; writes that wait come first (R507). -/
def depotRoom (s : State) (p : Nat) (src : DepSrc) : Bool :=
  replaces s p ||
  (decide (placesHeld s < 8) && (s.depot.waiters.isEmpty || decide (s.depot.waiters.head? = some src)))

/-- Replace the data of a waiting write of a page. -/
def replaceWrite (p : Nat) (data : List Byte) (src : DepSrc) : List DepWrite → List DepWrite
  | [] => []
  | w :: t => if w.page = p ∧ w.twin.isNone then { w with data := data, srcs := w.srcs ++ [src] } :: t
              else w :: replaceWrite p data src t

/-- Enter a page write in the queue (R505); the controller starts it when it is free. -/
def depotEnter (p : Nat) (data : List Byte) (src : DepSrc) (s : State) : State :=
  let q := s.depot.queue
  let q := if replaces s p then
             (if s.depot.busy then q.take 1 ++ replaceWrite p data src (q.drop 1) else replaceWrite p data src q)
           else q ++ [{ page := p, data := data, srcs := [src] }]
  { s with depot.queue := q, depot.busy := true,
           depot.waiters := s.depot.waiters.filter (· ≠ src) }

/-- Whether a twin record ties with different contents (R514). -/
def twinTie (s : State) (k : Nat) : Bool :=
  let t := Tab.get {} s.depot.twins k
  (copyValue s (2 * k) t.a).isSome && (copyValue s (2 * k + 1) t.b).isSome && t.a.seq = t.b.seq && t.a.val ≠ t.b.val

/-- Put a twin write behind the write in progress and the twin writes that wait (R505). -/
def insertTwin (w : DepWrite) : List DepWrite → List DepWrite
  | [] => [w]
  | x :: t => if x.twin.isSome then x :: insertTwin w t else w :: x :: t

/-- Write a twin record (R515). While a write of it holds its place, the firmware waits with the next (R505). -/
def twinWrite (k : Nat) (v : TwinVal) (s : State) : State :=
  if s.depot.pfail then s
  else if s.depot.queue.any fun w => (w.twin.map (·.1)) = some k then
    { s with depot.twinNext := Tab.set none s.depot.twinNext k (some v) }
  else
    let (pg, sq) : Nat × W32 := match twinTaken s k with
      | none => (2 * k, 1)
      | some (_, b, q) => (if b then 2 * k else 2 * k + 1, q + 1)
    let w : DepWrite := { page := pg, data := [], twin := some (k, { seq := sq, val := some v }), srcs := [.twin k] }
    let q := s.depot.queue
    let q := if s.depot.busy then q.take 1 ++ insertTwin w (q.drop 1) else insertTwin w q
    { s with depot.queue := q, depot.busy := true }

/-- The next contents of a firmware page; they are not given (R503). -/
def nextFirmware (s : State) (p : Nat) : List Byte :=
  (List.range 256).map fun i => Config.firmwarePage (p + 1024 * (Tab.get 0 s.depot.fw p + 1)) i

/-- A page write takes a place when one is free, and otherwise waits (R507); from the power-fail warning on it is lost (R510). -/
def queueOrWait (p : Nat) (data : List Byte) (src : DepSrc) (s : State) : State :=
  if s.depot.pfail then s
  else if depotRoom s p src then depotEnter p data src s
  else { s with depot.waiters := s.depot.waiters ++ [src] }

/-- A page write of the firmware (R505, R507): it takes a place when one is free, and otherwise waits. -/
def firmwareWrite (p : Nat) (data : List Byte) (s : State) : State :=
  queueOrWait p data (.firmware p data) s

/-- The copy of the download record that a write carries (R554). -/
def recordOf (w : DepWrite) : Option TwinCopy :=
  w.srcs.reverse.findSome? fun x => match x with | .record _ c => some c | _ => none

/-- The page and the data of a write that the firmware queues without a place of its own (R505). -/
def firmwarePageOf : DepSrc → Option (Nat × List Byte)
  | .firmware p d => some (p, d)
  | .record p c => some (p, twinBytes 8 c)
  | _ => none

/-- Whether a write of page p by the firmware is queued or waits for a place. -/
def firmwareWaits (s : State) (p : Nat) : Bool :=
  (s.depot.queue.any fun w => w.page = p && w.twin.isNone) ||
  s.depot.waiters.any fun w => decide ((firmwarePageOf w).map (·.1) = some p)

/-- Whether a twin record has been written as the firmware last wanted it. -/
def twinEnded (k : Nat) (s : State) : Bool :=
  !(s.depot.queue.any fun w => (w.twin.map (·.1)) = some k) && (Tab.get none s.depot.twinNext k).isNone

/-- The contents of a finished page write in the store (R505). In a resynchronisation the active partner copies a program page that
changes (R393). -/
def storeContents (w : DepWrite) (s : State) : State :=
  let d := s.depot
  match w.twin.or ((recordOf w).map fun c => (8, c)) with
  | some (k, c) => { s with depot.twins := Tab.upd {} d.twins k (fun t => if w.page % 2 = 0 then { t with a := c } else { t with b := c }) }
  | none =>
    if 64 ≤ w.page ∧ w.page < 256 then { s with depot.fw := Tab.upd 0 d.fw w.page (· + 1) }
    else
      let s := { s with depot.bytes := Tab.setRange 0 d.bytes (256 * w.page) (padTo 256 w.data) }
      if s.red.role = 1 ∧ 3 ≤ s.red.resync.phase.toNat ∧ 512 ≤ w.page then
        sendState (.depot (BitVec.ofNat 10 w.page) (padTo 256 w.data)) s
      else s

/-- A page holds given bytes after a write that did not do what it should (R511, R614). -/
def putBytes (w : DepWrite) (bytes : List Byte) (s : State) : State :=
  if bytes = storedBytes s w.page then s
  else if bytes = writeBytes w then storeContents w { s with depot.torn := Tab.set [] s.depot.torn w.page [] }
  else if wholePage w.page then { s with depot.torn := Tab.set [] s.depot.torn w.page bytes }
  else { s with depot.bytes := Tab.setRange 0 s.depot.bytes (256 * w.page) bytes }

/-- A page write ends (R505): the page reads wholly new, and none of its groups has an error; a refresh has written back what the
page held (R509). Beyond 10^6 writes the contents of the page are free values (R614). -/
def storePage (w : DepWrite) (s : State) : State :=
  let d := s.depot
  let n := Tab.get 0 d.wear w.page + 1
  let again := decide (w.srcs = [.refresh])
  let s := { s with depot.bad := Tab.set 0 d.bad w.page 0, depot.soft := Tab.set 0 d.soft w.page 0, depot.wear := Tab.set 0 d.wear w.page n,
                    depot.due := d.due.filter (· ≠ w.page), depot.writes := satInc d.writes,
                    depot.refreshed := if again then satInc d.refreshed else d.refreshed }
  if 1000000 < n then wornPage w.page s
  else if again then s
  else storeContents w { s with depot.torn := Tab.set [] s.depot.torn w.page [] }

/-- A refresh is queued when the queue is empty (R508, R509): the page's own data are written back. A page with an uncorrectable group
is not refreshed. -/
def startRefresh (s : State) : State :=
  match s.depot.due.filter fun p => Tab.get 0 s.depot.bad p = 0 with
  | [] => s
  | p :: l =>
    if s.depot.queue ≠ [] ∨ s.depot.pfail then s
    else { s with depot.due := l, depot.queue := [{ page := p, data := storedBytes s p, srcs := [.refresh] }], depot.busy := true }

/-- The recall scan of a page pair's twin record (R508, R514): ties and losses are logged. -/
def scanTwin (s : State) (k : Nat) : State :=
  if twinTie s k then accession 0 0x0601 4 (beBytes 2 (2 * k)) { s with depot.ties := satInc s.depot.ties }
  else if (twinTaken s k).isNone then accession 0 0x0602 5 [] s
  else s

/-- The recall scan meets the single-bit errors of a page (R508): corrected, counted, and the page due for a refresh. -/
def scanSoft (s : State) (p : Nat) : State :=
  let n := badGroups (softGroups s p)
  if n = 0 then s
  else { s with depot.corrected := satAdd s.depot.corrected n, depot.due := s.depot.due.filter (· ≠ p) ++ [p] }

/-- The recall scan (R508): every page is read and every twin record evaluated, and then the refreshes begin. `soft` names groups with
single-bit errors that have arisen since. It runs within the row of its reset. [Log: DESIGN CHOICE, unsafe, entry 112.] -/
def recallScan (soft : List (BitVec 10 × W32)) (s : State) : State :=
  let s := { s with depot.scan := true,
                    depot.soft := soft.foldl (fun t (e : BitVec 10 × W32) => Tab.set 0 t e.1.toNat (Tab.get 0 t e.1.toNat ||| e.2)) s.depot.soft }
  let s := s.depot.soft.foldl (fun s e => scanSoft s e.1) s
  let s := s.depot.bad.foldl (fun s e => noteBad e.1 s) s
  let s := s.depot.wear.foldl (fun s e => wornPage e.1 s) s
  startRefresh { (List.range 6).foldl scanTwin s with depot.scan := false }

/-- POWER FAIL in the depot (R510): writes that have not started are discarded. -/
def depotPfail (s : State) : State :=
  { s with upd.storing := none, upd.saveDue := none, depot.queue := if s.depot.busy then s.depot.queue.take 1 else [], depot.pfail := true,
           depot.due := [], depot.twinNext := [], depot.waiters := [] }

/-- A reset while VIN stays good (R621): the write in progress ends, the others are discarded. -/
def depotReset (s : State) : State :=
  let s := match s.depot.busy, s.depot.queue with
    | true, w :: _ => storePage w s
    | _, _ => s
  { s with depot.queue := [], depot.busy := false, depot.pfail := false, depot.twinNext := [], depot.waiters := [],
           depot.logged := s.depot.logged }

end Sys2Proof.Machine
end

