-- ==== Sys2Proof/Machine/LogOps.lean ====
section
/-! DEFINITION. The flash log: flushing, LOST records, the merge of a power-fail image, freezes (R522 to R527), and the
patrol of the depot (R509). -/

namespace Sys2Proof.Machine

/-- A LOST record with its index (R522). -/
def lostAcc (p : Lost) (index : W32) : Acc :=
  { index := index, code := 0x0701, sev := p.sev, rtc := p.rtc, tick := p.tick, count := p.total,
    data := (List.range 8).flatMap fun v => beBytes 3 (Tab.get 0 p.counts v) }

/-- The counts of a LOST record are added to the pending one (R524). -/
def addLost (a : Acc) (s : State) : State :=
  let p := s.log.pending.getD { rtc := s.bkd.rtc, tick := s.tsk.tick }
  let counts := (List.range 8).foldl (fun t v => Tab.upd 0 t v fun n => min (n + beNat ((a.data.drop (3 * v)).take 3)) 0xFFFFFF) p.counts
  { s with log.pending := some { p with counts := counts, sev := if p.sev.toNat < a.sev.toNat then a.sev else p.sev, total := satAdd p.total a.count.toNat } }

/-- A list without its first member that satisfies `p`. -/
def dropFirst (p : Acc → Bool) : List Acc → List Acc
  | [] => []
  | a :: t => if p a then t else a :: dropFirst p t

/-- A record enters the flash log, which holds 1,048,576 (R524). -/
def flashIn (a : Acc) (s : State) : State :=
  let lower := fun (x : Acc) => decide (x.sev.toNat ≤ a.sev.toNat)
  if s.log.flash.length < 1048576 then
    { s with log.flash := s.log.flash ++ [a], log.flushed := satInc s.log.flushed }
  else if s.log.flash.any lower then
    { s with log.flash := dropFirst lower s.log.flash ++ [a], log.flushed := satInc s.log.flushed, log.overwritten := satInc s.log.overwritten }
  else
    let s := if a.code = 0x0701 then addLost a s else s
    countLoss a.sev s

/-- The pending LOST record closes and takes the next index, when none waits (R522). -/
def closeLost (s : State) : State :=
  match s.log.pending, s.log.closed with
  | some p, none => { s with log.closed := some (lostAcc p s.log.next), log.pending := none, log.next := s.log.next + 1 }
  | _, _ => s

/-- Position of an index in the log (R526). -/
def logPosition (s : State) (i : W32) : Nat := (i - oldestIndex s).toNat

/-- The log position record is written at most once per second after a flush step (R523). [Log: DESIGN CHOICE, unsafe, entry 31; DEDUCED, unsafe, entry 113.] -/
def savePosition (s : State) : State :=
  let due : Bool := match s.log.posAt with | some t => decide (t + 100000 ≤ s.sys.upTicks) | none => true
  if due then twinWrite 5 (.logPos s.log.next) { s with log.posAt := some s.sys.upTicks } else s

/-- A flush step (R522, R523): the next record in index order goes to the flash log. [Log: DEDUCED, unsafe, entry 59.] -/
def flushOp (s : State) : State :=
  if s.sys.pfail ∨ s.log.frozen ∨ s.log.image.isSome then s
  else
    let s := closeLost s
    match s.log.buf, s.log.closed with
    | [], none => s
    | a :: t, none => savePosition (flashIn a { s with log.buf := t })
    | [], some l => savePosition (flashIn l { s with log.closed := none })
    | a :: t, some l =>
      if logPosition s l.index < logPosition s a.index then savePosition (flashIn l { s with log.closed := none })
      else savePosition (flashIn a { s with log.buf := t })

/-- Insert a record into a list in ascending position. -/
def insertPos (s : State) (a : Acc) : List Acc → List Acc
  | [] => [a]
  | b :: t => if logPosition s a.index ≤ logPosition s b.index then a :: b :: t else b :: insertPos s a t

/-- The index after those that the flash log and the saved log position show (R520, R523). [Log: DEDUCED, unsafe, entry 95.] -/
def afterFlash (s : State) : W32 :=
  let pos := match twinNow s 5 with | some (.logPos n) => n | _ => 0
  match s.log.flash.getLast? with
  | none => pos
  | some a => if (pos - (a.index + 1)).toNat < 2 ^ 31 then pos else a.index + 1

/-- The records of a power-fail image in ascending index order, the closed LOST record in its place (R525). -/
def imageRecs (s : State) (im : PfImage) : List Acc := match im.closed with | some l => insertPos s l im.recs | none => im.recs

/-- The index after the records of a power-fail image (R525). -/
def afterImage (s : State) (im : PfImage) : W32 := match (imageRecs s im).getLast? with | some a => a.index + 1 | none => afterFlash s

/-- SUP merges a power-fail image at start-up (R525): buffered and closed records in ascending index order, then the
pending LOST record with the next index. -/
def mergeImage (s : State) : State :=
  match s.log.image with
  | none => s
  | some im =>
    let last := afterImage s im
    let s := (imageRecs s im).foldl (fun s a => flashIn { a with fromPf := true } s) { s with log.image := none }
    let s := match im.pending with
      | some p => flashIn { lostAcc p last with fromPf := true } s
      | none => s
    im.missing.foldl (fun s v => countLoss (BitVec.ofNat 3 v) s) { s with log.merged := true }

/-- Whether the supervisor can flush: it runs. -/
def flushes (s : State) : Bool := !s.sys.asleep && s.sys.boot != .off && s.sys.boot != .reset && s.sys.boot != .rom

/-- FLUSH_STEP (R523). -/
def execFlushStep (s : State) : Host.Outcome State Fault Refusal := .next (if flushes s then flushOp s else s)

/-- The freeze ends (R527). -/
def unfreeze (s : State) : State := { s with log.frozen := false, log.freezer := none, log.freezeEnd := 0 }

/-- A session ends (R290, R291, R527): with it a freeze that it set, and its write that waits for a place. -/
def endSession (ep : Endpoint) (s : State) : State :=
  let s := { s with
    host.sessions := s.host.sessions.filter (·.ep ≠ ep),
    depot.waiters := s.depot.waiters.filter fun w => match w with | .host whom _ => decide (whom ≠ .session ep) | _ => true }
  if s.log.freezer = some ep then unfreeze s else s

/-- FREEZE_EXPIRED (R527). -/
def execFreezeExpired (s : State) : Host.Outcome State Fault Refusal :=
  .next (if s.log.frozen then accession 0 0x0702 2 [] (unfreeze s) else s)

/-- PATROL_READ (R509): single-bit errors that the read corrects are counted; a page with a weak or corrected group is due for a refresh,
which is queued when the queue is empty. `weak` and `corrected` mark groups of the page. -/
def patrolOp (weak corrected : W32) (s : State) : State :=
  let p := s.depot.patrol.toNat
  if s.depot.queue.any fun w => w.page = p then s
  else
    let soft := Tab.get 0 s.depot.soft p ||| corrected
    let s := noteRead p { s with depot.patrol := s.depot.patrol + 1, depot.soft := Tab.set 0 s.depot.soft p soft }
    if Tab.get 0 s.depot.bad p ≠ 0 ∨ (weak ||| soft) = 0 ∨ s.depot.pfail then s
    else startRefresh { s with depot.due := s.depot.due.filter (· ≠ p) ++ [p] }

/-- PATROL_READ (R509). -/
def execPatrolRead (weak corrected : W32) (s : State) : Host.Outcome State Fault Refusal :=
  .next (if flushes s then patrolOp weak corrected s else s)

end Sys2Proof.Machine
end

