-- ==== Sys2Proof/Machine/Claims.lean ====
section
/-! DEFINITION. Features, shared resources and their claims (R30 to R41). -/

namespace Sys2Proof.Machine

/-- The claim entries of a feature instance in index order (R30, R41); pins as the settings assign them. -/
def featureRes (s : State) (code inst : Nat) : List Nat :=
  match code with
  | 0x01 => [0, 1, 32]
  | 0x02 => [33]
  | 0x03 => [2, 3, 4, 5, 34, 52]
  | 0x10 => [6 + 2 * inst, 7 + 2 * inst, 53 + inst / 2]
  | 0x11 => [36, 48]
  | 0x12 => [22 + inst, 37 + inst, 49, 57]
  | 0x13 => [24 + inst, 39 + inst, 50, 58]
  | 0x14 => [26 + inst, 41 + inst]
  | 0x20 => let a := s.ports.tinPin.toNat
            let b := s.ports.ppsPin.toNat
            35 :: ((if a ≤ b then [a, b] else [b, a]).filter (· ≤ 5)).map (60 + ·)
  | 0x21 => if s.cast.pinSel.toNat ≤ 5 then [60 + s.cast.pinSel.toNat] else []
  | 0x22 => [28]
  | 0x23 => [29]
  | 0x24 => [30]
  | 0x25 => [60 + inst]
  | 0x26 => [31, 48 + inst]
  | _ => []

/-- The instances of a feature code (R31); none for a code that names no feature. -/
def featureCount : Nat → Nat
  | 0x01 | 0x02 | 0x03 | 0x11 | 0x20 | 0x21 | 0x22 | 0x23 | 0x24 => 1
  | 0x10 => 8
  | 0x12 | 0x13 | 0x14 => 2
  | 0x25 => 6
  | 0x26 => 4
  | _ => 0

/-- Features in order of rank, code and instance (R31, R35). -/
def featureOrder : List (Nat × Nat) :=
  [0x01, 0x02, 0x03, 0x10, 0x11, 0x12, 0x13, 0x14, 0x20, 0x21, 0x22, 0x23, 0x24, 0x25, 0x26].flatMap fun c =>
    (List.range (featureCount c)).map fun i => (c, i)

/-- The claim entry of a resource. -/
def claimAt (s : State) (n : Nat) : Claim := Tab.get {} s.res.claims n

/-- The first resource of a list that another feature holds (R32); instances of one feature code that share a
resource are not other features to each other. -/
def contested (s : State) (code : Nat) (rs : List Nat) : Option Nat :=
  rs.find? fun n => (claimAt s n).code.toNat ≠ 0 && (claimAt s n).code.toNat ≠ code

/-- One resource is claimed, or the claim on it joined (R41). -/
def claimOne (code inst n : Nat) (s : State) : State :=
  { s with res.claims := Tab.upd {} s.res.claims n fun c =>
      if c.code = 0 then { code := BitVec.ofNat 8 code, inst := BitVec.ofNat 8 inst }
      else { c with shares := c.shares ++ [BitVec.ofNat 8 inst] } }

/-- One resource is released: the claim passes to an instance that shares it, else the entry is free (R34, R41). -/
def releaseOne (code inst n : Nat) (s : State) : State :=
  { s with res.claims := Tab.upd {} s.res.claims n fun c =>
      if c.code.toNat ≠ code then c
      else if c.inst.toNat = inst then
        match c.shares with
        | [] => {}
        | i :: t => { c with inst := i, shares := t }
      else { c with shares := c.shares.filter fun i => i.toNat ≠ inst } }

/-- A refused claim (R36, R38, R39). -/
def refuseClaim (code inst n : Nat) (s : State) : State :=
  let h := claimAt s n
  let s := if s.res.conflict then s else
    { s with res.conflict := true, res.confRes := BitVec.ofNat 8 n, res.confFeat := h.code, res.confInst := h.inst,
             res.reqFeat := BitVec.ofNat 8 code, res.reqInst := BitVec.ofNat 8 inst }
  accession 0 0x0101 3 [BitVec.ofNat 8 code, BitVec.ofNat 8 inst, h.code, h.inst, BitVec.ofNat 8 n]
    { s with res.count := satInc s.res.count }

/-- Set the enable of a feature instance. -/
def setEnabled (code inst : Nat) (on : Bool) (s : State) : State :=
  let e := (BitVec.ofNat 8 code, BitVec.ofNat 8 inst)
  { s with res.enabled := if on then s.res.enabled ++ [e] else s.res.enabled.filter (· ≠ e),
           cast.pinEn := if code = 0x21 then on else s.cast.pinEn,
           ports.ppsHigh := if code = 0x20 ∧ !on then false else s.ports.ppsHigh }

/-- Whether a feature's enable is stored with the settings (R623): all but the two that a command holds for its
own run. -/
def enableStored (code : Nat) : Bool := code ≠ 0x22 && code ≠ 0x23

/-- Claim a feature's resources in one step and enable it (R32, R33); the contested resource when it is refused. -/
def claimFeature (code inst : Nat) (s : State) : State × Option Nat :=
  if enabled s code inst then (s, none)
  else
    let rs := featureRes s code inst
    match contested s code rs with
    | some n => (refuseClaim code inst n s, some n)
    | none =>
      let s := rs.foldl (fun s n => claimOne code inst n s) s
      let s := setEnabled code inst true s
      (if enableStored code then touchSettings s else s, none)

/-- Disable a feature and release its claims on the same edge (R34). -/
def releaseFeature (code inst : Nat) (s : State) : State :=
  if enabled s code inst then
    let s := (featureRes s code inst).foldl (fun s n => releaseOne code inst n s) s
    let s := setEnabled code inst false s
    if enableStored code then touchSettings s else s
  else s

/-- Enable the features that the stored settings enable, in rank order (R41). -/
def enableDefaults (l : List (Byte × Byte)) (s : State) : State :=
  featureOrder.foldl (fun s f =>
    if l.contains (BitVec.ofNat 8 f.1, BitVec.ofNat 8 f.2) then
      match claimFeature f.1 f.2 s with
      | (s, none) => s
      | (s, some n) =>
        let h := claimAt s n
        accession 0 0x0102 4 [BitVec.ofNat 8 f.1, BitVec.ofNat 8 f.2, h.code, h.inst, BitVec.ofNat 8 n]
          { s with res.denied := true }
    else s) s

/-! ## Settings that a pair shares (R375, R393) -/

/-- Whether a settings change is one of those that a standby takes over: of ports, publications, subscriptions and redundancy,
but for the pairing itself (R393). -/
def sharedSettings (d : ResyncData) : Bool :=
  match d with
  | .settings c _ _ | .enable c _ _ => (0x10 ≤ c.toNat && c.toNat ≤ 0x14) || c = 0x25
  | _ => true

/-- A settings change of this module is an item of the next record (R375). -/
def noteSettings (d : ResyncData) (s : State) : State :=
  if s.red.role = 1 ∧ sharedSettings d then { s with red.items := s.red.items ++ [.settings d] } else s

end Sys2Proof.Machine
end

