-- ==== Sys2Proof/Machine/Real48.lean ====
section
/-! DEFINITION. REAL48 arithmetic (R171 to R174, R214 to R217): every result is the exact result rounded once. Sticky
bits are those of TSW [4:0]: OVF 16, DIVZ 8, FINV 4, FDZ 2, RANGE 1 (R181). -/

namespace Sys2Proof.Machine

/-- Sticky bits of TSW (R181). -/
abbrev Sticky := BitVec 5
/-- OVF. -/
def stOvf : Sticky := 16
/-- DIVZ. -/
def stDivz : Sticky := 8
/-- FINV. -/
def stFinv : Sticky := 4
/-- FDZ. -/
def stFdz : Sticky := 2
/-- RANGE. -/
def stRange : Sticky := 1

/-- A REAL48 operand as R172 reads it: a finite value is (−1)^neg × m × 2^e. -/
inductive RVal where
  | nan
  | inf (neg : Bool)
  | fin (neg : Bool) (m : Nat) (e : Int)
  deriving DecidableEq, Repr

/-- The canonical NaN (R174). -/
def realNan : L48 := 0x7FF800000000#48

/-- Infinity with a sign. -/
def realInf (neg : Bool) : L48 := if neg then 0xFFF000000000#48 else 0x7FF000000000#48

/-- Zero with a sign. -/
def realZero (neg : Bool) : L48 := if neg then 0x800000000000#48 else 0#48

/-- The value of a bit pattern as an operand (R172). -/
def realVal (x : L48) : RVal :=
  let neg := x.getLsbD 47
  let e := x.toNat / 2 ^ 36 % 2 ^ 11
  let f := x.toNat % 2 ^ 36
  if e = 0x7FF then (if f = 0 then .inf neg else .nan)
  else if e = 0 then .fin neg 0 0
  else .fin neg (2 ^ 36 + f) (Int.ofNat e - 1059)

/-- Round a magnitude to an integer number of 2^d: ties to even; `sticky` says that a non-zero part lies below. -/
def roundShift (m d : Nat) (sticky : Bool) : Nat :=
  if d = 0 then m
  else
    let q := m / 2 ^ d
    let r := m % 2 ^ d
    let half := 2 ^ (d - 1)
    if r > half ∨ (r = half ∧ (sticky ∨ q % 2 = 1)) then q + 1 else q

/-- The exact value (−1)^neg × (m plus a part below one when `sticky`) × 2^e as a REAL48 (R173), with OVF. -/
def realRound (neg : Bool) (m : Nat) (e : Int) (sticky : Bool) : L48 × Sticky :=
  if m = 0 then (realZero neg, 0)
  else
    let len := Nat.log2 m + 1
    let d := len - 37
    let q0 := if len ≤ 37 then m * 2 ^ (37 - len) else roundShift m d sticky
    let e0 : Int := if len ≤ 37 then e - ((37 - len : Nat) : Int) else e + (d : Int)
    let q := if q0 = 2 ^ 37 then 2 ^ 36 else q0
    let e1 := if q0 = 2 ^ 37 then e0 + 1 else e0
    let be := e1 + 36 + 1023
    if be < 1 then (realZero neg, 0)
    else if be > 2046 then (realInf neg, stOvf)
    else (BitVec.ofNat 48 ((if neg then 2 ^ 47 else 0) + be.toNat * 2 ^ 36 + (q - 2 ^ 36)), 0)

/-- An exact signed sum n × 2^e, with the sign of an exact zero given. -/
def realRoundInt (n : Int) (e : Int) (zeroNeg : Bool) : L48 × Sticky :=
  if n = 0 then (realZero zeroNeg, 0) else realRound (decide (n < 0)) n.natAbs e false

/-- A signed magnitude. -/
def signed (neg : Bool) (m : Nat) : Int := if neg then -(m : Int) else (m : Int)

/-- ADDF (R214, R215). -/
def realAdd (x y : L48) : L48 × Sticky :=
  match realVal x, realVal y with
  | .nan, _ | _, .nan => (realNan, stFinv)
  | .inf a, .inf b => if a = b then (realInf a, 0) else (realNan, stFinv)
  | .inf a, _ => (realInf a, 0)
  | _, .inf b => (realInf b, 0)
  | .fin a ma ea, .fin b mb eb =>
    if ma = 0 ∧ mb = 0 then (realZero (a && b), 0)
    else if ma = 0 then realRound b mb eb false
    else if mb = 0 then realRound a ma ea false
    else
      let e := if ea ≤ eb then ea else eb
      realRoundInt (signed a (ma * 2 ^ (ea - e).toNat) + signed b (mb * 2 ^ (eb - e).toNat)) e false

/-- The pattern with the sign inverted. -/
def flipSign (x : L48) : L48 := x ^^^ 0x800000000000#48

/-- SUBF (R214, R215). -/
def realSub (x y : L48) : L48 × Sticky := realAdd x (flipSign y)

/-- MULF (R214, R215). -/
def realMul (x y : L48) : L48 × Sticky :=
  match realVal x, realVal y with
  | .nan, _ | _, .nan => (realNan, stFinv)
  | .inf a, .inf b => (realInf (a != b), 0)
  | .inf a, .fin b m _ => if m = 0 then (realNan, stFinv) else (realInf (a != b), 0)
  | .fin a m _, .inf b => if m = 0 then (realNan, stFinv) else (realInf (a != b), 0)
  | .fin a ma ea, .fin b mb eb => realRound (a != b) (ma * mb) (ea + eb) false

/-- DIVF (R214, R215). -/
def realDiv (x y : L48) : L48 × Sticky :=
  match realVal x, realVal y with
  | .nan, _ | _, .nan => (realNan, stFinv)
  | .inf _, .inf _ => (realNan, stFinv)
  | .inf a, .fin b _ _ => (realInf (a != b), 0)
  | .fin a _ _, .inf b => (realZero (a != b), 0)
  | .fin a ma ea, .fin b mb eb =>
    if mb = 0 then (if ma = 0 then (realNan, stFinv) else (realInf (a != b), stFdz))
    else
      let n := ma * 2 ^ 80
      realRound (a != b) (n / mb) (ea - eb - 80) (decide (n % mb ≠ 0))

/-- The largest r with r² ≤ n, found bit by bit from bit k − 1 down. -/
def isqrt : Nat → Nat → Nat → Nat
  | 0, _, r => r
  | k + 1, n, r => let t := r + 2 ^ k; isqrt k n (if t * t ≤ n then t else r)

/-- SQRTF (R214, R215). -/
def realSqrt (x : L48) : L48 × Sticky :=
  match realVal x with
  | .nan => (realNan, stFinv)
  | .inf true => (realNan, stFinv)
  | .inf false => (realInf false, 0)
  | .fin a m e =>
    if m = 0 then (realZero a, 0)
    else if a then (realNan, stFinv)
    else
      let e2 := if e % 2 = 0 then e else e - 1
      let n := (if e % 2 = 0 then m else 2 * m) * 2 ^ 80
      let r := isqrt 60 n 0
      realRound false r ((e2 - 80) / 2) (decide (r * r ≠ n))

/-- A value written as R172 reads it: flushed patterns become zeros, NaN the canonical NaN (MOVF). -/
def realCanon (x : L48) : L48 × Sticky :=
  match realVal x with
  | .nan => (realNan, stFinv)
  | .inf a => (realInf a, 0)
  | .fin a m _ => (if m = 0 then realZero a else x, 0)

/-- NEGF (R214). -/
def realNeg (x : L48) : L48 × Sticky :=
  match realVal x with
  | .nan => (realNan, stFinv)
  | _ => (flipSign (realCanon x).1, 0)

/-- ABSF (R214). -/
def realAbs (x : L48) : L48 × Sticky :=
  match realVal x with
  | .nan => (realNan, stFinv)
  | _ => ((realCanon x).1 &&& 0x7FFFFFFFFFFF#48, 0)

/-- A key that orders the values of non-NaN patterns, −0 below +0. -/
def realKey (x : L48) : Int :=
  let c := (realCanon x).1
  if c.getLsbD 47 then -((c.toNat % 2 ^ 47 : Nat) : Int) - 1 else (c.toNat : Int)

/-- A key in which −0 equals +0 (R174). -/
def realCmpKey (x : L48) : Int :=
  let c := (realCanon x).1
  signed (c.getLsbD 47) (c.toNat % 2 ^ 47)

/-- Whether a pattern is a NaN. -/
def isNan (x : L48) : Bool := realVal x = .nan

/-- MINF (R214): −0 counts as less than +0. -/
def realMin (x y : L48) : L48 × Sticky :=
  if isNan x || isNan y then (realNan, stFinv)
  else ((realCanon (if realKey x ≤ realKey y then x else y)).1, 0)

/-- MAXF (R214). -/
def realMax (x y : L48) : L48 × Sticky :=
  if isNan x || isNan y then (realNan, stFinv)
  else ((realCanon (if realKey x ≤ realKey y then y else x)).1, 0)

/-- The condition of CMPF that a SUBOP selects (R213, R215). -/
def realCompare (sub : Nat) (x y : L48) : Bool × Sticky :=
  if isNan x || isNan y then (sub = 1, stFinv)
  else
    let a := realCmpKey x
    let b := realCmpKey y
    (match sub with
     | 0 => decide (a = b) | 1 => decide (a ≠ b) | 2 => decide (a < b) | 3 => decide (a ≤ b)
     | 4 => decide (b < a) | 5 => decide (b ≤ a) | _ => false, 0)

/-- The magnitude m × 2^e as an integer: truncated, or rounded with ties to even. -/
def magInt (trunc : Bool) (m : Nat) (e : Int) : Nat :=
  if e ≥ 0 then m * 2 ^ e.toNat
  else
    let d := (-e).toNat
    if trunc then m / 2 ^ d else roundShift m d false

/-- ROUNDF and TRUNCF (R214). -/
def realIntegral (trunc : Bool) (x : L48) : L48 × Sticky :=
  match realVal x with
  | .nan => (realNan, stFinv)
  | .inf a => (realInf a, 0)
  | .fin a m e => if e ≥ 0 then ((realCanon x).1, 0) else realRound a (magInt trunc m e) 0 false

/-- A conversion to a signed integer of `w` bits (R216, R217), as a 48-bit value. -/
def realToInt (trunc : Bool) (w : Nat) (x : L48) : L48 × Sticky :=
  let hi : Int := 2 ^ (w - 1) - 1
  let lo : Int := -(2 ^ (w - 1))
  match realVal x with
  | .nan => (0, stRange)
  | .inf a => (BitVec.ofInt 48 (if a then lo else hi), stRange)
  | .fin a m e =>
    let n := if m = 0 then 0 else signed a (magInt trunc m e)
    if n < lo then (BitVec.ofInt 48 lo, stRange)
    else if n > hi then (BitVec.ofInt 48 hi, stRange)
    else (BitVec.ofInt 48 n, 0)

/-- An integer as a REAL48, rounded to nearest (R216). -/
def realOfInt (n : Int) : L48 := (realRoundInt n 0 false).1

end Sys2Proof.Machine
end

