-- ==== Sys2Proof/Machine/SwmDecode.lean ====
section
/-! DEFINITION. Decoding of SWM instructions from program parcels (R183 to R189), and the opcode map (R195). -/

namespace Sys2Proof.Machine

/-- Extension parcels of an operand mode (R188). -/
def extOf (mode : Nat) : Nat :=
  if mode = 0 ∨ 0x10 ≤ mode then 0 else if mode = 0x02 ∨ mode = 0x05 ∨ mode = 0x08 then 2 else 1

/-- One operand as encoded: its mode and its extension parcels. -/
structure Opnd where
  mode : Nat
  p1   : W24
  p2   : W24
  deriving DecidableEq, Repr

/-- A decoded instruction: where it stands, its opcode, SUBOP when E is set, its operands and the address after it. -/
structure Ins where
  pc   : BitVec 21
  op   : Nat
  e    : Bool
  sub  : Nat
  a    : Opnd
  b    : Opnd
  c    : Opnd
  next : BitVec 21
  deriving DecidableEq, Repr

/-- The length of an instruction in parcels from its first parcel (R185). -/
def insLen (p : W24) : Nat :=
  1 + p.toNat % 2 + extOf (field p.toNat 15 11) + extOf (field p.toNat 10 6) + extOf (field p.toNat 5 1)

/-- Take one operand's parcels at offset `k` from the instruction. -/
def opndAt (fetch : Nat → W24) (pc mode k : Nat) : Opnd :=
  { mode := mode,
    p1 := if 1 ≤ extOf mode then fetch ((pc + k) % 2 ^ 21) else 0,
    p2 := if 2 ≤ extOf mode then fetch ((pc + k + 1) % 2 ^ 21) else 0 }

/-- The instruction at a parcel address (R183 to R185); addresses wrap within program space (R176). -/
def decodeIns (fetch : Nat → W24) (pc : BitVec 21) : Ins :=
  let p := (fetch pc.toNat).toNat
  let ma := field p 15 11
  let mb := field p 10 6
  let mc := field p 5 1
  let e := p % 2
  let x := fetch ((pc.toNat + 1) % 2 ^ 21)
  { pc := pc, op := field p 23 16, e := e = 1, sub := if e = 1 then field x.toNat 23 16 else 0,
    a := opndAt fetch pc.toNat ma (1 + e),
    b := opndAt fetch pc.toNat mb (1 + e + extOf ma),
    c := opndAt fetch pc.toNat mc (1 + e + extOf ma + extOf mb),
    next := pc + BitVec.ofNat 21 (insLen (fetch pc.toNat)) }

/-- An opcode that R195 leaves reserved or gives to the customer. -/
def reservedOp (op : Nat) : Bool :=
  (0x19 ≤ op && op ≤ 0x1F) || (0x3A ≤ op && op ≤ 0x3F) || (0x4A ≤ op && op ≤ 0x4F) || (0x6D ≤ op && op ≤ 0x6F) ||
  (0x7A ≤ op && op ≤ 0x7F) || (0x86 ≤ op && op ≤ 0x8F) || (0x98 ≤ op && op ≤ 0x9F) || (0xAC ≤ op)

/-- A customer opcode (R195). -/
def customerOp (op : Nat) : Bool := 0xE0 ≤ op && op ≤ 0xEF

/-- A serial instruction (R124): CAST, DEPRD, DEPWR, MSGSND. -/
def serialOp (op : Nat) : Bool := op = 0x04 || op = 0x77 || op = 0x78 || op = 0x79

/-- An instruction of a class of R124. `valid` says whether a customer opcode has a valid decode entry (R240). -/
def alwaysOp (valid : Nat → Bool) (i : Ins) : Bool :=
  (0x90 ≤ i.op && i.op ≤ 0x9F) || i.op = 0x14 || i.op = 0x15 ||
  (i.op = 0x06 && (i.sub = 0x03 || i.sub = 0x06)) ||
  serialOp i.op || (if customerOp i.op then !valid (i.op - 0xE0) else reservedOp i.op)

/-- An instruction that no prefix may precede (R203): flow opcodes, REPI, REPN, CHK, TRAP. -/
def noPrefix (op : Nat) : Bool := (0x80 ≤ op && op ≤ 0x8F) || op = 0x01 || op = 0x02 || op = 0x03 || op = 0x05

end Sys2Proof.Machine
end

