-- ==== Sys2Proof/Machine/Operands.lean ====
section
/-! DEFINITION. Every operand form of SWM (R186 to R196, R618): forming addresses, reading and writing, with the cycle
journal (R128), the read map (R129) and the catchment checks (R153). -/

namespace Sys2Proof.Machine

/-- Operand types (R169). -/
inductive Ty where
  | bit | word | long | real
  deriving DecidableEq, Repr

/-- What an instruction sees beside its run: the task's view, the program, the segment's catchments, and the values
that R179, R190, R224 and R232 name. [Log: DEDUCED, unsafe, entry 24.] -/
structure Env where
  vBit    : Nat → Bool
  vWord   : Nat → W24
  fetch   : Nat → W24
  dec     : Nat → W32
  ucode   : Nat → W32
  pureRun : Bool
  caught  : Nat → Bool
  inBit   : Nat → Bool
  inWord  : Nat → Bool
  fb      : Nat
  fl      : Nat
  lt      : Tick
  core    : Nat
  tod     : L48
  todFlags : BitVec 2
  handler : Option (BitVec 21)
  page    : Nat → List Byte × Nat
  rdv     : BitVec 16

/-- What a serial or customer instruction does outside the view (R138, R200, R224, R225, R246). -/
inductive Out where
  | cast
  | depRead (page : Nat)
  | depWrite (page : Nat) (data : List Byte)
  | msg (port : Nat) (tag : W24) (bytes : List Byte) (ok : Bool)
  | ucodeLimit
  deriving DecidableEq, Repr

/-- An instruction in progress: the run, the sticky conditions it produced, the trap it raised itself, what it does
outside the view. -/
structure X where
  run    : Run
  raised : Sticky := 0
  trap   : Option (BitVec 16) := none
  outs   : List Out := []
  deriving DecidableEq, Repr

/-- Where an operand is found (R188). Addresses are 24-bit; `second` is the address of a second word. -/
inductive Loc where
  | absent
  | imm (hi lo : W24) (short : Bool)
  | word (a second : W24)
  | bit (a : W24)
  | wbit (a : W24) (n : Nat)
  | reg (n : Nat)
  deriving DecidableEq, Repr

/-- Bit addresses decode 22 bits, word addresses 21 (R175). -/
def bitA (a : W24) : Nat := a.toNat % 2 ^ 22
/-- Word addresses decode 21 bits (R175). -/
def wordA (a : W24) : Nat := a.toNat % 2 ^ 21

/-- The grain of a bit point (R63). -/
def bitGrain (a : Nat) : Nat := a / 64
/-- The grain or data block of a word (R63, R129). -/
def wordGrain (a : Nat) : Nat := 65536 + a / 8

/-- A scratch register (R178). -/
def getReg (x : X) (n : Nat) : W24 := Tab.get 0 x.run.regs (n % 16)
/-- Write a scratch register. -/
def setReg (x : X) (n : Nat) (v : W24) : X := { x with run.regs := Tab.set 0 x.run.regs (n % 16) v }

/-- Record the first miss of a pure run (R153, R154). -/
def noteMiss (env : Env) (cause : BitVec 4) (space : BitVec 2) (addr : W24) (x : X) : X :=
  if env.pureRun ∧ x.run.miss = none then { x with run.miss := some (cause, space, addr) } else x

/-- Mark a grain in the read map (R129). -/
def mark (g : Nat) (x : X) : X :=
  if x.run.readMap.contains g then x else { x with run.readMap := g :: x.run.readMap }

/-- The newest journal entry of a bit point. The journal is kept newest first. -/
def jBit (a : Nat) : List JEntry → Option Bool
  | [] => none
  | .bit b v :: t => if a = b then some v else jBit a t
  | .word _ _ :: t => jBit a t

/-- The newest journal entry of a word. -/
def jWord (a : Nat) : List JEntry → Option W24
  | [] => none
  | .word b v :: t => if a = b then some v else jWord a t
  | .bit _ _ :: t => jWord a t

/-- Read a bit point (R128, R129, R153). -/
def readBit (env : Env) (a : W24) (x : X) : Bool × X :=
  let n := bitA a
  let x := if env.caught (bitGrain n) then x else noteMiss env 1 0 (BitVec.ofNat 24 n) x
  match jBit n x.run.journal with
  | some v => (v, x)
  | none => (env.vBit n, mark (bitGrain n) x)

/-- Read a word (R128, R129, R153). -/
def readWord (env : Env) (a : W24) (x : X) : W24 × X :=
  let n := wordA a
  let x := if n ≥ 2 ^ 20 then noteMiss env 2 2 (BitVec.ofNat 24 n) x
           else if env.caught (wordGrain n) then x else noteMiss env 1 1 (BitVec.ofNat 24 n) x
  match jWord n x.run.journal with
  | some v => (v, x)
  | none => (env.vWord n, mark (wordGrain n) x)

/-- Write a bit point: one journal entry (R128), checked under R153. -/
def writeBit (env : Env) (a : W24) (v : Bool) (x : X) : X :=
  let n := bitA a
  let x := if env.inBit n then noteMiss env 3 0 (BitVec.ofNat 24 n) x else x
  { x with run.journal := .bit n v :: x.run.journal }

/-- Write a word: one journal entry (R128), checked under R153. -/
def writeWord (env : Env) (a : W24) (v : W24) (x : X) : X :=
  let n := wordA a
  let x := if n ≥ 2 ^ 20 then noteMiss env 2 2 (BitVec.ofNat 24 n) x
           else if env.inWord n then noteMiss env 3 1 (BitVec.ofNat 24 n) x else x
  { x with run.journal := .word n v :: x.run.journal }

/-- Bits [47:24] and [23:0] joined (R13). -/
def join24 (hi lo : W24) : L48 := hi ++ lo
/-- Bits [47:24]. -/
def hi24 (v : L48) : W24 := (v >>> 24).setWidth 24
/-- Bits [23:0]. -/
def lo24 (v : L48) : W24 := v.setWidth 24

/-- The step of AINC and ADEC (R190, R196). -/
def stepOf (ty : Ty) (addr space : Bool) : W24 :=
  if addr then 1 else if space then 1 else match ty with | .bit | .word => 1 | .long | .real => 2

/-- A word location at an address; its second word follows it (R176). -/
def wordLoc (a : W24) : Loc := .word a (a + 1)

/-- A word or bit location by SPACE. -/
def spaceLoc (space : Bool) (a : W24) : Loc := if space then .bit a else wordLoc a

/-- Form the effective address of an operand (R188 to R190), step 1 of R192. `addr` marks an address operand
(R196), which ignores the mode's space. -/
def formOp (env : Env) (ty : Ty) (addr : Bool) (o : Opnd) (x : X) : Loc × X :=
  let n := o.p1.toNat
  let r := n / 2 ^ 20
  let base20 : W24 := BitVec.ofNat 24 (n % 2 ^ 20)
  match o.mode with
  | 0x00 => (.absent, x)
  | 0x01 => (.imm o.p1 0 true, x)
  | 0x02 => (.imm o.p1 o.p2 false, x)
  | 0x03 => (wordLoc o.p1, x)
  | 0x04 => (.bit o.p1, x)
  | 0x05 => let k := o.p2.toNat % 32
            (.wbit o.p1 (if k ≥ 24 then k - 24 else k), x)
  | 0x06 => let (p, x) := readWord env o.p1 x
            (wordLoc (BitVec.ofNat 24 (wordA p)), x)
  | 0x07 => (wordLoc (base20 + getReg x r), x)
  | 0x08 => (spaceLoc (field n 17 17 = 1) (o.p2 + getReg x r * BitVec.ofNat 24 (2 ^ field n 19 18)), x)
  | 0x09 => (wordLoc (getReg x r + ((o.p1.setWidth 20).signExtend 24)), x)
  | 0x0A => let (p, x) := readWord env base20 x
            (wordLoc (BitVec.ofNat 24 (wordA p) + getReg x r), x)
  | 0x0B => let (p, x) := readWord env (base20 + getReg x r) x
            (wordLoc (BitVec.ofNat 24 (wordA p)), x)
  | 0x0C => let s := decide (field n 19 19 = 1)
            let a := getReg x r
            (spaceLoc s a, setReg x r (a + stepOf ty addr s))
  | 0x0D => let s := decide (field n 19 19 = 1)
            let a := getReg x r - stepOf ty addr s
            (spaceLoc s a, setReg x r a)
  | 0x0E => (.bit (base20 + getReg x r), x)
  | 0x0F => let off := n % 2 ^ 16
            (.word (BitVec.ofNat 24 (env.fb + off % env.fl)) (BitVec.ofNat 24 (env.fb + (off + 1) % env.fl)), x)
  | m => (.reg (m - 0x10), x)

/-- A 48-bit value as a truth value of its full pattern (R191). -/
def nz (v : L48) : Bool := v != 0

/-- Zero-extend a truth value. -/
def ofBool48 (b : Bool) : L48 := if b then 1 else 0

/-- Read an operand as a type (R191). BIT reads as 0 or 1, WORD zero-extended. -/
def readLoc (env : Env) (ty : Ty) (l : Loc) (x : X) : L48 × X :=
  match l with
  | .absent => (0, x)
  | .imm hi lo short =>
    let v : L48 := match ty, short with
      | .word, true => hi.setWidth 48
      | .word, false => lo.setWidth 48
      | .bit, true => ofBool48 (hi != 0)
      | .bit, false => ofBool48 (nz (join24 hi lo))
      | .long, true => hi.signExtend 48
      | .real, true => join24 hi 0
      | _, false => join24 hi lo
    (v, x)
  | .bit a => let (b, x) := readBit env a x; (ofBool48 b, x)
  | .wbit a n => let (w, x) := readWord env a x; (ofBool48 (w.getLsbD n), x)
  | .word a a2 =>
    match ty with
    | .bit => let (w, x) := readWord env a x; (ofBool48 (w != 0), x)
    | .word => let (w, x) := readWord env a x; (w.setWidth 48, x)
    | _ => let (h, x) := readWord env a x
           let (lo, x) := readWord env a2 x
           (join24 h lo, x)
  | .reg n =>
    match ty with
    | .bit => (ofBool48 (getReg x n != 0), x)
    | .word => ((getReg x n).setWidth 48, x)
    | _ => (join24 (getReg x n) (getReg x (n + 1)), x)

/-- Write a result of a type to an operand (R187, R191, R618); of a 48-bit one the high word first.
[Log: DESIGN CHOICE, unsafe, entry 218; DESIGN CHOICE, unsafe, entry 247.] -/
def writeLoc (env : Env) (ty : Ty) (l : Loc) (v : L48) (x : X) : X :=
  let b : Bool := match ty with | .word => lo24 v != 0 | _ => nz v
  match l with
  | .absent | .imm _ _ _ => x
  | .bit a => writeBit env a b x
  | .wbit a n =>
    let (w, x) := readWord env a x
    let m : W24 := BitVec.ofNat 24 (2 ^ n)
    writeWord env a (if b then w ||| m else w &&& ~~~m) x
  | .word a a2 =>
    match ty with
    | .bit => writeWord env a (if b then 1 else 0) x
    | .word => writeWord env a (lo24 v) x
    | _ => writeWord env a2 (lo24 v) (writeWord env a (hi24 v) x)
  | .reg n =>
    match ty with
    | .bit => setReg x n (if b then 1 else 0)
    | .word => setReg x n (lo24 v)
    | _ => setReg (setReg x n (hi24 v)) (n + 1) (lo24 v)

/-- The address of an address operand (R196): none for an absent, immediate or register mode. -/
def addrOf (l : Loc) : Option W24 :=
  match l with
  | .word a _ => some a
  | .bit a => some a
  | .wbit a _ => some a
  | .absent | .imm _ _ _ | .reg _ => none

/-- Read a word through an address operand, `k` words on (R196). -/
def readAt (env : Env) (base : Option W24) (k : Nat) (x : X) : W24 × X :=
  match base with
  | none => (0, x)
  | some a => readWord env (a + BitVec.ofNat 24 k) x

/-- Write a word through an address operand, `k` words on (R196). -/
def writeAt (env : Env) (base : Option W24) (k : Nat) (v : W24) (x : X) : X :=
  match base with
  | none => x
  | some a => writeWord env (a + BitVec.ofNat 24 k) v x

/-- Read a bit through an address operand in bit space (R196). -/
def readBitAt (env : Env) (base : Option W24) (k : Nat) (x : X) : Bool × X :=
  match base with
  | none => (false, x)
  | some a => readBit env (a + BitVec.ofNat 24 k) x

/-- Write a bit through an address operand in bit space (R196). -/
def writeBitAt (env : Env) (base : Option W24) (k : Nat) (v : Bool) (x : X) : X :=
  match base with
  | none => x
  | some a => writeBit env (a + BitVec.ofNat 24 k) v x

/-- Read `n` words in ascending order. -/
def readWords (env : Env) (base : Option W24) : Nat → Nat → X → List W24 × X
  | _, 0, x => ([], x)
  | k, n + 1, x =>
    let (w, x) := readAt env base k x
    let (ws, x) := readWords env base (k + 1) n x
    (w :: ws, x)

/-- Write words in ascending order. -/
def writeWords (env : Env) (base : Option W24) : Nat → List W24 → X → X
  | _, [], x => x
  | k, w :: ws, x => writeWords env base (k + 1) ws (writeAt env base k w x)

/-- Read `n` bits in ascending order. -/
def readBits (env : Env) (base : Option W24) : Nat → Nat → X → List Bool × X
  | _, 0, x => ([], x)
  | k, n + 1, x =>
    let (w, x) := readBitAt env base k x
    let (ws, x) := readBits env base (k + 1) n x
    (w :: ws, x)

/-- Write bits in ascending order. -/
def writeBits (env : Env) (base : Option W24) : Nat → List Bool → X → X
  | _, [], x => x
  | k, w :: ws, x => writeBits env base (k + 1) ws (writeBitAt env base k w x)

/-- Read a LONG or REAL48 through an address operand (R170). -/
def readLongAt (env : Env) (base : Option W24) (k : Nat) (x : X) : L48 × X :=
  let (h, x) := readAt env base k x
  let (l, x) := readAt env base (k + 1) x
  (join24 h l, x)

/-- Write a LONG or REAL48 through an address operand (R170). -/
def writeLongAt (env : Env) (base : Option W24) (k : Nat) (v : L48) (x : X) : X :=
  writeAt env base (k + 1) (lo24 v) (writeAt env base k (hi24 v) x)

/-- Set sticky conditions (R198, R234). -/
def raise (st : Sticky) (x : X) : X := { x with raised := x.raised ||| st }

end Sys2Proof.Machine
end

