-- ==== Sys2Proof/Machine/Cluster.lean ====
section
/-! DEFINITION. The scan cluster between instructions (chapter 03, R101, R102): views, journals and their commit, squash,
the sparse-scan decision, dispatch, preemption, abandonment and task faults. -/

namespace Sys2Proof.Machine

/-! ## Banks, definitions and segment entries -/

/-- Change bank b. -/
def updBank (b : Bool) (f : Bank → Bank) (s : State) : State :=
  if b then { s with prog.bank1 := f s.prog.bank1 } else { s with prog.bank0 := f s.prog.bank0 }

/-- The bank of the release of task n (R260). -/
def relBank (s : State) (n : Nat) : Bank := bankOf s (task s n).bank
/-- The definition of task n in the bank of its release (R260). -/
def relDef (s : State) (n : Nat) : TaskDef := Tab.get {} (relBank s n).tasks n

/-- Priority of a definition; background tasks rank below every other (R82, R101). -/
def prioOf (d : TaskDef) : Nat := if kindOf d = 2 then 32 else d.cfg.toNat % 32
/-- PERIOD. -/
def periodOf (d : TaskDef) : Nat := d.period.toNat % 2 ^ 20
/-- DEADLINE. -/
def deadlineOf (d : TaskDef) : Nat := d.deadline.toNat % 2 ^ 20
/-- PHASE. -/
def phaseOf (d : TaskDef) : Nat := d.trig.toNat % 2 ^ 20
/-- View-store quota. -/
def quotaOf (d : TaskDef) : Nat := d.quota.toNat % 2 ^ 16

/-- The entry of segment g in a bank (R123). -/
def segEntry (b : Bank) (g : Nat) : W32 := Tab.get 0 b.segs g
/-- PURE. -/
def segPure (w : W32) : Bool := w.getLsbD 31
/-- REVOKED. -/
def segRevoked (w : W32) : Bool := w.getLsbD 30
/-- SERIAL. -/
def segSerial (w : W32) : Bool := w.getLsbD 28
/-- RERUN. -/
def segRerun (w : W32) : Bool := w.getLsbD 27
/-- PRESENT. -/
def segPresent (w : W32) : Bool := w.getLsbD 26
/-- TASK. -/
def segTask (w : W32) : Nat := field w.toNat 25 21
/-- START. -/
def segStart (w : W32) : BitVec 21 := w.setWidth 21

/-- Set or clear bit p of a segment entry that is present. -/
def setSegBit (b : Bool) (g p : Nat) (v : Bool) (s : State) : State :=
  updBank b (fun k =>
    let w := segEntry k g
    if segPresent w then
      { k with segs := Tab.set 0 k.segs g (if v then w ||| BitVec.ofNat 32 (2 ^ p) else w &&& ~~~(BitVec.ofNat 32 (2 ^ p))) }
    else k) s

/-- The segments of task n in program order (R122). -/
def segsOf (b : Bank) (n : Nat) : List Nat :=
  (b.segs.filter fun e => segPresent e.2 && decide (segTask e.2 = n)).map (·.1)

/-! ## Regions, grains and catchments -/

/-- The region that holds a grain (R67). -/
def regionAt (rs : List Region) (g : Nat) : Option Region :=
  rs.find? fun r => decide (r.start.toNat ≤ g) && decide (g < r.start.toNat + r.count.toNat)
/-- The region of a bit point. -/
def bitRegion (s : State) (a : Nat) : Option Region := regionAt s.prog.bitReg (a / 64)
/-- The region of a word of the word image; data memory has none. -/
def wordRegion (s : State) (a : Nat) : Option Region := if a < 2 ^ 20 then regionAt s.prog.wordReg (a / 8) else none
/-- Whether a region is of class INPUT. -/
def isInput (r : Option Region) : Bool := match r with | some r => r.cls = 1 | none => false
/-- Whether a region is of class OUTPUT. -/
def isOutput (r : Option Region) : Bool := match r with | some r => r.cls = 2 | none => false
/-- Whether a task's write to a region is committed (R64, R66). -/
def committable (r : Option Region) (n : Nat) : Bool :=
  match r with
  | none => true
  | some r => if r.cls = 1 then false else if r.cls = 2 then r.owner.toNat = n else true

/-- Grains of the two images; data blocks lie above (R62, R129). -/
def imageGrain (g : Nat) : Bool := decide (g < 65536 + 131072)
/-- Whether a set holds a grain. -/
def Grains.has (m : Grains) (g : Nat) : Bool := m.all || m.gs.contains g
/-- Add a grain. -/
def Grains.add (m : Grains) (g : Nat) : Grains := if m.has g then m else { m with gs := g :: m.gs }
/-- The union of two sets. -/
def Grains.union (a b : Grains) : Grains :=
  if a.all || b.all then { all := true } else b.gs.foldl Grains.add a

/-- The catchment entries of segment g (R145). -/
def catsOf (b : Bank) (g : Nat) : List Nat :=
  (b.cats.map fun e => e.2.toNat).filter fun v =>
    decide (field v 63 63 = 1) && decide (field v 27 14 ≤ g) && decide (g ≤ field v 13 0)
/-- Whether a catchment entry holds a grain (R144). -/
def catHolds (v g : Nat) : Bool :=
  let base := (if field v 62 62 = 1 then 65536 else 0) + field v 61 45
  decide (base ≤ g) && decide (g ≤ base + field v 44 28)
/-- Whether a segment's catchments hold a grain. -/
def caught (b : Bank) (seg g : Nat) : Bool := (catsOf b seg).any fun v => catHolds v g

/-! ## Views and journals -/

/-- A bit of task n's view (R89). -/
def viewBit (s : State) (n a : Nat) : Bool :=
  (Tab.get none (task s n).ownBits a).getD (Tab.get false (task s n).snapBits a)
/-- A word of task n's view. -/
def viewWord (s : State) (n a : Nat) : W24 :=
  (Tab.get none (task s n).ownWords a).getD (Tab.get 0 (task s n).snapWords a)

/-- The grain or data block that a journal entry writes. -/
def jGrain : JEntry → Nat
  | .bit a _ => bitGrain a
  | .word a _ => wordGrain a

/-- Whether a journal entry changes the view (R147). -/
def jChanges (s : State) (n : Nat) : JEntry → Bool
  | .bit a v => viewBit s n a != v
  | .word a v => viewWord s n a != v

/-- RERUN for the segment that tags a grain, unless that is segment `self` (R148). -/
def rerunTag (g : Nat) (self : Option Nat) (s : State) : State :=
  match Tab.get none s.scan.tags g with
  | none => s
  | some t => if self = some t then s else setSegBit s.prog.active t 27 true s

/-- Write one journal entry of segment `seg` of task n into the view (R130, R133, R146 to R149). A release on the
previous bank sets no tag (R261). -/
def viewWrite (n seg : Nat) (e : JEntry) (s : State) : State :=
  let g := jGrain e
  let ch := jChanges s n e && imageGrain g
  let old := decide ((task s n).bank ≠ s.prog.active)
  let s := if ch then rerunTag g (if old then none else some seg) s else s
  let w := segEntry (relBank s n) seg
  let s := if imageGrain g && !old && segPure w && !segRevoked w
           then { s with scan.tags := Tab.set none s.scan.tags g (some seg) } else s
  updTask n (fun t =>
    let t := if t.slots.contains g then t else { t with slots := g :: t.slots }
    let t := if ch then { t with dirty := t.dirty.add g, newPrev := t.newPrev.add g } else t
    match e with
    | .bit a v => { t with ownBits := Tab.set none t.ownBits a (some v) }
    | .word a v => { t with ownWords := Tab.set none t.ownWords a (some v) }) s

/-- Whether a journal's writes fit the slots that the quota leaves (R133, R134). -/
def slotsFit (s : State) (n : Nat) (j : List JEntry) : Bool :=
  let t := task s n
  let sl := j.foldl (fun (sl : List Nat) e => if sl.contains (jGrain e) then sl else jGrain e :: sl) t.slots
  decide (sl.length ≤ quotaOf (relDef s n))

/-- A run at the start of segment g of task n: registers 0, the trap enables at the task's default (R126, R182). -/
def freshRun (s : State) (n g : Nat) : Run :=
  let w := segEntry (relBank s n) g
  { task := n, seg := g, pc := segStart w, direct := segSerial w,
    tsw := BitVec.ofNat 24 (field (relDef s n).trap.toNat 30 28 * 2 ^ 8) }

/-- Drop a core's passes that wait for the supervisor. -/
def dropPasses (s : State) : State :=
  { s with scan.supQueue := s.scan.supQueue.filter fun c =>
      match (core s c).run with | some r => r.supWait | none => false }

/-- A run of core c is counted as squashed (R161). -/
def countSquash (c : Nat) (s : State) : State :=
  updCore c (fun k => { k with squash := satInc k.squash }) { s with scan.squash := satInc s.scan.squash }

/-- Squash the run of core c: it restarts from its first instruction on the same core (R130). -/
def squashCore (c : Nat) (s : State) : State :=
  match (core s c).run with
  | none => s
  | some r =>
    let fr := freshRun s r.task r.seg
    dropPasses (updCore c (fun k => { k with run := some fr }) (countSquash c s))

/-- Squash every other run of task n whose read map holds one of the grains. -/
def squashReaders (c n : Nat) (gs : List Nat) (s : State) : State :=
  (List.range 9).foldl (fun s d =>
    match (core s d).run with
    | none => s
    | some r => if d ≠ c ∧ r.task = n ∧ (r.readMap.any fun g => gs.contains g) then squashCore d s else s) s

/-- Commit a journal (newest first) of segment `seg` of task n, run on core c, into the view (R130). -/
def commitJournal (c n seg : Nat) (j : List JEntry) (s : State) : State :=
  let s := j.reverse.foldl (fun s e => viewWrite n seg e s) s
  let used := (task s n).slots.length
  let s := updTask n (fun t => { t with peak := if t.peak.toNat < used then BitVec.ofNat 16 (min used 0xFFFF) else t.peak }) s
  squashReaders c n (j.map jGrain) s

/-! ## Releasing cores, abandonment and faults -/

/-- Take the run off core c. -/
def freeCore (c : Nat) (s : State) : State :=
  updCore c (fun k => { k with run := none, pcLast := match k.run with | some r => r.pc | none => k.pcLast }) s

/-- Take every run of task n off its core; the speculative ones count as squashed (R95, R140). -/
def dropRuns (n : Nat) (keep : Option Nat) (s : State) : State :=
  (List.range 9).foldl (fun s c =>
    match (core s c).run with
    | none => s
    | some r =>
      if r.task ≠ n ∨ keep = some c then s
      else
        let old := isOldest s c
        let s := freeCore c s
        if old then s else countSquash c s) s

/-- Abandon the release of task n (R95): squash, discard the view, FULL_k (R149, R151). -/
def abandon (n : Nat) (s : State) : State :=
  if released (task s n) then
    let s := dropPasses (dropRuns n none s)
    let s := updTask n (fun t => { t with
      st := .idle, ext := false, snapBits := [], snapWords := [], ownBits := [], ownWords := [], slots := [], queue := [], ctx := none, fullK := true, newPrev := {}, dirty := {}, guarded := false,
      verdict := none, held := false, stepped := false }) s
    { s with scan.served := if s.scan.served = some n then none else s.scan.served,
             depot.waiters := s.depot.waiters.filter fun w =>
               match w with | .program c => ((core s c).run.isSome : Bool) | _ => true }
  else s

/-- A STOP has been accepted: the RUN and the STEPs that were pending are dropped. [Log: DESIGN CHOICE, unsafe, entry 177.] -/
def dropPending (s : State) : State := { s with tsk.runAt := none, tsk.steps := [] }

/-- TASK_FAULT (R98): FAULTED, the accession, and STOP at the next tick edge with FAULT_ACT 1. A stored trigger is kept. [Log: DESIGN CHOICE, unsafe, entry 178.] -/
def faultTask (n : Nat) (s : State) : State :=
  let stop := (relDef s n).cfg.getLsbD 25
  let s := updTask n (fun t => { t with st := .faulted }) (abandon n s)
  let s := accession 2 0x0404 6 (beBytes 1 n) s
  if stop then { dropPending s with tsk.stopAt := some (s.tsk.tick + 1) } else s

/-- Count an overrun of task n (R97): the counters and the accession; whether OVR_LIMIT is reached. -/
def countOverrun (n : Nat) (s : State) : State × Bool :=
  let lim := field (relDef s n).cfg.toNat 23 16
  let s := updTask n (fun t => { t with ovrTotal := satInc t.ovrTotal, ovrConsec := satInc t.ovrConsec }) s
  let s := accession 2 0x0403 4 (beBytes 1 n) s
  (s, decide (lim ≠ 0) && decide ((task s n).ovrConsec.toNat ≥ lim))

/-- VIEW_FULL (R134): an overrun that abandons whatever the policy, and its accession. -/
def viewFull (n : Nat) (s : State) : State :=
  let (s, lim) := countOverrun n s
  let s := accession 1 0x0406 5 (beBytes 1 n) s
  if lim then faultTask n s else abandon n s

/-- Whether this standby runs task n in step: in STANDBY_IN_STEP, or joined during a resynchronisation (R393). -/
def follows (s : State) (n : Nat) : Bool := s.red.role = 3 || (s.red.role = 2 && s.red.resync.joined.contains n)

/-- The last segment has committed: DONE, with the times of R121. A standby in step reports DONE (R380). [Log: DEDUCED, unsafe, entry 16.] -/
def finishTask (n : Nat) (s : State) : State :=
  let dt := min (ticksSince (task s n).lt.toNat s.tsk.tick.toNat) 0xFFFF
  let s := updTask n (fun t => { t with
    st := .done, execLast := BitVec.ofNat 16 dt,
    execMax := if t.execMax.toNat < dt then BitVec.ofNat 16 dt else t.execMax }) s
  let s := { s with scan.served := if s.scan.served = some n then none else s.scan.served }
  if follows s n then sendSync false 0x06 s.tsk.tick.toNat (taskBytes n (task s n).lt) s else s

/-! ## The sparse-scan decision and dispatch -/

/-- Whether segment g of task n runs (R149, R150). [Log: DESIGN CHOICE, unsafe, entry 161.] -/
def mustRun (s : State) (n g : Nat) : Bool :=
  let t := task s n
  let b := relBank s n
  let w := segEntry b g
  t.fullScan || !segPure w || segRevoked w || segRerun w ||
  (catsOf b g).any fun v => t.dirty.all || t.dirty.gs.any fun x => catHolds v x

/-- The active cores that hold no run. -/
def freeCores (s : State) : List Nat :=
  (List.range 9).filter fun c => (core s c).active && !(core s c).retired && (core s c).run.isNone

/-- The free active core that takes the next segment: of several, a free value says which (R127). [Log: DESIGN CHOICE, safe, entry 19.] -/
def freeCoreOf (s : State) : Option (Nat × State) :=
  match freeCores s with
  | [] => none
  | [c] => some (c, s)
  | c :: l => some ((c :: l).getD ((Config.freeWord s.free).toNat % (l.length + 1)) c, { s with free := s.free + 1 })

/-- Change how segment g of task n stands. -/
def setSeg (n g : Nat) (st : SegSt) (s : State) : State :=
  updTask n (fun t => { t with queue := t.queue.map fun e => if e.1 = g then (g, st) else e }) s

/-- The first segment of a queue that is not dispatched, and whether it is oldest. -/
def nextPending : List (Nat × SegSt) → Option (Nat × Bool)
  | [] => none
  | (g, .pending) :: _ => some (g, true)
  | _ :: q => (q.find? fun e => e.2 = .pending).map fun e => (e.1, false)

/-- The saved context of task n, where it is that of segment g (R141). -/
def ctxOf (s : State) (n g : Nat) : Option Run :=
  match (task s n).ctx with
  | some r => if r.seg = g then some r else none
  | none => none

/-- Put a run of segment g of task n on core c. -/
def startOn (c n g : Nat) (r : Run) (s : State) : State :=
  setSeg n g (.onCore c) (updCore c (fun k => { k with run := some r }) s)

/-- The last segment of a queue that stands on a core, and that core. -/
def lastOnCore (q : List (Nat × SegSt)) : Option (Nat × Nat) :=
  q.reverse.findSome? fun e => match e.2 with | .onCore c => some (e.1, c) | _ => none

/-- Whether every active core runs task n. -/
def holdsAll (s : State) (n : Nat) : Bool :=
  (List.range 9).all fun c => !(core s c).active || (match (core s c).run with | some r => decide (r.task = n) | none => false)

/-- A core for the next segment of task n. Where a failed oldest segment finds every active core at later segments of its task,
none of which can commit before it, the last of them is squashed and gives its core up. [Log: DESIGN CHOICE, unsafe, entry 183.] -/
def coreFor (n : Nat) (oldest : Bool) (s : State) : Option (Nat × State) :=
  match freeCoreOf s with
  | some p => some p
  | none =>
    if oldest && holdsAll s n then
      (lastOnCore (task s n).queue).map fun e => (e.2, setSeg n e.1 .pending (dropPasses (countSquash e.2 (freeCore e.2 s))))
    else none

/-- One dispatch step for task n (R127, R136, R149, R150); none when nothing can be done now. -/
def advanceOne (n : Nat) (s : State) : Option State :=
  if (task s n).st ≠ .running then none
  else match (task s n).queue with
  | [] => some (finishTask n s)
  | (g, .skipped) :: q =>
    if mustRun s n g then some (setSeg n g .pending s)
    else some { updTask n (fun t => { t with queue := q }) s with scan.skipCount := satInc s.scan.skipCount }
  | q =>
    match nextPending q with
    | none => none
    | some (g, oldest) =>
      match (if oldest then ctxOf s n g else none) with
      | some r => (coreFor n true s).map fun p => startOn p.1 n g r p.2
      | none =>
        if mustRun s n g then
          if segSerial (segEntry (relBank s n) g) && !oldest then none
          else match coreFor n oldest s with
            | none => none
            | some (c, s) =>
              let s := startOn c n g (freshRun s n g) s
              some (if segSerial (segEntry (relBank s n) g)
                    then updCore c (fun k => { k with serial := satInc k.serial }) s else s)
        else some (setSeg n g .skipped s)

/-- Dispatch until nothing more can be done. -/
def advanceLoop (n : Nat) : Nat → State → State
  | 0, s => s
  | k + 1, s => match advanceOne n s with
    | none => s
    | some s => advanceLoop n k s

/-- Skip and dispatch what can be skipped and dispatched now for task n. -/
def advance (n : Nat) (s : State) : State := advanceLoop n (3 * (task s n).queue.length + 3) s

/-! ## Giving the cluster (R101, R102) -/

/-- A task that wants the cluster. -/
def wants (t : Task) : Bool := !t.held && (t.st = .ready || t.st = .running || t.st = .preempted)

/-- Whether task a is served before task b: priority, then release tick, then number (R101). -/
def before (s : State) (a b : Nat) : Bool :=
  let pa := prioOf (relDef s a)
  let pb := prioOf (relDef s b)
  let la := ticksSince (task s a).lt.toNat s.tsk.tick.toNat
  let lb := ticksSince (task s b).lt.toNat s.tsk.tick.toNat
  decide (pa < pb) || (decide (pa = pb) && (decide (lb < la) || (decide (la = lb) && decide (a < b))))

/-- The task to serve among those that want the cluster. -/
def bestTask (s : State) : Option Nat :=
  ((List.range 32).filter fun n => wants (task s n)).foldl
    (fun (m : Option Nat) n => match m with | none => some n | some k => if before s n k then some n else some k) none

/-- PREEMPTION of task n (R102, R140, R141): its speculative segments are squashed; its oldest is to be suspended. -/
def preempt (n : Nat) (s : State) : State :=
  let keep : Option Nat := match (task s n).queue with | (_, .onCore c) :: _ => some c | _ => none
  let s := dropRuns n keep s
  let s := dropPasses s
  let s := match keep with
    | none => s
    | some c => updCore c (fun k => { k with run := k.run.map fun r => { r with suspend := true } }) s
  updTask n (fun t => { t with st := .preempted, queue := t.queue.map fun e =>
    match e.2 with
    | .onCore c => if keep = some c then e else (e.1, .pending)
    | _ => (e.1, .pending) }) s

/-- Start or resume serving task n. -/
def serve (n : Nat) (s : State) : State :=
  let s := { s with scan.served := some n }
  let s := updTask n (fun t => { t with st := .running }) s
  let s := match (task s n).queue with
    | (_, .onCore c) :: _ => updCore c (fun k => { k with run := k.run.map fun r => { r with suspend := false } }) s
    | _ => s
  advance n s

/-- Give the cluster to the task that R101 names, preempting the served one only for a strictly higher priority. -/
def giveOnce (s : State) : State :=
  match bestTask s with
  | none => { s with scan.served := none }
  | some k =>
    match s.scan.served with
    | none => serve k s
    | some m =>
      if m = k then advance m s
      else if wants (task s m) ∧ ¬ prioOf (relDef s k) < prioOf (relDef s m) then advance m s
      else serve k (if (task s m).st = .running then preempt m s else s)

/-- Give the cluster, turning at once to the next task when the served one finishes (R102). -/
def giveLoop : Nat → State → State
  | 0, s => s
  | k + 1, s =>
    let s := giveOnce s
    if s.scan.served.isNone && (bestTask s).isSome then giveLoop k s else s

/-- Give the cluster to the highest-priority released task (R84, R101). -/
def giveCluster (s : State) : State := giveLoop 33 s

end Sys2Proof.Machine
end

