-- ==== Sys2Proof/Machine/PortOps.lean ====
section
/-! DEFINITION. What the ports share: event triggers (R78 to R80), writes of input buffers with their field event
edges (R414), mapping checks (R69), version negotiation (R49), roles that may transmit (R367), and port messages with
their mailboxes (R225, R226). -/

namespace Sys2Proof.Machine

/-- Highest common version of the module's ranges and an offer (R49): major and minor; none is management only. -/
def negotiate (own offer : List VerRange) : Option (Nat × Nat) :=
  let common := fun (m : Nat) =>
    own.flatMap fun a => if a.1.toNat ≠ m then [] else offer.filterMap fun b =>
      if b.1.toNat ≠ m then none
      else if max a.2.1.toNat b.2.1.toNat ≤ min a.2.2.toNat b.2.2.toNat then some (min a.2.2.toNat b.2.2.toNat) else none
  let majors := (own.map (·.1.toNat)).filter fun m => (common m) ≠ []
  match majors with
  | [] => none
  | m :: ms => let best := ms.foldl max m
               some (best, (common best).foldl max 0)

/-- Whether the module is in reset (R61, R590). -/
def inReset (s : State) : Bool := s.sys.boot = .off || s.sys.boot = .reset

/-- Whether MDC and MDIO are driven: in reset they are high-impedance (R590), and a sleeping module sends nothing (R483). -/
def mdioDriven (s : State) : Bool := !inReset s && !s.sys.asleep

/-- Whether the module's ports transmit: started up, awake, and in no standby role (R61, R367, R483). -/
def mayTransmit (s : State) : Bool := s.sys.boot = .ready && !s.sys.asleep && !standby s

/-! ## Triggers -/

/-- Whether a definition takes trigger `idx` of source `src` with this edge (R118). -/
def trigMatches (d : TaskDef) (src idx : Nat) (rising : Bool) : Bool :=
  let w := d.trig.toNat
  present d && kindOf d = 1 && field w 31 28 = src && field w 25 20 = idx &&
  (src = 3 || (if rising then field w 26 26 = 1 else field w 27 27 = 1))

/-- A trigger completes into FEN (R79): taken at the next tick edge, in RUN only; a partner that is not the active one
takes none of its own (R81). -/
def raiseTrigger (src idx : Nat) (rising : Bool) (s : State) : State :=
  if s.tsk.mode ≠ .run ∨ standby s then s
  else { s with tsk.triggers := s.tsk.triggers ++
    ((List.range 32).filter fun n => trigMatches (taskDef s n) src idx rising) }

/-- The field event bits that name a bit address (R414). -/
def eventsAt (s : State) (a : Nat) : List Nat :=
  (s.ports.fld.evts.filter fun e => e.2.1 && decide (e.2.2.toNat = a)).map (·.1)

/-! ## Input buffers -/

/-- Write bits of the input buffers without field events. -/
def putRaw (base : Nat) (vals : List Bool) (s : State) : State :=
  { s with tsk.inBits := Tab.setRange false s.tsk.inBits base vals }

/-- A field port writes one bit of its input buffer; a change of a named bit is an edge (R414). -/
def putBit (a : Nat) (v : Bool) (s : State) : State :=
  if Tab.get false s.tsk.inBits a = v then s
  else (eventsAt s a).foldl (fun s e => raiseTrigger 2 e v s)
    { s with tsk.inBits := Tab.set false s.tsk.inBits a v }

/-- A field port writes bits of its input buffer from a bit address. -/
def putBits (base : Nat) (vals : List Bool) (s : State) : State :=
  vals.zipIdx.foldl (fun s e => putBit (base + e.2) e.1 s) s

/-- A port writes words of its input buffer from a word address. -/
def putWords (base : Nat) (vals : List W24) (s : State) : State :=
  { s with tsk.inWords := Tab.setRange 0 s.tsk.inWords base vals }

/-- Bits of the output buffers. -/
def outBitsAt (s : State) (base n : Nat) : List Bool := Tab.range false s.tsk.outBits base n
/-- Words of the output buffers. -/
def outWordsAt (s : State) (base n : Nat) : List W24 := Tab.range 0 s.tsk.outWords base n

/-- Whether every grain from that of `base` to that of the last of `n` points satisfies `p`. -/
def allGrains (size base n : Nat) (p : Nat → Bool) : Bool :=
  n = 0 || (List.range ((base + n - 1) / size - base / size + 1)).all fun i => p (base / size + i)

/-- Whether bits lie wholly in regions of a class (R69). -/
def bitsIn (s : State) (cls base n : Nat) : Bool :=
  decide (base + n ≤ 2 ^ 22) && allGrains 64 base n fun g =>
    match regionAt s.prog.bitReg g with | some r => r.cls.toNat = cls | none => false

/-- Whether words lie wholly in regions of a class (R69). -/
def wordsIn (s : State) (cls base n : Nat) : Bool :=
  decide (base + n ≤ 2 ^ 20) && allGrains 8 base n fun g =>
    match regionAt s.prog.wordReg g with | some r => r.cls.toNat = cls | none => false

/-- The owners of the OUTPUT regions that hold `n` points from `base`. -/
def ownersOf (rs : List Region) (size base n : Nat) : List Nat :=
  if n = 0 then []
  else (List.range ((base + n - 1) / size - base / size + 1)).filterMap fun i =>
    (regionAt rs (base / size + i)).map (·.owner.toNat)

/-! ## Port messages -/

/-- Serial-class port q. -/
def ser (s : State) (q : Nat) : Ser := Tab.get {} s.ports.ser q
/-- Change serial-class port q. -/
def updSer (q : Nat) (f : Ser → Ser) (s : State) : State := { s with ports.ser := Tab.upd {} s.ports.ser q f }
/-- Whether the feature of port q is enabled. -/
def serEnabled (s : State) (q : Nat) : Bool := decide (q < 6) && enabled s (serFeature q).1 (serFeature q).2

/-- The mailbox of a port (R226). -/
def mboxOf (x : Ser) : Option W24 :=
  match x.rs485, x.mbus, x.can with
  | some c, _, _ => c.mbox
  | none, some c, _ => c.mbox
  | none, none, some c => c.mbox
  | none, none, none => none

/-- Write the whole mailbox of port q; a standby writes none itself (R226). -/
def writeMailbox (q : Nat) (tag : W24) (status : Nat) (reply : List Byte) (s : State) : State :=
  match if standby s then none else mboxOf (ser s q) with
  | none => s
  | some a => putWords a.toNat
      ([tag, BitVec.ofNat 24 status, BitVec.ofNat 24 reply.length] ++ words3 (padTo 258 reply)) s

/-- Data lengths of a CAN frame by DLC (R423, ISO 11898-1). -/
def canLens : List Nat := [0, 1, 2, 3, 4, 5, 6, 7, 8, 12, 16, 20, 24, 32, 48, 64]

/-- The C fields that are sent as a short frame: SND_NKE, and REQ_UD2 with either FCB (R225, R419). -/
def shortFrame (c : Byte) : Bool := c = 0x40 || c = 0x5B || c = 0x7B

/-- Whether an identifier fits its format (R225): 29 bits where bit 31 is set, and 11 bits where it is not. -/
def identFits (id : Nat) : Bool := if 2 ^ 31 ≤ id then decide (id - 2 ^ 31 < 2 ^ 29) else decide (id < 2 ^ 11)

/-- Whether a message fits its kind of port (R225): a long frame has C, A and CI fields. A CAN message with BRS set and FDF clear fits,
and is sent as a classical frame. [Log: DESIGN CHOICE, unsafe, entry 222; DESIGN CHOICE, unsafe, entry 245.] -/
def messageFits (q : Nat) (b : List Byte) : Bool :=
  if q < 2 then decide (2 ≤ b.length ∧ b.length ≤ 254)
  else if q < 4 then decide (2 ≤ b.length ∧ b.length ≤ 255) && (shortFrame (b.getD 0 0) || decide (3 ≤ b.length))
  else decide (5 ≤ b.length) && canLens.contains (b.length - 5) && identFits (beNat (b.take 4)) &&
       (decide (b.length ≤ 13) || (b.getD 4 0).getLsbD 0)

/-- Whether port q takes messages: enabled, master, and not listen-only (R225). -/
def takesMessages (s : State) (q : Nat) : Bool :=
  serEnabled s q &&
  (match (ser s q).rs485 with | some c => c.master | none => decide (2 ≤ q)) &&
  (match (ser s q).can with | some c => !c.listen | none => true)

/-- MSGSND at port q (R225): queued, or closed as not sent (3) or dropped (4), which its mailbox shows at the next
tick edge. A standby keeps the same account, and sends nothing (R226, R367). A number
above 5 names no port. [Log: DEDUCED, unsafe, entry 206; DESIGN CHOICE, unsafe, entry 244.] -/
def sendMessage (q : Nat) (tag : W24) (bytes : List Byte) (ok : Bool) (s : State) : State :=
  if q ≥ 6 then s
  else
    let m : PortMsg := ⟨tag, bytes⟩
    if !ok ∨ !takesMessages s q ∨ !messageFits q bytes then
      updSer q (fun x => { x with closing := x.closing ++ [(m, 3)] }) s
    else if (ser s q).queue.length ≥ 8 then updSer q (fun x => { x with closing := x.closing ++ [(m, 4)] }) s
    else updSer q (fun x => { x with queue := x.queue ++ [m] }) s

/-- The mailboxes of messages not sent or dropped are written at the tick edge (R226). [Log: DEDUCED, unsafe, entry 46.] -/
def flushClosing (s : State) : State :=
  (List.range 6).foldl (fun s q =>
    let l := (ser s q).closing
    let s := updSer q (fun x => { x with closing := [] }) s
    l.foldl (fun s e => writeMailbox q e.1.tag e.2.toNat [] s) s) s

end Sys2Proof.Machine
end

