-- ==== Sys2Proof/Machine/Field.lean ====
section
/-! DEFINITION. Field Ethernet ports and Plainline (R400 to R414, R433, R434). -/

namespace Sys2Proof.Machine

/-- Field port p. -/
def fport (s : State) (p : Nat) : FPort := Tab.get {} s.ports.fld.ports p
/-- Change field port p. -/
def updPort (p : Nat) (f : FPort → FPort) (s : State) : State := { s with ports.fld.ports := Tab.upd {} s.ports.fld.ports p f }
/-- Node n. -/
def node (s : State) (n : Nat) : Node := Tab.get {} s.ports.fld.nodes n
/-- Change node n. -/
def updNode (n : Nat) (f : Node → Node) (s : State) : State := { s with ports.fld.nodes := Tab.upd {} s.ports.fld.nodes n f }

/-- Plainline versions of the module (R49). -/
def plRanges : List VerRange := [(1, 0, 3)]

/-- MAP of a node's IN frames (R405). -/
def inMap (e : PlNode) : W32 := BitVec.ofNat 32 (e.layoutRev.toNat * 2 ^ 24 + e.inBits.toNat * 2 ^ 10 + e.inWords.toNat)

/-- The health region shows which nodes are RUNNING (R410). [Log: DEDUCED, unsafe, entry 73.] -/
def showHealth (n : Nat) (s : State) : State :=
  if s.ports.fld.healthEn then
    putBits (64 * s.ports.fld.grain.toNat + n) [(node s n).st = .running] s
  else s

/-- A node enters a state. -/
def setNode (n : Nat) (st : NodeSt) (s : State) : State := showHealth n (updNode n (fun x => { x with st := st }) s)

/-- A frame leaves field port p; one that meets a closed gate is counted as it waits (R403). -/
def countTx (p queue : Nat) (s : State) : State :=
  updPort p (fun f =>
    let shut := f.gateList && !((f.gates.getD f.qbv.toNat (0xFF, 0)).1.getLsbD queue)
    { f with tx := satInc f.tx, gateWait := if shut then satInc f.gateWait else f.gateWait }) s

/-- MAP of a node's OUT frames (R405). -/
def outMap (e : PlNode) : Nat := e.layoutRev.toNat * 2 ^ 24 + e.outBits.toNat * 2 ^ 10 + e.outWords.toNat

/-- The VER byte of frames to a node (R405): the version negotiated with it, before that the lowest one. [Log: DESIGN CHOICE, unsafe, entry 196.] -/
def plVer (x : Node) : Nat := if x.ver = 0 then 0x10 else x.ver.toNat

/-- The ports that carry a node's frames: its own, or both of the pair (R404, R411). -/
def nodePorts (s : State) (x : Node) (e : PlNode) : List Nat :=
  let p := e.port.toNat
  if e.flags.getLsbD 1 && frerOn s p && decide (0x13 ≤ x.ver.toNat) then [p, p + 1] else [p]

/-- Whether Plainline runs on a node's port. -/
def plRuns (s : State) (e : PlNode) : Bool := enabled s 0x11 0 && enabled s 0x10 e.port.toNat

/-- PCP of a node's frames: its TAG's, default queue 6 (R407). -/
def pcpOf (e : PlNode) : Nat := field e.tag.toNat 15 13

/-- Send a Plainline payload to a node on its ports; a copy that goes on both ports of a pair has the node's next sequence number in
an R-TAG (R401, R404). -/
def sendPlainline (n : Nat) (e : PlNode) (ps : List Nat) (payload : List Byte) (s : State) : State :=
  let pair := decide (1 < ps.length)
  let rtag := if pair then some (node s n).rseq.toNat else none
  let s := ps.foldl (fun s p =>
    countTx p (pcpOf e) (emit (.plainline (BitVec.ofNat 3 p) (plainlineFrame e.mac.toNat (portMac p) e.tag.toNat rtag payload)) s)) s
  if pair then updNode n (fun x => { x with rseq := x.rseq + 1 }) s else s

/-- Send a CFG request to node n (R404, R411): the version ranges, HOLD and the expected MAP. -/
def sendCfg (n : Nat) (s : State) : State :=
  match (node s n).entry with
  | none => s
  | some e =>
    if mayTransmit s && plRuns s e then
      sendPlainline n e (nodePorts s (node s n) e) (plPayload (plOpen (plVer (node s n)) 3 s.red.epoch.toNat 0 n 0 0
        (Config.cfgMessage plRanges e.hold.toNat (inMap e).toNat))) s
    else s

/-- One more miss of a node (R409). [Log: DEDUCED, unsafe, entry 38.] -/
def countMiss (n : Nat) (e : PlNode) (s : State) : State :=
  let s := updNode n (fun x => { x with miss := satInc x.miss }) { s with ports.fld.miss := satInc s.ports.fld.miss }
  if (node s n).st = .running ∧ (node s n).miss.toNat ≥ e.lossLimit.toNat then
    let s := accession 0 0x0A01 4 (beBytes 2 n) (setNode n .lost s)
    if e.flags.getLsbD 2 then
      putWords e.inWordBase.toNat (List.replicate e.inWords.toNat 0)
        (putBits e.inBitBase.toNat (List.replicate e.inBits.toNat false) s)
    else s
  else s

/-- A send point of node n at the present tick edge (R408). A standby in step computes it and sends nothing (R413). -/
def sendPoint (n : Nat) (s : State) : State :=
  match (node s n).entry with
  | none => s
  | some e =>
    let x := node s n
    if (x.st ≠ .running ∧ x.st ≠ .lost) ∨ !plRuns s e ∨ !(mayTransmit s || decide (s.red.role = 3)) then s
    else
      let s := if x.await then countMiss n e s else s
      let s := updNode n (fun x => { x with cycle := s.tsk.tick.setWidth 32, sentAt := some s.tsk.tick.toNat, await := true, win := true }) s
      if mayTransmit s then
        let data := packPoints (outBitsAt s e.outBitBase.toNat e.outBits.toNat) (outWordsAt s e.outWordBase.toNat e.outWords.toNat)
        sendPlainline n e (nodePorts s x e)
          (plPayload (plOpen (plVer x) 1 s.red.epoch.toNat (s.tsk.tick.toNat % 2 ^ 32) n (outMap e) 0 data)) s
      else s

/-- Whether a POLL send point of a node falls on tick t (R408). -/
def pollDue (x : Node) (e : PlNode) (t : Nat) : Bool :=
  if e.outBits = 0 ∧ e.outWords = 0 then t % e.poll.toNat = 0 && x.sentAt ≠ some t
  else match x.sentAt with
    | none => true
    | some l => decide (e.poll.toNat ≤ ticksSince l t)

/-- Whether a tick edge is a send point of a node (R408): its owner committed, or POLL has passed. -/
def sendsAt (done : List Nat) (t : Nat) (x : Node) : Bool :=
  (match x.owner with | some k => done.contains k | none => false) ||
  (match x.entry with | some e => pollDue x e t | none => false)

/-- The send points of a tick edge, in ascending NODE order (R408). [Log: DEDUCED, unsafe, entry 197.] -/
def commitSends (done : List Nat) (s : State) : State :=
  s.ports.fld.nodes.foldl (fun s e => if sendsAt done s.tsk.tick.toNat (node s e.1) then sendPoint e.1 s else s) s

/-- Whether a frame is from the node that its entry names, whichever port it came by (R409). -/
def fromNode (e : PlNode) (f : PlFrame) : Bool := f.src = e.mac

/-- The bytes of a received frame over which its E2E check value is computed (R405). -/
def plFields (type : Nat) (f : PlFrame) : List Byte :=
  plOpen f.ver.toNat type f.epoch.toNat f.cycle.toNat f.node.toNat f.map.toNat f.flags.toNat f.data

/-- Whether the E2E check of a frame passes (R406). -/
def e2eOk (type : Nat) (f : PlFrame) : Bool := decide (crc32c (plFields type f) = f.e2e.toNat)

/-- The bits and words that a frame's MAP gives (R405). -/
def mapSizes (map : W32) : Nat × Nat := (field map.toNat 23 10, field map.toNat 9 0)

/-- Whether a frame's length matches MAP (R406): in an IN frame n is what MAP gives, and at most 1,480; in others MAP is 0. -/
def lenOk (type : Nat) (f : PlFrame) : Bool :=
  if type = 2 then
    let m := mapSizes f.map
    f.data.length = (m.1 + 7) / 8 + 3 * m.2 && decide (f.data.length ≤ 1480)
  else f.map = 0

/-- Whether a Plainline frame passes R406. -/
def plGood (type : Nat) (f : PlFrame) : Bool := f.fcsOk && e2eOk type f && lenOk type f

/-- A Plainline frame that fails R406 is counted and, where its check value failed, at channel 0 (R427). -/
def badPlFrame (type : Nat) (f : PlFrame) (s : State) : State :=
  let s := updPort f.port.toNat (fun p => { p with e2e := satInc p.e2e, fcs := if f.fcsOk then p.fcs else satInc p.fcs }) s
  if e2eOk type f then s
  else { s with ports.crc := Tab.upd {} s.ports.crc 0 fun c => { c with err := true, mismatch := satInc c.mismatch } }

/-- The copy of a replicated frame that recovery kept is used up, whether its payload passes R406 or not (R404). -/
def dropKept (f : PlFrame) (s : State) : State :=
  match f.rtag with
  | some q => if f.fcsOk then updPort (f.port.toNat - f.port.toNat % 2) (fun x => { x with kept := x.kept.erase q }) s else s
  | none => s

/-- A Plainline frame is taken when it passes R406; one with an R-TAG is the copy that recovery kept (R404). [Log: DESIGN CHOICE, unsafe, entry 198.] -/
def plRx (type : Nat) (f : PlFrame) (s : State) (g : State → State) : State :=
  if !plGood type f then badPlFrame type f (dropKept f s)
  else match f.rtag with
    | none => g s
    | some q =>
      let p := f.port.toNat - f.port.toNat % 2
      if frerOn s p then
        if (fport s p).kept.contains q then g (updPort p (fun x => { x with kept := x.kept.erase q }) s) else s
      else g s

/-- Discard an IN frame (R409). -/
def discardIn (f : PlFrame) (s : State) : State := updPort f.port.toNat (fun p => { p with inDisc := satInc p.inDisc }) s

/-- An accepted IN frame of node n (R409). -/
def acceptIn (n : Nat) (e : PlNode) (f : PlFrame) (s : State) : State :=
  let back := decide ((node s n).st = .lost)
  let m := mapSizes f.map
  let nb := (m.1 + 7) / 8
  let s := updNode n (fun x => { x with await := false, miss := 0, safe := f.flags.getLsbD 0 && decide (0x12 ≤ x.ver.toNat) }) s
  let s := putBits e.inBitBase.toNat ((unpackBits (f.data.take nb)).take (min m.1 e.inBits.toNat)) s
  let s := putWords e.inWordBase.toNat ((words3 (f.data.drop nb)).take e.inWords.toNat) s
  if back then sendCfg n (accession 0 0x0A02 2 (beBytes 2 n) (setNode n .running s)) else s

/-- Whether RESP ticks have passed at tick t since the latest send point (R409). -/
def respOver (x : Node) (e : PlNode) (t : Nat) : Bool :=
  match x.sentAt with
  | some l => decide (e.resp.toNat ≤ ticksSince l t)
  | none => false

/-- An IN frame (R409): of its MAP the layout revision counts. A standby that is not in step accepts none (R413). [Log: DEDUCED, unsafe, entry 37.] -/
def inFrame (f : PlFrame) (s : State) : State :=
  let n := f.node.toNat
  let x := node s n
  match x.entry with
  | none => discardIn f s
  | some e =>
    let inTime := x.win && x.sentAt.isSome && !respOver x e s.tsk.tick.toNat
    if fromNode e f && decide (field f.map.toNat 31 24 = e.layoutRev.toNat) && decide (f.cycle = x.cycle) && inTime && plRuns s e &&
       decide (s.red.role ≠ 2) && decide (s.red.role ≠ 4) then acceptIn n e f s
    else discardIn f s

/-- RESP of node n passes (R409). -/
def respExpiry (n : Nat) (s : State) : State :=
  let x := node s n
  match x.entry with
  | some e =>
    if x.win && respOver x e (addTicks s.tsk.tick.toNat 1) then
      let s := updNode n (fun x => { x with win := false, await := false }) s
      if x.await then countMiss n e s else s
    else s
  | none => s

/-- A CFG response (R411): the version, then the MAP. -/
def cfgResponse (f : PlFrame) (offer : List VerRange) (map : W32) (s : State) : State :=
  let n := f.node.toNat
  match (node s n).entry with
  | none => s
  | some e =>
    if !fromNode e f || !plRuns s e then s
    else match negotiate plRanges offer with
      | none => setNode n .mgmt (updNode n (fun x => { x with ver := 0 }) s)
      | some (ma, mi) =>
        let s := updNode n (fun x => { x with ver := BitVec.ofNat 8 (16 * ma + mi) }) s
        if map ≠ inMap e then setNode n .cfgErr s
        else if (node s n).st = .lost then s
        else setNode n .running (updNode n (fun x => { x with miss := 0, sentAt := x.sentAt.or (some s.tsk.tick.toNat) }) s)

/-- The DIAG response of a node (R411): of its counters the epoch discards show in FLD_PL_NODE_STATUS. Where they stand among the
32 bytes is not given. [Log: DESIGN CHOICE, safe, entry 39.] -/
def diagResponse (f : PlFrame) (s : State) : State :=
  let n := f.node.toNat
  match (node s n).entry with
  | none => s
  | some e =>
    if !fromNode e f || !plRuns s e then s
    else
      let (w, s) := drawWord s
      updNode n (fun x => { x with epochDisc := w.setWidth 8 }) s

/-- The RUNNING node to poll next (R411), on a port that runs: the first at or after the last one polled, else the first. -/
def nextDiag (s : State) : Option Nat :=
  let l := (s.ports.fld.nodes.filter fun n => n.2.st = .running && n.2.entry.any (plRuns s)).map (·.1)
  match l.find? (s.ports.fld.diagNext ≤ ·) with
  | some n => some n
  | none => l.head?

/-- The DIAG poll (R411). -/
def diagPoll (s : State) : State :=
  if !enabled s 0x11 0 || !mayTransmit s then s
  else match nextDiag s with
    | none => s
    | some n => match (node s n).entry with
      | none => s
      | some e =>
        sendPlainline n e (nodePorts s (node s n) e) (plPayload (plOpen (plVer (node s n)) 4 s.red.epoch.toNat 0 n 0 0 Config.diagMessage))
          { s with ports.fld.diagNext := n + 1 }

/-- PLAINLINE is enabled: a CFG request goes to every node (R411). -/
def startPlainline (s : State) : State :=
  s.ports.fld.nodes.foldl (fun s e => if e.2.entry.isSome then sendCfg e.1 (setNode e.1 .cfg s) else s) s

/-- A CFG request goes to every node that no CFG response has put in operation, as soon as the module may transmit (R61, R391, R411). -/
def askNodes (s : State) : State :=
  s.ports.fld.nodes.foldl (fun s e => if (node s e.1).st = .cfg then sendCfg e.1 s else s) s

/-- PLAINLINE is disabled: no node runs. -/
def stopPlainline (s : State) : State :=
  s.ports.fld.nodes.foldl (fun s e =>
    setNode e.1 (if e.2.entry.isSome then .cfg else .unused) (updNode e.1 (fun x => { x with await := false, win := false }) s)) s

/-! ## Replication -/

/-- A copy that a stream's history already holds, and the numbers that a step of the history leaves unseen (R404): the stream
afterwards, whether the frame is kept, whether it is a copy, and how many numbers are lost. A number outside the history of 32 is
discarded. -/
def recoverStep (seq : BitVec 16) (x : Stream) : Stream × Bool × Bool × Nat :=
  let d := (seq - x.last).toInt
  if d ≤ 0 then
    if d ≤ -32 then (x, false, false, 0)
    else if x.seen.contains seq then (x, false, true, 0)
    else ({ x with seen := seq :: x.seen }, true, false, 0)
  else if d ≥ 32 then (x, false, false, 0)
  else
    let gone := (List.range d.toNat).filter fun i =>
      decide (31 < x.fill + i) && !x.seen.contains (x.last - 31 + BitVec.ofNat 16 i)
    let seen := x.seen.filter fun y => decide ((seq - y).toNat < 32)
    ({ x with last := seq, seen := seq :: seen, fill := min 32 (x.fill + d.toNat) }, true, false, gone.length)

/-- Vector recovery of a stream at a port pair (R401, R404): the first copy is kept for Plainline, other copies are eliminated. -/
def recover (dst : BitVec 48) (vid : BitVec 12) (seq : BitVec 16) (f : FPort) : FPort :=
  let mine := fun (x : Stream) => decide (x.dst = dst ∧ x.vid = vid)
  match f.streams.find? mine with
  | none => { f with streams := f.streams ++ [⟨dst, vid, seq, [seq], 1⟩], kept := f.kept ++ [(dst, vid, seq)] }
  | some x =>
    let r := recoverStep seq x
    { f with streams := f.streams.map (fun y => if mine y then r.1 else y),
             kept := if r.2.1 then f.kept ++ [(dst, vid, seq)] else f.kept,
             elim := if r.2.2.1 then satInc f.elim else f.elim, lost := satAdd f.lost r.2.2.2 }

/-- Whether field port p accepts a frame (R402). -/
def accepts (s : State) (p : Nat) (f : FieldFrame) : Bool :=
  (f.etype = 0x88B5 && (f.dst.toNat = portMac p || s.ports.fld.groups.contains f.dst)) ||
  (f.etype = 0x88F7 && f.dst = 0x0180C200000E#48) || (f.etype = 0xF1C1 && frerOn s p)

/-- Whether a frame's EtherType is Plainline's, or that of an R-TAG, which only Plainline frames carry (R404, R405). -/
def plType (s : State) (p : Nat) (f : FieldFrame) : Bool := f.etype = 0x88B5 || (f.etype = 0xF1C1 && frerOn s p)

/-- A frame at field port p (R401, R402, R404, R406). -/
def fieldFrame (p : Nat) (f : FieldFrame) (s : State) : State :=
  if !enabled s 0x10 p then s
  else if !f.fcsOk then
    updPort p (fun x => { x with fcs := satInc x.fcs, e2e := if plType s p f then satInc x.e2e else x.e2e }) s
  else if f.len > 1522 || !accepts s p f then updPort p (fun x => { x with drop := satInc x.drop }) s
  else
    let s := updPort p (fun x => { x with rx := satInc x.rx }) s
    match f.rtag with
    | some q => if f.etype = 0xF1C1 then updPort (p - p % 2) (recover f.dst f.vid q) s else s
    | none => s

/-! ## The rows -/

/-- The addresses of the PHYs on the MDIO bus (R592): field port p at p + 1, the host PHY at 0x09. -/
def phyAddresses : List (BitVec 5) := (List.range 8).map (fun p => BitVec.ofNat 5 (p + 1)) ++ [0x09]

/-- PHY_POLL (R400, R590). -/
def execPhyPoll (links : BitVec 8) (s : State) : Host.Outcome State Fault Refusal :=
  .next (if !mdioDriven s then s
    else (List.range 8).foldl (fun s p =>
      updPort p (fun f => { f with link := links.getLsbD p, asSync := f.asSync && links.getLsbD p }) s)
        (phyAddresses.foldl (fun s a => emit (.mdio a) s) s))

/-- FIELD_FRAME_RX (R402). -/
def execFieldFrameRx (port : BitVec 3) (f : FieldFrame) (s : State) : Host.Outcome State Fault Refusal :=
  .next (fieldFrame port.toNat f s)

/-! ## Timebase sources (R72, R74, R75, R114) -/

/-- A number saturated to a signed 24-bit register (R115). -/
def sat24 (v : Int) : BitVec 24 := BitVec.ofInt 24 (max (-0x800000) (min 0x7FFFFF v))

/-- A TIMEBASE accession (R75). With PPS_LOCKED_ONLY a pulse of PPS_OUT ends as LOCKED clears (R430). -/
def timebaseAcc (s : State) : State :=
  accession 0 0x0402 3 [BitVec.ofNat 8 (b01 s.tsk.locked), BitVec.ofNat 8 s.tsk.activeSrc.toNat]
    { s with ports.ppsHigh := s.ports.ppsHigh && (s.tsk.locked || !s.ports.tbFlags.getLsbD 1) }

/-- The port of the 802.1AS slave (R114). -/
def asPort (s : State) : Nat := field s.tsk.tbCtrl.toNat 14 12

/-- Whether a source of the priority list is available (R72, R114). An active or simplex module skips the partner entry, and a
standby in step uses the partner whatever the list holds (R74), so that the entry serves a standby outside the step.
[Log: DESIGN CHOICE, unsafe, entry 211; DEDUCED, unsafe, entry 214.] -/
def available (s : State) (code : Nat) : Bool :=
  match code with
  | 1 => (fport s (asPort s)).asSync
  | 2 => enabled s 0x20 0 && s.ports.tinPin ≠ 0xFF && s.ports.tinUp
  | 3 => (s.red.role = 2 || s.red.role = 4) && s.red.syncUp && s.red.peerRole = 1
  | _ => false

/-- The source that the timebase disciplines to: the partner for a standby in step (R74), the head for another member of a basin
once it has sent TICK_SYNC (R339), else the first available source of the list (R72); 0 where there is none. -/
def pickSource (s : State) : BitVec 4 :=
  if s.red.role = 3 then 3
  else if inBasin s && !s.pas.head then (if s.tsk.activeSrc = 4 then 4 else 0)
  else
    let w := s.tsk.tbCtrl.toNat
    BitVec.ofNat 4 (([field w 11 8, field w 7 4, field w 3 0].find? (available s)).getD 0)

/-- The active source becomes the one to discipline to; a change writes an accession and starts the lock again (R75). -/
def retime (s : State) : State :=
  let c := pickSource s
  if c = s.tsk.activeSrc then s
  else timebaseAcc { s with tsk.activeSrc := c, tsk.locked := false, tsk.offset := if c = 0 then 0 else s.tsk.offset }

/-- A measured offset to the active source: LOCKED clears beyond ±10 µs (R75). -/
def noteOffset (o : BitVec 24) (s : State) : State :=
  let s := { s with tsk.offset := o }
  if s.tsk.locked && decide (10000 < o.toInt.natAbs) then timebaseAcc { s with tsk.locked := false } else s

/-- GPTP_FRAME (R401). -/
def execGptpFrame (port : BitVec 3) (m : GptpMsg) (s : State) : Host.Outcome State Fault Refusal :=
  .next (if !enabled s 0x10 port.toNat then s
    else
      let slave := decide (asPort s = port.toNat)
      let s := updPort port.toNat (fun f => { f with pdelay := m.pdelay, asOfs := if slave then m.offset else f.asOfs, asSync := slave && m.synced }) s
      let s := retime s
      if slave ∧ s.tsk.activeSrc = 1 then noteOffset m.offset s else s)

/-- GPTP_MESSAGE_SEND (R401, R403). -/
def execGptpMessageSend (port : BitVec 3) (s : State) : Host.Outcome State Fault Refusal :=
  .next (if enabled s 0x10 port.toNat && (fport s port.toNat).link && supRuns s then
      countTx port.toNat 7 (emit (.gptp port (fport s port.toNat).gm (fport s port.toNat).prio1) s)
    else s)

/-- Whether a cycle that is aligned to tick `start` and lasts `cycle` ns begins in the tick that follows tick t, its ends
included (R403). -/
def cycleStart (start cycle t : Nat) : Bool :=
  if start = addTicks t 1 then true
  else if !reached start t then false
  else
    let r := 10000 * ticksSince start t % cycle
    r = 0 || decide (cycle ≤ r + 10000)

/-- QBV_GATE_ENTRY (R403): a new list takes effect at the first start of its cycle at or after its tick, an empty one at once from
there on; else the next entry comes into force. [Log: DESIGN CHOICE, unsafe, entry 35.] -/
def gateEntry (p : Nat) (s : State) : State :=
  updPort p (fun f =>
    let next := if f.gateList then { f with qbv := BitVec.ofNat 7 ((f.qbv.toNat + 1) % f.gates.length) } else f
    match f.gatesNext with
    | some (l, c, t) =>
      if cycleStart t.toNat (if l.isEmpty then 1 else c.toNat) s.tsk.tick.toNat then
        { f with gates := l, cycleNs := c, gateTick := t, gatesNext := none, gateList := l ≠ [], qbv := 0 }
      else next
    | none => next) s

/-- QBV_GATE_ENTRY (R403). -/
def execQbvGateEntry (port : BitVec 3) (s : State) : Host.Outcome State Fault Refusal := .next (gateEntry port.toNat s)

/-- FRER_RECOVERY_RESET (R404). -/
def execFrerRecoveryReset (pair : BitVec 2) (s : State) : Host.Outcome State Fault Refusal :=
  .next (updPort (2 * pair.toNat) (fun f => { f with streams := [], kept := [] }) s)

/-- PL_POLL_EXPIRY (R408). -/
def execPlPollExpiry (n : BitVec 12) (s : State) : Host.Outcome State Fault Refusal :=
  .next (match (node s n.toNat).entry with
    | none => s
    | some e => if pollDue (node s n.toNat) e s.tsk.tick.toNat then sendPoint n.toNat s else s)

/-- PL_IN_FRAME (R409). -/
def execPlInFrame (f : PlFrame) (s : State) : Host.Outcome State Fault Refusal := .next (plRx 2 f s (inFrame f))

/-- PL_RESP_EXPIRY (R409). -/
def execPlRespExpiry (n : BitVec 12) (s : State) : Host.Outcome State Fault Refusal := .next (respExpiry n.toNat s)

/-- PL_CFG_RESPONSE (R411). -/
def execPlCfgResponse (f : PlFrame) (offer : List VerRange) (map : W32) (s : State) : Host.Outcome State Fault Refusal :=
  .next (plRx 3 f s (cfgResponse f offer map))

/-- PL_DIAG_POLL (R411). -/
def execPlDiagPoll (s : State) : Host.Outcome State Fault Refusal := .next (diagPoll s)

/-- PL_DIAG_RESPONSE (R411). -/
def execPlDiagResponse (f : PlFrame) (s : State) : Host.Outcome State Fault Refusal := .next (plRx 4 f s (diagResponse f))

/-- Whether a Plainline, Modbus, M-Bus or CAN FD input mapping fills a bit address (R414). -/
def mappedInput (s : State) (a : Nat) : Bool :=
  let hit := fun (base n : Nat) => decide (base ≤ a ∧ a < base + n)
  (s.ports.fld.nodes.any fun n => match n.2.entry with
    | some e => hit e.inBitBase.toNat e.inBits.toNat
    | none => false) ||
  (s.ports.ser.any fun x =>
    (match x.2.rs485 with
     | some c => if c.master then c.txs.any fun t => (t.fn = 1 || t.fn = 2) && hit t.wordBase.toNat t.count.toNat
                 else match c.slaveTables with | (n, b) :: _ => hit b.toNat n.toNat | [] => false
     | none => false) ||
    (match x.2.can with
     | some c => c.rx.any fun o => !o.word && hit o.base.toNat o.count.toNat
     | none => false))

/-- A write of FLD_EVT_DATA for event bit e (R414). -/
def writeFldEvt (e : Nat) (data : W32) (s : State) : State :=
  let a := data.toNat % 2 ^ 22
  let put := fun (en : Bool) (s : State) => { s with ports.fld.evts := Tab.set (false, 0) s.ports.fld.evts e (en, BitVec.ofNat 22 a) }
  if !data.getLsbD 31 then put false s
  else if bitsIn s 1 a 1 && mappedInput s a then put true s
  else { put false s with ports.fld.mapErr := true }

/-- A write of a field event entry at this module (R375, R414). -/
def setFldEvt (bit : BitVec 5) (data : W32) (s : State) : State := noteSettings (.fieldEvent bit data) (writeFldEvt bit.toNat data s)

/-- FLD_EVT_WRITE (R414). -/
def execFldEvtWrite (bit : BitVec 5) (data : W32) (s : State) : Host.Outcome State Fault Refusal :=
  .next (setFldEvt bit data s)

/-- A write of FLD_PL_CTRL (R410). -/
def writePlCtrl (v : W32) (s : State) : State :=
  let g := v.toNat % 2 ^ 16
  let s := { s with ports.fld.grain := BitVec.ofNat 16 g }
  if !v.getLsbD 31 then { s with ports.fld.healthEn := false }
  else if bitsIn s 1 (64 * g) 4096 then
    let s := { s with ports.fld.healthEn := true }
    putBits (64 * g) ((List.range 4096).map fun n => (node s n).st = .running) s
  else { s with ports.fld.healthEn := false, ports.fld.mapErr := true }

/-- FRER and GM_EN of field port p (R401, R433). -/
def writePortModes (p : Nat) (v : W32) (s : State) : State :=
  updPort p (fun f => { f with frer := decide (p % 2 = 0) && v.getLsbD 30, gm := v.getLsbD 29 }) s

/-- A setting of a port, of the subscriptions or of STOP that is written as a register and that a standby takes over (R375, R393):
STOP_OUT (R108), PAS_FRESH_MAP (R346), FLD_PL_CTRL (R410), and FRER and GM_EN of the field ports (R433). [Log: DEDUCED, unsafe, entry 225.] -/
def writeShared (addr : BitVec 20) (v : W32) (s : State) : State :=
  let a := addr.toNat
  if a = 0x60000 then touchEarly 5 { s with tsk.stopOut := v.getLsbD 0 }
  else if a = 0xA0024 then { s with pas.freshEn := v.getLsbD 31, pas.freshGrain := v.setWidth 16 }
  else if a = 0xC0004 then writePlCtrl v s
  else writePortModes ((a - 0xC1000) / 0x40) v s

/-- A write of such a register at this module. -/
def setShared (addr : BitVec 20) (v : W32) (s : State) : State := noteSettings (.register addr v) (writeShared addr v s)

/-- HEALTH_EN_WRITE (R410). -/
def execHealthEnWrite (value : W32) (s : State) : Host.Outcome State Fault Refusal := .next (setShared 0xC0004 value s)

end Sys2Proof.Machine
end

