-- ==== Sys2Proof/Machine/Flags.lean ====
section
/-! DEFINITION. What each SWM operation computes from its operand values, and the sticky conditions it produces
(R207 to R217, R220), apart from where the operands are found. Every function takes the values of A, B and C as 48-bit
patterns (a BIT as 0 or 1, a WORD zero-extended) and answers the result and the conditions. -/

namespace Sys2Proof.Machine

/-- A computation of an instruction on its operand values A, B and C. -/
abbrev Alu := L48 → L48 → L48 → L48 × Sticky

/-- A result without a condition. -/
def plain (v : L48) : L48 × Sticky := (v, 0)

/-- A truth value as a result. -/
def ofTruth (b : Bool) : L48 × Sticky := (if b then 1 else 0, 0)

/-- A computation on BIT operands (R207). -/
def onBits (f : Bool → Bool → Bool → Bool) : Alu := fun a b c => ofTruth (f (a != 0) (b != 0) (c != 0))

/-- A computation on WORD operands (R209). -/
def onWords (f : W24 → W24 → W24 → W24 × Sticky) : Alu := fun a b c =>
  let r := f (a.setWidth 24) (b.setWidth 24) (c.setWidth 24)
  (r.1.setWidth 48, r.2)

/-- The exact result narrowed to w bits, OVF marking signed overflow (R209, R210). -/
def narrow (w : Nat) (n : Int) : BitVec w × Sticky :=
  let v := BitVec.ofInt w n
  (v, if v.toInt = n then 0 else stOvf)

/-- The exact result saturated to the signed range of w bits (R209). -/
def saturate (w : Nat) (n : Int) : BitVec w :=
  if n > 2 ^ (w - 1) - 1 then BitVec.ofInt w (2 ^ (w - 1) - 1)
  else if n < -(2 ^ (w - 1)) then BitVec.ofInt w (-(2 ^ (w - 1)))
  else BitVec.ofInt w n

/-- ADD (R209, R210). -/
def aluAdd {w : Nat} (_ b c : BitVec w) : BitVec w × Sticky := narrow w (b.toInt + c.toInt)
/-- SUB (R209, R210). -/
def aluSub {w : Nat} (_ b c : BitVec w) : BitVec w × Sticky := narrow w (b.toInt - c.toInt)
/-- ADDS (R209). -/
def aluAdds {w : Nat} (_ b c : BitVec w) : BitVec w × Sticky := (saturate w (b.toInt + c.toInt), 0)
/-- SUBS (R209). -/
def aluSubs {w : Nat} (_ b c : BitVec w) : BitVec w × Sticky := (saturate w (b.toInt - c.toInt), 0)
/-- NEG (R209, R210). -/
def aluNeg {w : Nat} (_ b _c : BitVec w) : BitVec w × Sticky := narrow w (-b.toInt)
/-- ABS (R209, R210). -/
def aluAbs {w : Nat} (_ b _c : BitVec w) : BitVec w × Sticky := narrow w b.toInt.natAbs
/-- MUL (R209, R210). -/
def aluMul {w : Nat} (_ b c : BitVec w) : BitVec w × Sticky := narrow w (b.toInt * c.toInt)

/-- DIV (R209, R210): truncated toward zero; by 0, the limit that the sign of B selects. -/
def aluDiv {w : Nat} (_ b c : BitVec w) : BitVec w × Sticky :=
  if c = 0 then
    (if b.toInt > 0 then BitVec.ofInt w (2 ^ (w - 1) - 1)
     else if b.toInt < 0 then BitVec.ofInt w (-(2 ^ (w - 1))) else 0, stDivz)
  else narrow w (b.toInt.tdiv c.toInt)

/-- REM (R209, R210): the sign of B; MIN by −1 gives 0 with OVF; by 0 gives B. -/
def aluRem {w : Nat} (_ b c : BitVec w) : BitVec w × Sticky :=
  if c = 0 then (b, stDivz)
  else (BitVec.ofInt w (b.toInt.tmod c.toInt),
        if b.toInt = -(2 ^ (w - 1)) ∧ c.toInt = -1 then stOvf else 0)

/-- DIVU (R209, R210). -/
def aluDivu {w : Nat} (_ b c : BitVec w) : BitVec w × Sticky :=
  if c = 0 then (if b = 0 then 0 else BitVec.allOnes w, stDivz) else (b / c, 0)
/-- REMU (R209, R210). -/
def aluRemu {w : Nat} (_ b c : BitVec w) : BitVec w × Sticky :=
  if c = 0 then (b, stDivz) else (b % c, 0)

/-- AND (R209). -/
def aluAnd {w : Nat} (_ b c : BitVec w) : BitVec w × Sticky := (b &&& c, 0)
/-- OR (R209). -/
def aluOr {w : Nat} (_ b c : BitVec w) : BitVec w × Sticky := (b ||| c, 0)
/-- XOR (R209). -/
def aluXor {w : Nat} (_ b c : BitVec w) : BitVec w × Sticky := (b ^^^ c, 0)

/-- A shift left by a count; a count of the width or more gives 0 (R210). -/
def shl {w : Nat} (b : BitVec w) (n : Nat) : BitVec w := if n ≥ w then 0 else b <<< n
/-- A logical shift right (R210). -/
def shr {w : Nat} (b : BitVec w) (n : Nat) : BitVec w := if n ≥ w then 0 else b >>> n
/-- An arithmetic shift right; a count of the width or more gives all sign bits (R210). -/
def sar {w : Nat} (b : BitVec w) (n : Nat) : BitVec w :=
  if n ≥ w then (if b.msb then BitVec.allOnes w else 0) else b.sshiftRight n

/-- ROL: the count modulo the width (R210). -/
def aluRol (_ b c : W24) : W24 × Sticky := (b.rotateLeft (c.toNat % 24), 0)
/-- ROR: the count modulo the width (R210). -/
def aluRor (_ b c : W24) : W24 × Sticky := (b.rotateRight (c.toNat % 24), 0)

/-- MIN (R209). -/
def aluMin {w : Nat} (_ b c : BitVec w) : BitVec w × Sticky := (if b.toInt ≤ c.toInt then b else c, 0)
/-- MAX (R209). -/
def aluMax {w : Nat} (_ b c : BitVec w) : BitVec w × Sticky := (if b.toInt ≤ c.toInt then c else b, 0)
/-- LIMIT: min(max(A, B), C) (R209). -/
def aluLimit (a b c : W24) : W24 × Sticky :=
  let m := if a.toInt ≤ b.toInt then b else a
  (if m.toInt ≤ c.toInt then m else c, 0)

/-- MULL: the full signed product (R209). -/
def aluMull (_ b c : L48) : L48 × Sticky :=
  plain (BitVec.ofInt 48 ((b.setWidth 24).toInt * (c.setWidth 24).toInt))
/-- MULLU: the full unsigned product (R209). -/
def aluMullu (_ b c : L48) : L48 × Sticky :=
  plain (BitVec.ofNat 48 ((b.setWidth 24).toNat * (c.setWidth 24).toNat))

/-- A WORD compare (R211). -/
def compareWords (p : W24 → W24 → Bool) : Alu := fun _ b c => ofTruth (p (b.setWidth 24) (c.setWidth 24))

/-- The condition of CMPL that a SUBOP selects; a code outside the table writes 0 (R213). -/
def longCompare (sub : Nat) (b c : L48) : Bool :=
  match sub with
  | 0 => b = c
  | 1 => b ≠ c
  | 2 => decide (b.toInt < c.toInt)
  | 3 => decide (b.toInt ≤ c.toInt)
  | 4 => decide (b.toInt > c.toInt)
  | 5 => decide (b.toInt ≥ c.toInt)
  | 6 => decide (b.toNat < c.toNat)
  | 7 => decide (b.toNat ≤ c.toNat)
  | 8 => decide (b.toNat > c.toNat)
  | 9 => decide (b.toNat ≥ c.toNat)
  | _ => false

/-- CVTLW: saturated, RANGE when it saturates (R216, R217). -/
def aluCvtlw (_ b _c : L48) : L48 × Sticky :=
  let v := saturate 24 b.toInt
  (v.setWidth 48, if v.toInt = b.toInt then 0 else stRange)

/-- The value of the low n BCD digits of a number; none when a digit exceeds 9. -/
def bcdValue : Nat → Nat → Option Nat
  | 0, _ => some 0
  | n + 1, v =>
    if v % 16 > 9 then none
    else match bcdValue n (v / 16) with
      | none => none
      | some t => some (10 * t + v % 16)

/-- BCDW (R216, R217). -/
def aluBcdw (_ b _c : L48) : L48 × Sticky :=
  match bcdValue 6 ((b.setWidth 24).toNat) with
  | none => (0, stRange)
  | some n => (BitVec.ofNat 48 n, 0)

/-- The low n decimal digits of a number as BCD. -/
def bcdDigits : Nat → Nat → Nat
  | 0, _ => 0
  | n + 1, v => 16 * bcdDigits n (v / 10) + v % 10

/-- WBCD (R216, R217). -/
def aluWbcd (_ b _c : L48) : L48 × Sticky :=
  let n := (b.setWidth 24).toInt
  if n < 0 then (0, stRange)
  else if n > 999999 then (0x999999, stRange)
  else (BitVec.ofNat 48 (bcdDigits 6 n.toNat), 0)

/-- The nearest integer to n / d for d > 0, halves rounded away from zero (R220). -/
def roundHalfAway (n d : Int) : Int :=
  if n ≥ 0 then (2 * n + d).tdiv (2 * d) else -((2 * (-n) + d).tdiv (2 * d))

/-! ## Traps -/

/-- Trap codes (R233). -/
def trapOvf : BitVec 16 := 0x001
/-- DIVZ. -/
def trapDivz : BitVec 16 := 0x002
/-- FDZ. -/
def trapFdz : BitVec 16 := 0x003
/-- FINV. -/
def trapFinv : BitVec 16 := 0x004
/-- ILLEGAL_PREFIX. -/
def trapIllegalPrefix : BitVec 16 := 0x010
/-- RESERVED_OP. -/
def trapReservedOp : BitVec 16 := 0x011
/-- CALL_DEPTH. -/
def trapCallDepth : BitVec 16 := 0x012

/-- The trap that produced conditions raise under the enables of TSW, first in the order of R234. -/
def stickyTrap (tsw : W24) (st : Sticky) : Option (BitVec 16) :=
  let on := fun (bit : Sticky) (en : Nat) => st &&& bit != 0 && tsw.getLsbD en
  if on stDivz 9 then some trapDivz
  else if on stFdz 9 then some trapFdz
  else if on stFinv 8 then some trapFinv
  else if on stOvf 10 then some trapOvf
  else none

end Sys2Proof.Machine
end

