-- ==== Sys2Proof/Machine/Serial.lean ====
section
/-! DEFINITION. Serial-class ports: RS-485 with Modbus RTU, M-Bus, CAN FD (R415 to R423, R225, R226, R435). -/

namespace Sys2Proof.Machine

/-- An error of port q; the code that SER_LAST shows is not given. [Log: DESIGN CHOICE, safe, entry 40.] -/
def serError (q : Nat) (s : State) : State :=
  let (w, s) := drawWord s
  updSer q (fun x => { x with err := satInc x.err, last := w.setWidth 8 }) s

/-- A check value that does not match at the shared channel `ch` (R424, R427). -/
def badCheck (ch q : Nat) (s : State) : State :=
  serError q { s with ports.crc := Tab.upd {} s.ports.crc ch fun c => { c with err := true, mismatch := satInc c.mismatch } }

/-- Whether port q transmits now. -/
def serSends (s : State) (q : Nat) : Bool := serEnabled s q && mayTransmit s && !(ser s q).busOff && !(ser s q).overCur

/-! ## Modbus RTU -/

/-- CRC-16/MODBUS, low byte first (R415). -/
def modbusCrc (bs : List Byte) : List Byte := leBytes 2 (crcOf ⟨16, 0x8005, 0xFFFF, true, true, 0⟩ bs)

/-- A frame with its check value. -/
def modbusFrame (bs : List Byte) : List Byte := bs ++ modbusCrc bs

/-- The body of a received frame when its check value matches. -/
def modbusBody (adu : List Byte) : Option (List Byte) :=
  if adu.length < 4 then none
  else
    let b := adu.take (adu.length - 2)
    if modbusCrc b = adu.drop (adu.length - 2) then some b else none

/-- Bits in Modbus order: the first in bit 0 of the first byte. -/
def modbusBits (l : List Bool) : List Byte :=
  (chunks 8 l.length l).map fun c => BitVec.ofNat 8 ((c.zipIdx.map fun b => bitAt b.1 b.2).sum)

/-- The first `n` bits of Modbus bytes. -/
def modbusUnbits (n : Nat) (bs : List Byte) : List Bool :=
  (bs.flatMap fun b => (List.range 8).map fun i => b.getLsbD i).take n

/-- A register as a word (R417). -/
def regWord (signed : Bool) (hi lo : Byte) : W24 :=
  if signed then (hi ++ lo).signExtend 24 else (hi ++ lo).setWidth 24

/-- The registers that bytes spell, as words. -/
def regWords (signed : Bool) : List Byte → List W24
  | h :: l :: t => regWord signed h l :: regWords signed t
  | _ => []

/-- A word saturated to a register (R417). -/
def wordReg (signed : Bool) (w : W24) : List Byte :=
  let v := w.toInt
  let r : Int := if signed then max (-32768) (min 32767 v) else max 0 (min 65535 v)
  beBytes 2 (BitVec.ofInt 16 r).toNat

/-- Whether a function code reads. -/
def isRead (fn : Nat) : Bool := 1 ≤ fn && fn ≤ 4

/-- The request of a master transaction (R416, R417); a write takes the output buffer now. -/
def txRequest (s : State) (t : ModbusTx) : List Byte :=
  let head := [t.slave, t.fn] ++ beBytes 2 t.start.toNat
  let n := t.count.toNat
  match t.fn.toNat with
  | 5 => head ++ (if Tab.get false s.tsk.outBits t.wordBase.toNat then [0xFF, 0x00] else [0x00, 0x00])
  | 6 => head ++ wordReg t.signed (Tab.get 0 s.tsk.outWords t.wordBase.toNat)
  | 15 => let b := modbusBits (outBitsAt s t.wordBase.toNat n)
          head ++ beBytes 2 n ++ [BitVec.ofNat 8 b.length] ++ b
  | 16 => head ++ beBytes 2 n ++ [BitVec.ofNat 8 (2 * n)] ++ (outWordsAt s t.wordBase.toNat n).flatMap (wordReg t.signed)
  | _ => head ++ beBytes 2 n

/-- Master transaction `i` of port q. -/
def txOf (s : State) (q i : Nat) : Option ModbusTx :=
  match (ser s q).rs485 with
  | some c => if c.master then c.txs[i]? else none
  | none => none

/-- Put bytes on the line of RS-485 port q; a standby transmits nothing (R367). -/
def sendModbus (q : Nat) (bs : List Byte) (s : State) : State :=
  if !mayTransmit s then s else
  updSer q (fun x => { x with tx := satInc x.tx }) (emit (.modbus (BitVec.ofNat 1 q) (modbusFrame bs)) s)

/-- The entry due first: earliest due tick, then entry order (R417). -/
def firstDue (l : List (Nat × Nat)) : Option (Nat × Nat) :=
  l.foldl (fun m e => match m with
    | none => some e
    | some k => if e.1 < k.1 ∨ (e.1 = k.1 ∧ e.2 < k.2) then some e else some k) none

/-! ## M-Bus telegrams (R419 to R421) -/

/-- The FT1.2 checksum. -/
def mbusSum (bs : List Byte) : Byte := bs.foldl (· + ·) 0

/-- A short frame. -/
def mbusShort (c a : Byte) : List Byte := [0x10, c, a, mbusSum [c, a], 0x16]

/-- A long frame of user bytes from C on. -/
def mbusLong (u : List Byte) : List Byte :=
  [0x68, BitVec.ofNat 8 u.length, BitVec.ofNat 8 u.length, 0x68] ++ u ++ [mbusSum u, 0x16]

/-- CRC-16/EN-13757 of a block, as two bytes (R426). -/
def enCrc (bs : List Byte) : List Byte := beBytes 2 (crcOf ⟨16, 0x3D65, 0, false, false, 0xFFFF⟩ bs)

/-- A telegram in format FT3: start bytes, then blocks of at most 16 bytes with their CRC; the block sizes are taken
from IEC 60870-5-1 (PRESUMED). [Log: PRESUMED, unsafe, entry 41.] -/
def ft3Frame (u : List Byte) : List Byte :=
  let l := BitVec.ofNat 8 u.length :: u
  [0x05, 0x64] ++ (chunks 16 l.length l).flatMap fun b => b ++ enCrc b

/-- The user bytes of a received FT3 telegram, when every block's CRC matches. -/
def ft3Body (t : List Byte) : Option (List Byte) :=
  match t with
  | 0x05 :: 0x64 :: r =>
    let bs := chunks 18 r.length r
    if bs.all fun b => decide (3 ≤ b.length) && decide (enCrc (b.take (b.length - 2)) = b.drop (b.length - 2)) then
      match bs.flatMap fun b => b.take (b.length - 2) with
      | n :: u => if u.length = n.toNat then some u else none
      | [] => none
    else none
  | _ => none

/-- The user bytes of a received FT1.2 long frame, when its lengths and checksum match. -/
def ft12Body (t : List Byte) : Option (List Byte) :=
  match t with
  | 0x68 :: l :: l2 :: 0x68 :: r =>
    let u := r.take l.toNat
    if l = l2 ∧ r.length = l.toNat + 2 ∧ r.drop l.toNat = [mbusSum u, 0x16] then some u else none
  | _ => none

/-- A decoded record: DIF data type and function, storage, tariff, subunit, VIF, first VIFE, LVAR of variable-length data, data,
in order. -/
structure MbusRec where
  dif : Nat
  storage : Nat
  tariff : Nat
  subunit : Nat
  vif : Byte
  vife : Option Byte
  lvar : Byte := 0
  data : List Byte
  deriving DecidableEq, Repr

/-- Length of fixed data by DIF data type (EN 13757-3). -/
def difLen (d : Nat) : Nat := [0, 1, 2, 3, 4, 4, 6, 8, 0, 1, 2, 3, 4, 0, 6, 0].getD d 0

/-- Take the DIFEs: storage, tariff and subunit so far, and how many. -/
def takeDife : Nat → Nat → Nat → Nat → Nat → List Byte → (Nat × Nat × Nat) × List Byte
  | 0, _, st, ta, su, bs => ((st, ta, su), bs)
  | _ + 1, _, st, ta, su, [] => ((st, ta, su), [])
  | f + 1, k, st, ta, su, b :: bs =>
    let st := st + b.toNat % 16 * 2 ^ (4 * k + 1)
    let ta := ta + field b.toNat 5 4 * 4 ^ k
    let su := su + field b.toNat 6 6 * 2 ^ k
    if b.getLsbD 7 then takeDife f (k + 1) st ta su bs else ((st, ta, su), bs)

/-- Take the VIFEs. -/
def takeVife : Nat → List Byte → List Byte × List Byte
  | 0, bs => ([], bs)
  | _ + 1, [] => ([], [])
  | f + 1, b :: bs => if b.getLsbD 7 then let r := takeVife f bs; (b :: r.1, r.2) else ([b], bs)

/-- A plain-text VIF: its string, a length and its characters, stands behind the VIF (EN 13757-3). -/
def skipText (v : Byte) (bs : List Byte) : List Byte :=
  if v &&& 0x7F#8 = 0x7C then bs.drop (1 + (bs.getD 0 0).toNat) else bs

/-- The VIFEs behind a VIF and its string, and what follows them. -/
def takeVib (v : Byte) (bs : List Byte) : List Byte × List Byte :=
  if v.getLsbD 7 then takeVife 10 (skipText v bs) else ([], skipText v bs)

/-- Length of variable-length data (EN 13757-3): LVAR up to 0xBF is a text length, 0xC0 to 0xCF and 0xD0 to 0xDF a BCD number, 0xE0
to 0xF6 a binary one. Above that LVAR is reserved, and no length is known. -/
def lvarLen (b : Byte) : Nat :=
  let n := b.toNat
  if n < 0xC0 then n else if n < 0xF0 then n % 16 else if n ≤ 0xF4 then 4 * (n - 0xEC) else if n = 0xF5 then 48 else 64
/-- Whether LVAR is reserved. -/
def lvarReserved (b : Byte) : Bool := decide (0xF7 ≤ b.toNat)

/-- The records of a variable data structure, and whether more telegrams follow (DIF 0x1F). Data with DIF 0x0F are
manufacturer-specific, which `mbusDecode` refuses. -/
def mbusRecords : Nat → List Byte → List MbusRec × Bool
  | 0, _ => ([], false)
  | _ + 1, [] => ([], false)
  | f + 1, d :: bs =>
    if d = 0x2F then mbusRecords f bs
    else if d = 0x0F then ([], false)
    else if d = 0x1F then ([], true)
    else
      let x := if d.getLsbD 7 then takeDife 10 0 (field d.toNat 6 6) 0 0 bs else ((field d.toNat 6 6, 0, 0), bs)
      match x.2 with
      | [] => ([], false)
      | v :: r =>
        let y := takeVib v r
        let z : Byte × List Byte × List Byte := if d.toNat % 16 = 13 then
                   match y.2 with
                   | [] => (0, [], [])
                   | l :: t => if lvarReserved l then (l, [], []) else (l, t.take (lvarLen l), t.drop (lvarLen l))
                 else (0, y.2.take (difLen (d.toNat % 16)), y.2.drop (difLen (d.toNat % 16)))
        let n := mbusRecords f z.2.2
        ({ dif := d.toNat % 64, storage := x.1.1, tariff := x.1.2.1, subunit := x.1.2.2, vif := v, vife := y.1.head?, lvar := z.1,
           data := z.2.1 } :: n.1, n.2)

/-- Whether a variable data structure holds manufacturer-specific data: behind DIF 0x0F, or behind DIF 0x1F. -/
def mbusMaker : Nat → List Byte → Bool
  | 0, _ => false
  | _ + 1, [] => false
  | f + 1, d :: bs =>
    if d = 0x2F then mbusMaker f bs
    else if d = 0x0F then true
    else if d = 0x1F then decide (bs ≠ [])
    else
      let x := if d.getLsbD 7 then (takeDife 10 0 0 0 0 bs).2 else bs
      match x with
      | [] => false
      | v :: r =>
        let y := (takeVib v r).2
        if d.toNat % 16 = 13 then
          match y with
          | [] => false
          | l :: t => if lvarReserved l then false else mbusMaker f (t.drop (lvarLen l))
        else mbusMaker f (y.drop (difLen (d.toNat % 16)))

/-- BCD digits, least significant byte first; a leading 0xF is a minus sign (EN 13757-3). -/
def mbusBcd (bs : List Byte) : Int :=
  match bs.reverse with
  | [] => 0
  | m :: t =>
    let neg := decide (m.toNat / 16 = 15)
    let hi : Nat := if neg then m.toNat % 16 else m.toNat / 16 * 10 + m.toNat % 16
    let v : Nat := t.foldl (fun a b => a * 100 + b.toNat / 16 * 10 + b.toNat % 16) hi
    if neg then -(v : Int) else v

/-- A binary number in two's complement, least significant byte first (EN 13757-3). -/
def mbusInt (bs : List Byte) : Int :=
  let n := leNat bs
  let w := 8 * bs.length
  if w ≠ 0 ∧ n ≥ 2 ^ (w - 1) then (n : Int) - (2 ^ w : Nat) else n

/-- A 32-bit real as an exact fraction; none for a NaN or an infinity. -/
def realFrac (n : Nat) : Option (Int × Nat) :=
  let e := field n 30 23
  let m := n % 2 ^ 23
  let sg : Int := if field n 31 31 = 1 then -1 else 1
  if e = 255 then none
  else
    let f : Nat := if e = 0 then m else m + 2 ^ 23
    let x : Nat := if e = 0 then 1 else e
    some (if x ≥ 150 then (sg * (f * 2 ^ (x - 150) : Nat), 1) else (sg * f, 2 ^ (150 - x)))

/-- Saturate an integer to a target: LONG or WORD. -/
def saturateTo (long : Bool) (v : Int) : Int :=
  let b : Nat := if long then 47 else 23
  max (-(2 ^ b : Nat)) (min ((2 ^ b : Nat) - 1) v)

/-- The value of a record for a selector (R421): scaled by 10^SHIFT, rounded half away from zero, saturated. -/
def recValue (r : MbusRec) (sel : MbusSel) : Int :=
  let scale := fun (n : Int) (d : Nat) =>
    if sel.shift ≥ 0 then roundHalfAway (n * (10 ^ sel.shift.toNat : Nat)) d
    else roundHalfAway n (d * 10 ^ (-sel.shift).toNat : Nat)
  let ty := r.dif % 16
  if ty = 5 then
    let n := leNat r.data
    match realFrac n with
    | some (v, d) => saturateTo sel.long (scale v d)
    | none => if n % 2 ^ 23 ≠ 0 then 0
              else saturateTo sel.long (if field n 31 31 = 1 then -(2 ^ 64 : Nat) else (2 ^ 64 : Nat))
  else
    let l := r.lvar.toNat
    let v : Int := if ty = 13 ∧ 0xE0 ≤ l then mbusInt r.data
      else if ty = 13 ∧ 0xD0 ≤ l then -(mbusBcd r.data)
      else if 9 ≤ ty then mbusBcd r.data
      else mbusInt r.data
    saturateTo sel.long (scale v 1)

/-- Whether a record holds a number: variable-length data of a text do not. -/
def recNumber (r : MbusRec) : Bool := r.dif % 16 ≠ 13 || (0xC0 ≤ r.lvar.toNat && !lvarReserved r.lvar)

/-- Whether a record matches a selector (R420). -/
def recMatches (sel : MbusSel) (r : MbusRec) : Bool :=
  r.dif = sel.dif.toNat % 64 && r.vif = sel.vif && r.vife = sel.vife && r.storage = sel.storage &&
  r.tariff = sel.tariff && r.subunit = sel.subunit && decide (r.data ≠ []) && recNumber r

/-- The status byte, records and continuation of a reply's user bytes C, A, CI, data (R420); none when they are not a
variable data structure with CI 0x72, 0x78 or 0x7A, or hold manufacturer-specific data. -/
def mbusDecode (u : List Byte) : Option (Byte × List MbusRec × Bool) :=
  let d := u.drop 3
  let recs := fun (st : Byte) (b : List Byte) => if mbusMaker b.length b then none else some (st, mbusRecords b.length b)
  match u.getD 2 0 with
  | 0x72 => if d.length < 12 then none else recs (d.getD 9 0) (d.drop 12)
  | 0x7A => if d.length < 4 then none else recs (d.getD 1 0) (d.drop 4)
  | 0x78 => recs 0 d
  | _ => none

/-- Meter i. -/
def meterOf (s : State) (i : Nat) : Option MbusMeter := Tab.get none s.ports.meters i

/-- A telegram of user bytes from C on, in the format of a meter. -/
def meterFrame (m : MbusMeter) (u : List Byte) : List Byte :=
  if m.ft3 then ft3Frame u
  else match u with | [c, a] => mbusShort c a | _ => mbusLong u

/-- Put a telegram on M-Bus port q; a standby transmits nothing (R367). -/
def sendMbus (q : Nat) (t : List Byte) (s : State) : State :=
  if !mayTransmit s then s else
  updSer q (fun x => { x with tx := satInc x.tx }) (emit (.mbus (BitVec.ofNat 1 (q - 2)) t) s)

/-- The request that a meter poll sends: a selection (R419), or REQ_UD2 with the meter's FCB. -/
def meterRequest (s : State) (i : Nat) (m : MbusMeter) (sel : Bool) : List Byte :=
  match sel, m.secondary with
  | true, some a => meterFrame m ([0x53, 0xFD, 0x52] ++ beBytes 8 a.toNat)
  | _, sec => meterFrame m [if Tab.get false s.ports.meterFcb i then 0x7B else 0x5B, if sec.isSome then 0xFD else m.primary]

/-- Change a meter's status word in the input buffer. -/
def putStatus (m : MbusMeter) (f : Nat → Nat) (s : State) : State :=
  match m.status with
  | none => s
  | some a => putWords a.toNat [BitVec.ofNat 24 (f (Tab.get 0 s.tsk.inWords a.toNat).toNat)] s

/-! ## CAN FD -/

/-- The payload of a transmit object (R423). -/
def canPayload (s : State) (o : CanTxObj) : List Byte :=
  let n := canLens.getD o.dlc.toNat 0
  let b := if o.word then packPoints [] (outWordsAt s o.base.toNat o.count.toNat)
           else packPoints (outBitsAt s o.base.toNat o.count.toNat) []
  padTo (if o.fdf then n else min n 8) b

/-- Put a frame on CAN port q; a standby transmits nothing (R367). -/
def sendCan (q : Nat) (f : CanFrame) (brs : Bool) (s : State) : State := if !mayTransmit s then s else emit (.can (BitVec.ofNat 1 (q - 4)) f brs) s

/-- The frame of a message (R225). -/
def messageFrame (b : List Byte) : CanFrame × Bool :=
  let id := beNat (b.take 4)
  let fl := b.getD 4 0
  ({ ident := BitVec.ofNat 29 id, ext := decide (id ≥ 2 ^ 31), remote := false, fdf := fl.getLsbD 0, data := b.drop 5 }, fl.getLsbD 1)

/-- Queue a transmit object in ascending identifier order (R423). -/
def queueObj (c : CanCfg) (o : Nat) (l : List Nat) : List Nat :=
  let id := fun k => match c.tx[k]? with | some t => t.ident.toNat | none => 0
  if l.contains o then l else l.takeWhile (fun k => id k ≤ id o) ++ o :: l.dropWhile (fun k => id k ≤ id o)

/-! ## Work of a port: one job at a time -/

/-- Start master transaction i of port q; a broadcast write ends at once (R417). -/
def startTx (q i : Nat) (s : State) : State :=
  match txOf s q i with
  | none => s
  | some t =>
    let bs := txRequest s t
    let s := sendModbus q bs s
    if t.slave = 0 then s else updSer q (fun x => { x with job := some (.modbus i bs 0) }) s

/-- Start the poll of meter i on port q. -/
def startPoll (q i : Nat) (s : State) : State :=
  match meterOf s i with
  | none => s
  | some m =>
    let sel := m.secondary.isSome
    updSer q (fun x => { x with job := some (.meter i 0 sel []) }) (sendMbus q (meterRequest s i m sel) s)

/-- Start the first transmit object that waits on CAN port q. -/
def startCan (q : Nat) (s : State) : State :=
  match (ser s q).can, (ser s q).txQueue with
  | some c, o :: l =>
    match c.tx[o]? with
    | none => updSer q (fun x => { x with txQueue := l }) s
    | some t =>
      let f : CanFrame := { ident := t.ident, ext := t.ext, remote := false, fdf := t.fdf, data := canPayload s t }
      updSer q (fun x => { x with txQueue := l, job := some (.canTx o) }) (sendCan q f t.brs s)
  | _, _ => s

/-- Start the next cyclic work of a free port; broadcast writes end as they are sent. -/
def startDueLoop (q : Nat) : Nat → State → State
  | 0, s => s
  | k + 1, s =>
    if (ser s q).job.isSome ∨ !serSends s q then s
    else if q ≥ 4 then startCan q s
    else match firstDue (ser s q).due with
      | none => s
      | some e =>
        let s := updSer q (fun x => { x with due := x.due.erase e }) s
        startDueLoop q k (if q < 2 then startTx q e.2 s else startPoll q e.2 s)

/-- Start the next cyclic work of a free port. -/
def startDue (q : Nat) (s : State) : State := startDueLoop q ((ser s q).due.length + 1) s

/-- A job ended: a queued message has the next turn, else the next cyclic work starts. -/
def jobEnd (q : Nat) (s : State) : State :=
  let s := updSer q (fun x => { x with job := none }) s
  if (ser s q).queue.isEmpty then startDue q s else s

/-- A message ends with its mailbox written (R226). -/
def messageEnd (q : Nat) (m : PortMsg) (status : Nat) (reply : List Byte) (s : State) : State :=
  jobEnd q (writeMailbox q m.tag status reply s)

/-- Start the oldest queued message of port q (R225). [Log: DESIGN CHOICE, unsafe, entry 246.] -/
def startMessage (q : Nat) (s : State) : State :=
  match (ser s q).queue with
  | [] => s
  | m :: l =>
    let s := updSer q (fun x => { x with queue := l, job := some (.message m) }) s
    if q < 2 then
      let s := sendModbus q m.bytes s
      if m.bytes.getD 0 0 = 0 then messageEnd q m 1 [] s else s
    else if q < 4 then
      let c := m.bytes.getD 0 0
      sendMbus q (if shortFrame c then mbusShort c (m.bytes.getD 1 0) else mbusLong m.bytes) s
    else let f := messageFrame m.bytes
         sendCan q f.1 f.2 s

/-- The port's place in the table of failed transactions. -/
def countFail (q : Nat) (slave : Byte) (s : State) : State :=
  let n := Tab.get 0 (ser s q).fails slave.toNat + 1
  let s := updSer q (fun x => { x with fails := Tab.set 0 x.fails slave.toNat n }) s
  if n = 3 then accession 0 0x0A03 3 [slave, BitVec.ofNat 8 q] s else s

/-! ## Modbus rows -/

/-- Transaction i falls due on port q at tick t. -/
def makeDue (q i t : Nat) (s : State) : State :=
  updSer q (fun x => { x with due := if x.due.any fun e => e.2 = i then x.due else x.due ++ [(t, i)], lastDue := Tab.set 0 x.lastDue i t }) s

/-- MODBUS_TRANSACTION_DUE (R417). -/
def execModbusTransactionDue (port : BitVec 1) (index : BitVec 6) (s : State) : Host.Outcome State Fault Refusal :=
  let q := port.toNat
  let i := index.toNat
  .next (match txOf s q i with
    | none => s
    | some t =>
      if !serSends s q ∨ t.onCommit then s
      else
        let s := makeDue q i s.tsk.tick.toNat s
        if (ser s q).queue.isEmpty then startDue q s else s)

/-- A valid response of a master transaction (R417). [Log: PRESUMED, unsafe, entry 43.] -/
def txResponse (t : ModbusTx) (b : List Byte) (s : State) : Option State :=
  let n := t.count.toNat
  let d := b.drop 3
  if b.getD 0 0 ≠ t.slave ∨ b.getD 1 0 ≠ t.fn then none
  else if isRead t.fn.toNat then
    let len := if t.fn.toNat ≤ 2 then (n + 7) / 8 else 2 * n
    if (b.getD 2 0).toNat ≠ len ∨ d.length ≠ len then none
    else some (if t.fn.toNat ≤ 2 then putBits t.wordBase.toNat (modbusUnbits n d) s
               else putWords t.wordBase.toNat (regWords t.signed d) s)
  else if b.length = 6 then some s else none

/-- MODBUS_RESPONSE (R417, R225): an exception answer ends the transaction as failed. -/
def execModbusResponse (port : BitVec 1) (adu : List Byte) (s : State) : Host.Outcome State Fault Refusal :=
  let q := port.toNat
  .next (match (ser s q).job with
    | some (.modbus i _ _) =>
      match modbusBody adu, txOf s q i with
      | none, _ => badCheck 1 q s
      | some b, some t =>
        if b.getD 0 0 = t.slave ∧ (b.getD 1 0).toNat = t.fn.toNat + 128 then
          jobEnd q (countFail q t.slave (serError q (updSer q (fun x => { x with rx := satInc x.rx }) s)))
        else match txResponse t b s with
          | none => serError q s
          | some s => jobEnd q (updSer q (fun x => { x with rx := satInc x.rx, fails := Tab.set 0 x.fails t.slave.toNat 0 }) s)
      | some _, none => jobEnd q s
    | some (.message m) =>
      match modbusBody adu with
      | none => badCheck 1 q s
      | some b => if b.getD 0 0 = m.bytes.getD 0 0 then
                    messageEnd q m 0 (b.drop 1) (updSer q (fun x => { x with rx := satInc x.rx }) s)
                  else serError q s
    | _ => s)

/-- MODBUS_TIMEOUT (R417, R226). -/
def execModbusTimeout (port : BitVec 1) (s : State) : Host.Outcome State Fault Refusal :=
  let q := port.toNat
  .next (match (ser s q).job with
    | some (.modbus i sent tries) =>
      let s := updSer q (fun x => { x with timeout := satInc x.timeout }) s
      match txOf s q i, (ser s q).rs485 with
      | some t, some c =>
        if tries < c.retries.toNat ∧ mayTransmit s then
          let s := sendModbus q sent s
          updSer q (fun x => { x with retry := satInc x.retry, job := some (.modbus i sent (tries + 1)) }) s
        else jobEnd q (countFail q t.slave s)
      | _, _ => jobEnd q s
    | some (.message m) =>
      let s := updSer q (fun x => { x with timeout := satInc x.timeout }) s
      messageEnd q m 2 [] s
    | _ => s)

/-- MODBUS_FRAME_GAP_ERROR (R415). -/
def execModbusFrameGapError (port : BitVec 1) (s : State) : Host.Outcome State Fault Refusal :=
  .next (if serEnabled s port.toNat then serError port.toNat s else s)

/-- Item table k of a slave port: coils, discrete inputs, holding registers, input registers (R418). -/
def slaveTable (c : Rs485Cfg) (k : Nat) : Nat × Nat :=
  match c.slaveTables[k]? with
  | some (n, b) => (n.toNat, b.toNat)
  | none => (0, 0)

/-- What a slave does with a request's function code and data (R416, R418): the PDU it answers, and the state with
what was written. [Log: PRESUMED, unsafe, entry 44.] -/
def slaveAnswer (c : Rs485Cfg) (fn : Nat) (d : List Byte) (s : State) : List Byte × State :=
  let exc := fun (code : Nat) => ([BitVec.ofNat 8 (fn + 128), BitVec.ofNat 8 code], s)
  let a := beNat (d.take 2)
  let n := beNat ((d.drop 2).take 2)
  let within := fun (k cnt : Nat) => decide (a + cnt ≤ (slaveTable c k).1)
  let base := fun (k : Nat) => (slaveTable c k).2 + a
  match fn with
  | 1 | 2 =>
    if n = 0 ∨ n > 2000 then exc 3 else if !within (fn - 1) n then exc 2
    else
      let b := modbusBits (Tab.range false (if fn = 1 then s.tsk.inBits else s.tsk.outBits) (base (fn - 1)) n)
      ([BitVec.ofNat 8 fn, BitVec.ofNat 8 b.length] ++ b, s)
  | 3 | 4 =>
    if n = 0 ∨ n > 125 then exc 3 else if !within (fn - 1) n then exc 2
    else
      let w := Tab.range 0 (if fn = 3 then s.tsk.inWords else s.tsk.outWords) (base (fn - 1)) n
      ([BitVec.ofNat 8 fn, BitVec.ofNat 8 (2 * n)] ++ w.flatMap (wordReg false), s)
  | 5 => if n ≠ 0xFF00 ∧ n ≠ 0 then exc 3 else if !within 0 1 then exc 2
         else (5 :: d.take 4, putBits (base 0) [decide (n = 0xFF00)] s)
  | 6 => if !within 2 1 then exc 2 else (6 :: d.take 4, putWords (base 2) [BitVec.ofNat 24 n] s)
  | 15 =>
    if n = 0 ∨ n > 1968 ∨ (d.getD 4 0).toNat ≠ (n + 7) / 8 ∨ d.length ≠ 5 + (n + 7) / 8 then exc 3
    else if !within 0 n then exc 2
    else (15 :: d.take 4, putBits (base 0) (modbusUnbits n (d.drop 5)) s)
  | 16 =>
    if n = 0 ∨ n > 123 ∨ (d.getD 4 0).toNat ≠ 2 * n ∨ d.length ≠ 5 + 2 * n then exc 3
    else if !within 2 n then exc 2
    else (16 :: d.take 4, putWords (base 2) (regWords false (d.drop 5)) s)
  | 8 => if a = 0 then (8 :: d, s) else exc 1
  | _ => exc 1

/-- MODBUS_SLAVE_REQUEST (R418): a standby writes its input buffer and never transmits. -/
def execModbusSlaveRequest (port : BitVec 1) (adu : List Byte) (s : State) : Host.Outcome State Fault Refusal :=
  let q := port.toNat
  .next (match (ser s q).rs485 with
    | none => s
    | some c =>
      if !serEnabled s q ∨ c.master then s
      else match modbusBody adu with
        | none => badCheck 1 q s
        | some b =>
          let unit := b.getD 0 0
          if unit ≠ c.unitAddr ∧ unit ≠ 0 then s
          else
            let r := slaveAnswer c (b.getD 1 0).toNat (b.drop 2) (updSer q (fun x => { x with rx := satInc x.rx }) s)
            if unit = 0 ∨ !mayTransmit s then r.2 else sendModbus q (unit :: r.1) r.2)

/-- PORT_MESSAGE_START (R225): in a standby the oldest message leaves the queue and nothing is sent (R226, R367). -/
def execPortMessageStart (port : BitVec 3) (s : State) : Host.Outcome State Fault Refusal :=
  let q := port.toNat
  .next (if standby s then updSer q (fun x => { x with queue := x.queue.drop 1 }) s
    else if (ser s q).job.isSome ∨ !serSends s q then s else startMessage q s)

/-! ## M-Bus rows -/

/-- MBUS_POLL (R420). -/
def execMbusPoll (meter : BitVec 10) (s : State) : Host.Outcome State Fault Refusal :=
  .next (match meterOf s meter.toNat with
    | none => s
    | some m =>
      let q := if m.port then 3 else 2
      if !serSends s q then s
      else
        let s := makeDue q meter.toNat s.tsk.tick.toNat s
        if (ser s q).queue.isEmpty then startDue q s else s)

/-- The status byte of a reply's header, whether or not what follows it can be decoded (R420, R421): CI 0x72 and 0x7A carry one.
[Log: DESIGN CHOICE, unsafe, entry 259.] -/
def headerStatus (u : List Byte) : Byte :=
  let d := u.drop 3
  match u.getD 2 0 with
  | 0x72 => if d.length < 12 then 0 else d.getD 9 0
  | 0x7A => if d.length < 4 then 0 else d.getD 1 0
  | _ => 0

/-- All targets of a meter and its status word are written together (R421). -/
def meterTargets (m : MbusMeter) (st : Byte) (recs : List MbusRec) (s : State) : State :=
  let missing := m.sels.any fun sel => (recs.find? (recMatches sel)).isNone
  let s := m.sels.foldl (fun s sel =>
    match recs.find? (recMatches sel) with
    | none => s
    | some r =>
      let v := recValue r sel
      putWords sel.target.toNat (if sel.long then [hi24 (BitVec.ofInt 48 v), lo24 (BitVec.ofInt 48 v)] else [BitVec.ofInt 24 v]) s) s
  putStatus m (fun _ => 1 + bitAt missing 3 + st.toNat * 2 ^ 8) s

/-- A reply whose telegrams are complete (R420, R421): the status byte is that of the last telegram's header.
[Log: DESIGN CHOICE, unsafe, entry 259.] -/
def meterDone (q : Nat) (m : MbusMeter) (got : List (List Byte)) (s : State) : State :=
  let ds := got.map mbusDecode
  let st := headerStatus (got.getLastD [])
  let s := if ds.any (·.isNone) then putStatus m (fun _ => 4 + st.toNat * 2 ^ 8) s
    else meterTargets m st (ds.flatMap fun d => match d with | some d => d.2.1 | none => []) s
  jobEnd q s

/-- MBUS_ANSWER (R419 to R421, R225). -/
def execMbusAnswer (port : BitVec 1) (telegram : List Byte) (s : State) : Host.Outcome State Fault Refusal :=
  let q := 2 + port.toNat
  let seen := fun (s : State) => updSer q (fun x => { x with rx := satInc x.rx }) s
  .next (match (ser s q).job with
    | some (.meter i tries sel got) =>
      match meterOf s i with
      | none => jobEnd q s
      | some m =>
        if sel then
          if telegram = [0xE5] then
            let s := seen s
            updSer q (fun x => { x with job := some (.meter i 0 false []) }) (sendMbus q (meterRequest s i m false) s)
          else serError q s
        else match (if m.ft3 then ft3Body telegram else ft12Body telegram) with
          | none => if m.ft3 then badCheck 2 q s else serError q s
          | some u =>
            let s := seen { s with ports.meterFcb := Tab.set false s.ports.meterFcb i (!(Tab.get false s.ports.meterFcb i)) }
            let got := got ++ [u]
            let more : Bool := match mbusDecode u with | some d => d.2.2 | none => false
            if more && decide (got.length < 4) then
              updSer q (fun x => { x with job := some (.meter i tries false got) }) (sendMbus q (meterRequest s i m false) s)
            else meterDone q m got s
    | some (.message m) =>
      if telegram = [0xE5] then messageEnd q m 0 [] (seen s)
      else match ft12Body telegram with
        | none => serError q s
        | some u => messageEnd q m 0 (u.drop 3) (seen s)
    | _ => s)

/-- MBUS_ANSWER_TIMEOUT (R421, R226): two retries. -/
def execMbusAnswerTimeout (port : BitVec 1) (s : State) : Host.Outcome State Fault Refusal :=
  let q := 2 + port.toNat
  .next (match (ser s q).job with
    | some (.meter i tries sel got) =>
      let s := updSer q (fun x => { x with timeout := satInc x.timeout }) s
      match meterOf s i with
      | none => jobEnd q s
      | some m =>
        if tries < 2 ∧ mayTransmit s then
          updSer q (fun x => { x with retry := satInc x.retry, job := some (.meter i (tries + 1) sel got) })
            (sendMbus q (meterRequest s i m sel) s)
        else jobEnd q (putStatus m (fun w => w ||| 2) s)
    | some (.message m) => messageEnd q m 2 [] (updSer q (fun x => { x with timeout := satInc x.timeout }) s)
    | _ => s)

/-- What the loss of the bus ends (R226, R421): a poll has failed, and a message gets no reply. [Log: DEDUCED, unsafe, entry 207.] -/
def dropJob (q : Nat) (s : State) : State :=
  let t := updSer q (fun x => { x with job := none }) s
  match (ser s q).job with
  | some (.meter i _ _ _) => match meterOf s i with | some m => putStatus m (fun w => w ||| 2) t | none => t
  | some (.message m) => writeMailbox q m.tag 2 [] t
  | _ => t

/-- MBUS_OVERCURRENT (R421). -/
def execMbusOvercurrent (port : BitVec 1) (s : State) : Host.Outcome State Fault Refusal :=
  let q := 2 + port.toNat
  .next (if serEnabled s q then
      accession 0 0x0A04 4 [BitVec.ofNat 8 q] (dropJob q (updSer q (fun x => { x with overCur := true, busEn := false }) s))
    else s)

/-! ## CAN FD rows -/

/-- An error counter of ISO 11898-1 after errors that have raised it and a good frame (R423). How much the errors since the last frame
have raised it is a free value, and a receive count above 127 falls to a free value from 119 to 127. [Log: PRESUMED, unsafe, entry 226.] -/
def errCount (rx : Bool) (step : Nat) (w : W32) (v : Byte) : Byte :=
  let r := min 255 (v.toNat + step * (w.toNat % 256))
  BitVec.ofNat 8 (if rx && decide (127 < r) then 119 + w.toNat / 256 % 9 else r - 1)

/-- The receive error count of CAN port q after a good frame (R423). -/
def canGoodRx (q : Nat) (s : State) : State :=
  let (w, s) := drawWord s
  updSer q (fun x => { x with recCnt := errCount true 1 w x.recCnt }) s

/-- The transmit error count of CAN port q after a frame that went out, eight up for each attempt that failed (R423). -/
def canGoodTx (q : Nat) (s : State) : State :=
  let (w, s) := drawWord s
  updSer q (fun x => { x with tx := satInc x.tx, tec := errCount false 8 w x.tec }) s

/-- CAN_RX (R423): remote frames are ignored; the lowest matching object takes the frame. -/
def execCanRx (port : BitVec 1) (f : CanFrame) (s : State) : Host.Outcome State Fault Refusal :=
  let q := 4 + port.toNat
  .next (match (ser s q).can with
    | none => s
    | some c =>
      if !serEnabled s q ∨ (ser s q).busOff then s
      else if f.remote then canGoodRx q s
      else match c.rx.find? fun o => decide (o.ext = f.ext) && decide (f.ident &&& o.mask = o.ident &&& o.mask) with
        | none => canGoodRx q s
        | some o =>
          let n := o.count.toNat
          let need := if o.word then 3 * n else (n + 7) / 8
          let s := canGoodRx q s
          if f.data.length < need then serError q s
          else
            let s := updSer q (fun x => { x with rx := satInc x.rx }) s
            if o.word then putWords o.base.toNat ((words3 f.data).take n) s
            else putBits o.base.toNat ((unpackBits f.data).take n) s)

/-- A transmit object falls due on CAN port q (R423). -/
def canDue (q o : Nat) (s : State) : State :=
  match (ser s q).can with
  | none => s
  | some c =>
    if c.listen ∨ !serSends s q ∨ c.tx[o]?.isNone then s
    else
      let s := updSer q (fun x => { x with txQueue := queueObj c o x.txQueue }) s
      if (ser s q).queue.isEmpty then startDue q s else s

/-- CAN_TX_PERIOD (R423). -/
def execCanTxPeriod (port : BitVec 1) (obj : BitVec 5) (s : State) : Host.Outcome State Fault Refusal :=
  let q := 4 + port.toNat
  .next (match ((ser s q).can.bind fun c => c.tx[obj.toNat]?) with
    | some t => if t.onCommit then s else canDue q obj.toNat s
    | none => s)

/-- CAN_TX_COMPLETE (R423, R225). -/
def execCanTxComplete (port : BitVec 1) (s : State) : Host.Outcome State Fault Refusal :=
  let q := 4 + port.toNat
  .next (match (ser s q).job with
    | some (.canTx _) => jobEnd q (canGoodTx q s)
    | some (.message m) => messageEnd q m 1 [] (canGoodTx q s)
    | _ => s)

/-- CAN_BUS_OFF (R423): the transmit error count has passed 255, where the register saturates. -/
def execCanBusOff (port : BitVec 1) (s : State) : Host.Outcome State Fault Refusal :=
  let q := 4 + port.toNat
  .next (if serEnabled s q then
      accession 0 0x0A05 4 [BitVec.ofNat 8 q] (updSer q (fun x => { x with busOff := true, tec := 255 }) s)
    else s)

/-- The port leaves bus-off with its error counters cleared (ISO 11898-1) and sends again what it was sending. [Log: PRESUMED, unsafe, entry 42.] -/
def busRecover (q : Nat) (s : State) : State :=
  if (ser s q).busOff then updSer q (fun x => { x with busOff := false, tec := 0, recCnt := 0 }) s else s

/-- CAN_BUS_OFF_RECOVERY (R423). -/
def execCanBusOffRecovery (port : BitVec 1) (s : State) : Host.Outcome State Fault Refusal :=
  let q := 4 + port.toNat
  .next (match (ser s q).can with
    | some c => if c.manual then s else busRecover q s
    | none => busRecover q s)

/-- Whether a task among `done` owns one of the n image points from `base` on (R67). -/
def ownedAmong (done : List Nat) (s : State) (word : Bool) (base n : Nat) : Bool :=
  (ownersOf (if word then s.prog.wordReg else s.prog.bitReg) (if word then 8 else 64) base n).any fun k => done.contains k

/-- Transaction t of port q becomes due by the commits of the tasks `done` when it is ON_COMMIT (R417). -/
def commitTx (done : List Nat) (q : Nat) (s : State) (t : ModbusTx × Nat) : State :=
  if t.1.onCommit && ownedAmong done s (t.1.fn = 6 || t.1.fn = 16) t.1.wordBase.toNat (if t.1.fn.toNat ≤ 6 then 1 else t.1.count.toNat)
  then makeDue q t.2 s.tsk.tick.toNat s else s

/-- Transmit object t of port q becomes due by the commits of the tasks `done` (R423). -/
def commitObj (done : List Nat) (q : Nat) (s : State) (t : CanTxObj × Nat) : State :=
  if t.1.onCommit && ownedAmong done s t.1.word t.1.base.toNat t.1.count.toNat then canDue q t.2 s else s

/-- What the commits of the tasks `done` make due on port q. -/
def commitPort (done : List Nat) (s : State) (q : Nat) : State :=
  let s := match (ser s q).rs485 with
    | some c =>
      if c.master && serSends s q then
        let s := c.txs.zipIdx.foldl (commitTx done q) s
        if (ser s q).queue.isEmpty then startDue q s else s
      else s
    | none => s
  match (ser s q).can with
  | some c => c.tx.zipIdx.foldl (commitObj done q) s
  | none => s

/-- What the commits of the tasks `done` make due on the serial-class ports (R417, R423): ON_COMMIT writes and
transmit objects whose points an owner among them holds. -/
def commitDue (done : List Nat) (s : State) : State := (List.range 6).foldl (commitPort done) s

end Sys2Proof.Machine
end

