-- ==== Sys2Proof/Machine/Pins.lean ====
section
/-! DEFINITION. Multi-function pins, timebase inputs and outputs, and the check-value unit (R72, R75, R424 to R432, R436,
R437). -/

namespace Sys2Proof.Machine

/-! ## Timebase -/

/-- TIME_IN_EDGE (R430): the marking edge, more than 100 µs off once LOCKED, is rejected. -/
def execTimeInEdge (rising : Bool) (offsetNs : BitVec 32) (s : State) : Host.Outcome State Fault Refusal :=
  .next (if !enabled s 0x20 0 ∨ s.ports.tinPin = 0xFF ∨ rising = s.ports.tbFlags.getLsbD 0 then s
    else if s.tsk.locked && decide (offsetNs.toInt.natAbs > 100000) then { s with ports.rejected := s.ports.rejected + 1 }
    else
      let s := retime { s with ports.edges := s.ports.edges + 1, ports.tinUp := true }
      if s.tsk.activeSrc = 2 then noteOffset (sat24 offsetNs.toInt) s else s)

/-- Whether PPS_WIDTH µs have passed since PPS_OUT rose, by the edge `ahead` ticks after the present one (R430). -/
def ppsOver (ahead : Nat) (s : State) : Bool := decide (s.ports.ppsWidth.toNat ≤ 10 * (s.sys.upTicks + ahead - s.ports.ppsAt))

/-- PPS_PULSE_END (R430): a pulse whose width ends before the coming tick edge. [Log: DEDUCED, unsafe, entry 227.] -/
def execPpsPulseEnd (s : State) : Host.Outcome State Fault Refusal :=
  .next (if ppsOver 1 s then { s with ports.ppsHigh := false } else s)

/-- The source in use is no longer there (R72, R75). -/
def loseSource (s : State) : State :=
  match s.tsk.activeSrc.toNat with
  | 1 => updPort (asPort s) (fun f => { f with asSync := false }) s
  | 2 => { s with ports.tinUp := false }
  | 4 => { s with tsk.activeSrc := 0 }
  | _ => s

/-- TIMEBASE_LOCK (R72, R75): a lock needs a source and an offset within ±1 µs, and the source changes to the first available
one alone. [Log: DESIGN CHOICE, unsafe, entry 36; DEDUCED, unsafe, entry 85.] -/
def lockEvent (e : LockEvent) (s : State) : State :=
  match e with
  | .locked o =>
    if s.tsk.activeSrc = 0 ∨ 1000 < o.toInt.natAbs then s
    else if s.tsk.locked then { s with tsk.offset := o }
    else timebaseAcc { s with tsk.locked := true, tsk.offset := o }
  | .lost =>
    if !s.tsk.locked ∧ s.tsk.activeSrc = 0 then s
    else
      let c := pickSource (loseSource s)
      timebaseAcc { loseSource s with tsk.locked := false, tsk.activeSrc := c, tsk.offset := if c = 0 then 0 else s.tsk.offset }
  | .offsetExceeded o => if 10000 < o.toInt.natAbs then noteOffset o s else s
  | .source c => if c = pickSource s then retime s else s

/-- TIMEBASE_LOCK (R75). -/
def execTimebaseLock (e : LockEvent) (s : State) : Host.Outcome State Fault Refusal := .next (lockEvent e s)

/-! ## Pins -/

/-- CAST_IN_EDGE (R432). -/
def execCastInEdge (widthNs : Nat) (s : State) : Host.Outcome State Fault Refusal :=
  .next (if enabled s 0x21 0 ∧ widthNs ≥ 1000 then raiseCast 4 s else s)

/-- GPIO instance p. -/
def gpio (s : State) (p : Nat) : Gpio := Tab.get {} s.ports.gpio p

/-- The input latch takes the filtered levels after the sample of the edge before (R431). A standby uses the active
partner's, which item 0x06 of the record brings. -/
def gpioLatch (s : State) : State :=
  (List.range 6).foldl (fun s p =>
    if enabled s 0x25 p && (gpio s p).dir = 0 && !standby s then putRaw (gpio s p).bit.toNat [(gpio s p).level] s else s) s

/-- One sample of a GPIO input with its filter (R431). -/
def gpioSample (lvl : Bool) (g : Gpio) : Gpio :=
  let run := if lvl = g.cand then g.run + 1 else 1
  let g := { g with cand := lvl, run := min run 16 }
  if run ≥ g.filter.toNat + 1 then { g with level := lvl } else g

/-- Sample the pins at a tick edge, and bring each output pin to the value its bit had after the commits of the edge
before (R431). Call it before the output copy. -/
def gpioTick (mfp : BitVec 6) (s : State) : State :=
  (List.range 6).foldl (fun s p =>
    if enabled s 0x25 p then
      let g := gpio s p
      let g := if g.dir = 0 then gpioSample (mfp.getLsbD p) g
               else { g with out := Tab.get false s.tsk.outBits g.bit.toNat }
      { s with ports.gpio := Tab.set {} s.ports.gpio p g }
    else s) { s with ports.mfpLevel := mfp }

/-- PPS_OUT rises where the time of day reaches a whole second, and has fallen where PPS_WIDTH has passed (R430): `was` and `now` are
the times of the edge before and of this edge. [Log: DEDUCED, unsafe, entry 55; DEDUCED, unsafe, entry 227.] -/
def ppsTick (was now : Nat) (s : State) : State :=
  if enabled s 0x20 0 && s.ports.ppsPin ≠ 0xFF && decide (was / 2 ^ 15 ≠ now / 2 ^ 15) &&
     (!s.ports.tbFlags.getLsbD 1 || s.tsk.locked) && s.sys.boot = .ready
  then { s with ports.ppsHigh := true, ports.ppsAt := s.sys.upTicks }
  else if ppsOver 0 s then { s with ports.ppsHigh := false } else s

/-! ## Contacts (R61, R429 to R431, R585, R590): what the module drives, by its state -/

/-- Whether PFAIL_N is driven low: from the power-fail warning until the next power-on reset is released (R585). -/
def pfailLow (s : State) : Bool := s.sys.pfail

/-- Whether PHY_RST_N is driven low: in reset, until start-up step 2 begins (R590). -/
def phyResetLow (s : State) : Bool := inReset s

/-- The level of RS485_q_DE: low in reset and while the port is not enabled (R61, R590); none where its frames decide. -/
def rs485De (s : State) (q : Nat) : Option Bool := if inReset s || !enabled s 0x12 q then some false else none

/-- The level of CAN_q_TXD: high, which is recessive, in reset and while the port is not enabled (R61, R590); none where its frames
decide. -/
def canTxd (s : State) (q : Nat) : Option Bool := if inReset s || !enabled s 0x14 q then some true else none

/-- Whether MBUS_EN of M-Bus port q is high: the port is enabled and no over-current has switched it off (R61, R421). -/
def mbusSupply (s : State) (q : Nat) : Bool := !inReset s && enabled s 0x13 q && !(Tab.get {} s.ports.ser (2 + q)).overCur

/-- The level that the module drives on MFPp; none where the pin is high-impedance or an open-drain output is released
(R61, R429 to R431). A standby drives no GPIO output, and PPS_OUT pulses in every role. -/
def mfpDrive (s : State) (p : Nat) : Option Bool :=
  if s.sys.boot ≠ .ready then none
  else if enabled s 0x20 0 && decide (s.ports.ppsPin.toNat = p) then
    if s.ports.tbFlags.getLsbD 2 && s.ports.ppsHigh then none else some s.ports.ppsHigh
  else
    let g := gpio s p
    if !enabled s 0x25 p || standby s || g.dir = 0 then none
    else if g.dir = 2 && g.out then none
    else some g.out

/-! ## Check-value unit -/

/-- Check-value channel n. -/
def crcCh (s : State) (n : Nat) : CrcCh := Tab.get {} s.ports.crc n
/-- Change check-value channel n. -/
def updCrc (n : Nat) (f : CrcCh → CrcCh) (s : State) : State := { s with ports.crc := Tab.upd {} s.ports.crc n f }

/-- Whether writes to a channel are taken: no feature but USER_CRC holds it (R436). -/
def crcOpen (s : State) (n : Nat) : Bool := (claimAt s (48 + n)).code = 0 || (claimAt s (48 + n)).code = 0x26

/-- The parameters of a channel, its values cut to W bits. -/
def chParams (c : CrcCh) : CrcParams :=
  let w := c.widthM1.toNat + 1
  ⟨w, c.poly.toNat % 2 ^ w, c.init.toNat % 2 ^ w, c.refin, c.refout, c.xor.toNat % 2 ^ w⟩

/-- A CRC_CFG write with PRESET not 0 (R437); a code that R426 does not name loads nothing. [Log: DESIGN CHOICE, unsafe, entry 45.] -/
def loadPreset (n : Nat) (value : W32) (s : State) : State :=
  match crcPreset (field value.toNat 15 8) with
  | none => s
  | some p => updCrc n (fun c => { c with preset := BitVec.ofNat 8 (field value.toNat 15 8), poly := BitVec.ofNat 64 p.poly, init := BitVec.ofNat 64 p.init, xor := BitVec.ofNat 64 p.xorout, refin := p.refin, refout := p.refout, widthM1 := BitVec.ofNat 6 (p.width - 1) }) s

/-- CRC_PRESET_LOAD (R437). -/
def execCrcPresetLoad (ch : BitVec 2) (value : W32) (s : State) : Host.Outcome State Fault Refusal :=
  .next (if crcOpen s ch.toNat then loadPreset ch.toNat value s else s)

/-- The committed words from a word address as bytes (R428). -/
def crcBytes (s : State) (a n : Nat) : List Byte :=
  (List.range n).flatMap fun i => beBytes 3 (Tab.get 0 s.tsk.words ((a + i) % 2 ^ 21)).toNat

/-- A USER_CRC run starts (R428). -/
def startUserCrc (n : Nat) (s : State) : State :=
  updCrc n (fun c => { c with busy := decide (c.count ≠ 0), done := 0, reg := BitVec.ofNat 64 (chParams c).init }) s

/-- The check bytes at the end of the data in CHECK_STRIP (R427). -/
def stripLen (c : CrcCh) : Nat := if c.mode = 2 then (c.widthM1.toNat + 8) / 8 else 0

/-- What channel n sends on in APPEND (R427). A USER_CRC run names no port that takes it. [Log: DESIGN CHOICE, safe, entry 228.] -/
def crcSend (n : Nat) (bytes : List Byte) (s : State) : State :=
  if (crcCh s n).mode = 1 then emit (.checked (BitVec.ofNat 2 n) bytes) s else s

/-- The result of a run as ceil(W / 8) bytes in the byte order of LE (R427). -/
def crcResult (c : CrcCh) : List Byte :=
  let k := (c.widthM1.toNat + 8) / 8
  let r := crcFinish (chParams c) c.reg.toNat
  if c.le then leBytes k r else beBytes k r

/-- The end of a run (R427): COMPUTE leaves the result; APPEND sends it; CHECK_STRIP compares it with the last bytes. -/
def crcEnd (n : Nat) (tail : List Byte) (s : State) : State :=
  updCrc n (fun c =>
    let r := crcFinish (chParams c) c.reg.toNat
    let c := { c with busy := false }
    if c.mode = 2 then
      if (if c.le then leNat tail else beNat tail) = r then c else { c with err := true, mismatch := satInc c.mismatch }
    else if c.mode = 1 then c
    else { c with res := BitVec.ofNat 64 r }) (crcSend n (crcResult (crcCh s n)) s)

/-- USER_CRC_CHUNK (R427, R428): up to 4,096 words between two tick edges. -/
def crcChunk (n : Nat) (s : State) : State :=
  let c := crcCh s n
  if !c.busy ∨ !enabled s 0x26 n then s
  else
    let k := min 4096 (c.count.toNat - c.done)
    let bytes := crcBytes s (c.addr.toNat + c.done) k
    let left := 3 * (c.count.toNat - c.done) - stripLen c
    let reg := (bytes.take left).foldl (crcByte (chParams c)) c.reg.toNat
    let s := crcSend n bytes (updCrc n (fun c => { c with done := c.done + k, reg := BitVec.ofNat 64 reg }) s)
    if c.done + k = c.count.toNat then
      crcEnd n (crcBytes s (c.addr.toNat + c.count.toNat - min 3 c.count.toNat) (min 3 c.count.toNat) |>.drop (3 * min 3 c.count.toNat - stripLen c)) s
    else s

/-- USER_CRC_CHUNK (R428). -/
def execUserCrcChunk (ch : BitVec 2) (s : State) : Host.Outcome State Fault Refusal := .next (crcChunk ch.toNat s)

end Sys2Proof.Machine
end

