-- ==== Sys2Proof/Machine/SwmIns.lean ====
section
/-! DEFINITION. The meaning of every SWM instruction on a run (chapter 05), before traps are taken and writes leave the
run: a function from what the instruction sees (`Env`), the decoded instruction and the run in progress. The run's PC
already stands at the next instruction. -/

namespace Sys2Proof.Machine

/-- What an instruction does. -/
abbrev Meaning := Env → Ins → X → X

/-- Form an operand when the instruction uses it (R186). -/
def formUsed (env : Env) (ty : Option Ty) (o : Opnd) (x : X) : Loc × X :=
  match ty with
  | none => (.absent, x)
  | some t => formOp env t false o x

/-- Read an operand when the instruction uses it. -/
def readUsed (env : Env) (ty : Option Ty) (l : Loc) (x : X) : L48 × X :=
  match ty with
  | none => (0, x)
  | some t => readLoc env t l x

/-- The four steps of R192 for an instruction that computes A from A, B and C: `tb` and `tc` are the types of the
sources it uses, `ra` says that it reads A. [Log: DESIGN CHOICE, safe, entry 18.] -/
def insAlu (ta : Ty) (tb tc : Option Ty) (ra : Bool) (f : Nat → Alu) : Meaning := fun env i x =>
  let (la, x) := formOp env ta false i.a x
  let (lb, x) := formUsed env tb i.b x
  let (lc, x) := formUsed env tc i.c x
  let (b, x) := readUsed env tb lb x
  let (c, x) := readUsed env tc lc x
  let (a, x) := if ra then readLoc env ta la x else (0, x)
  let r := f i.sub a b c
  writeLoc env ta la r.1 (raise r.2 x)

/-- A bit instruction with sources B and C (R207). -/
def insBit (f : Bool → Bool → Bool) : Meaning :=
  insAlu .bit (some .bit) (some .bit) false fun _ => onBits fun _ b c => f b c
/-- A bit instruction with one source (R207). -/
def insBit1 (f : Bool → Bool) : Meaning := insAlu .bit (some .bit) none false fun _ => onBits fun _ b _ => f b
/-- A WORD instruction with sources B and C (R209). -/
def insWord (f : W24 → W24 → W24 → W24 × Sticky) : Meaning :=
  insAlu .word (some .word) (some .word) false fun _ => onWords f
/-- A WORD instruction with one source (R209). -/
def insWord1 (f : W24 → W24 → W24 → W24 × Sticky) : Meaning :=
  insAlu .word (some .word) none false fun _ => onWords f
/-- A WORD compare (R211). -/
def insCmp (p : W24 → W24 → Bool) : Meaning :=
  insAlu .bit (some .word) (some .word) false fun _ => compareWords p
/-- A LONG instruction with sources B and C (R212). -/
def insLong (f : L48 → L48 → L48 → L48 × Sticky) : Meaning :=
  insAlu .long (some .long) (some .long) false fun _ => f
/-- A LONG shift: the count is a WORD (R212). -/
def insLongShift (f : L48 → Nat → L48) : Meaning :=
  insAlu .long (some .long) (some .word) false fun _ _ b c => plain (f b c.toNat)
/-- A REAL48 instruction with sources B and C (R214). -/
def insReal (f : L48 → L48 → L48 × Sticky) : Meaning :=
  insAlu .real (some .real) (some .real) false fun _ _ b c => f b c
/-- A REAL48 instruction with one source (R214). -/
def insReal1 (f : L48 → L48 × Sticky) : Meaning := insAlu .real (some .real) none false fun _ _ b _ => f b
/-- A conversion (R216). -/
def insConv (ta tb : Ty) (f : L48 → L48 × Sticky) : Meaning := insAlu ta (some tb) none false fun _ _ b _ => f b

/-! ## Control and special (R199 to R201) -/

/-- NOP. -/
def insNop : Meaning := fun _ _ x => x
/-- CHK: the run records the check-in (R201). -/
def insChk : Meaning := fun _ _ x => { x with run.chk := true }
/-- CAST raises the trigger (R200). -/
def insCast : Meaning := fun _ _ x => { x with outs := x.outs ++ [.cast] }

/-- TRAP raises 0x100 + A[7:0]. -/
def insTrap : Meaning := fun env i x =>
  let (la, x) := formOp env .word false i.a x
  let (a, x) := readLoc env .word la x
  { x with trap := some (BitVec.ofNat 16 (0x100 + a.toNat % 256)) }

/-- The special register that SUBOP names (R179), with its width as LONG or not. [Log: DESIGN CHOICE, safe, entry 168.] -/
def specialReg (env : Env) (i : Ins) (x : X) : Bool × L48 :=
  match i.sub with
  | 0x00 => (false, i.pc.setWidth 48)
  | 0x01 => (false, x.run.repc.setWidth 48)
  | 0x02 => (false, x.run.tsw.setWidth 48)
  | 0x03 => (true, env.lt)
  | 0x04 => (false, BitVec.ofNat 48 x.run.task)
  | 0x05 => (false, BitVec.ofNat 48 x.run.seg)
  | 0x06 => (false, BitVec.ofNat 48 env.core)
  | _ => (false, 0)

/-- MOVSR (R179, R199); a code from 0x07 on writes its 0 as a WORD. [Log: DESIGN CHOICE, unsafe, entry 219.] -/
def insMovsr : Meaning := fun env i x =>
  let ty : Ty := if i.sub = 3 then .long else .word
  let (la, x) := formOp env ty false i.a x
  writeLoc env ty la (specialReg env i x).2 x

/-- The bits of TSW that SETTSW writes (R181). -/
def tswMask : W24 := 0x71F

/-- SETTSW (R181, R199): never traps. -/
def insSettsw : Meaning := fun env i x =>
  let (la, x) := formOp env .word false i.a x
  let (a, x) := readLoc env .word la x
  { x with run.tsw := a.setWidth 24 &&& tswMask }

/-! ## Repeat prefixes (R202 to R204) -/

/-- Whether the supervisor is asked for an opcode: reserved without a valid decode entry (R237). -/
def passedToSup (env : Env) (op : Nat) : Bool :=
  if customerOp op then !(env.dec (op - 0xE0)).getLsbD 31 else reservedOp op

/-- A repeat prefix. On resumption the count is the saved REPC and A is not evaluated (R142). -/
def insPrefix (repn : Bool) : Meaning := fun env i x =>
  let nxt := decodeIns env.fetch i.next
  if noPrefix nxt.op then
    { x with run.pc := nxt.next, trap := some trapIllegalPrefix }
  else
    let (n, x) :=
      if x.run.resumed then (x.run.repc.setWidth 48, x)
      else let (la, x) := formOp env .word false i.a x
           readLoc env .word la x
    let cnt := if repn then Nat.min n.toNat 256 else n.toNat
    let x := { x with run.resumed := false }
    if cnt = 0 then { x with run.pc := nxt.next, run.repc := 0 }
    else
      let can := !repn || passedToSup env nxt.op || nxt.op = 0x77 || nxt.op = 0x78 || nxt.op = 0x79
      { x with run.pc := i.next, run.repc := BitVec.ofNat 24 cnt, run.rep := some ⟨i.pc, i.next, can⟩ }

/-- REPI. -/
def insRepi : Meaning := insPrefix false
/-- REPN. -/
def insRepn : Meaning := insPrefix true

/-! ## Bit logic (R207, R208) -/

/-- SETB. -/
def insSetb : Meaning := insAlu .bit none none false fun _ _ _ _ => plain 1
/-- CLRB. -/
def insClrb : Meaning := insAlu .bit none none false fun _ _ _ _ => plain 0
/-- MOVB. -/
def insMovb : Meaning := insBit1 id
/-- NOTB. -/
def insNotb : Meaning := insBit1 not
/-- ANDB. -/
def insAndb : Meaning := insBit fun b c => b && c
/-- ORB. -/
def insOrb : Meaning := insBit fun b c => b || c
/-- XORB. -/
def insXorb : Meaning := insBit fun b c => b != c
/-- NANDB. -/
def insNandb : Meaning := insBit fun b c => !(b && c)
/-- NORB. -/
def insNorb : Meaning := insBit fun b c => !(b || c)
/-- XNORB. -/
def insXnorb : Meaning := insBit fun b c => b == c
/-- ANDNB. -/
def insAndnb : Meaning := insBit fun b c => b && !c
/-- ORNB. -/
def insOrnb : Meaning := insBit fun b c => b || !c

/-- RISE and FALL: A is written first, then C := B (R208). -/
def insEdge (f : Bool → Bool → Bool) : Meaning := fun env i x =>
  let (la, x) := formOp env .bit false i.a x
  let (lb, x) := formOp env .bit false i.b x
  let (lc, x) := formOp env .bit false i.c x
  let (_, x) := readLoc env .bit la x
  let (b, x) := readLoc env .bit lb x
  let (c, x) := readLoc env .bit lc x
  writeLoc env .bit lc b (writeLoc env .bit la (ofBool48 (f (nz b) (nz c))) x)

/-- RISE. -/
def insRise : Meaning := insEdge fun b c => b && !c
/-- FALL. -/
def insFall : Meaning := insEdge fun b c => c && !b
/-- SR. -/
def insSr : Meaning := insAlu .bit (some .bit) (some .bit) true fun _ => onBits fun a b c => b || (a && !c)
/-- RS. -/
def insRs : Meaning := insAlu .bit (some .bit) (some .bit) true fun _ => onBits fun a b c => !c && (a || b)
/-- TGLB. -/
def insTglb : Meaning := insAlu .bit none none true fun _ => onBits fun a _ _ => !a

/-! ## WORD arithmetic, logic and compares (R209 to R211) -/

/-- MOV. -/
def insMov : Meaning := insWord1 fun _ b _ => (b, 0)
/-- ADD. -/
def insAdd : Meaning := insWord aluAdd
/-- SUB. -/
def insSub : Meaning := insWord aluSub
/-- ADDS. -/
def insAdds : Meaning := insWord aluAdds
/-- SUBS. -/
def insSubs : Meaning := insWord aluSubs
/-- NEG. -/
def insNeg : Meaning := insWord1 aluNeg
/-- ABS. -/
def insAbs : Meaning := insWord1 aluAbs
/-- MUL. -/
def insMul : Meaning := insWord aluMul
/-- MULL. -/
def insMull : Meaning := insAlu .long (some .word) (some .word) false fun _ => aluMull
/-- MULLU. -/
def insMullu : Meaning := insAlu .long (some .word) (some .word) false fun _ => aluMullu
/-- DIV. -/
def insDiv : Meaning := insWord aluDiv
/-- REM. -/
def insRem : Meaning := insWord aluRem
/-- DIVU. -/
def insDivu : Meaning := insWord aluDivu
/-- REMU. -/
def insRemu : Meaning := insWord aluRemu
/-- AND. -/
def insAnd : Meaning := insWord aluAnd
/-- OR. -/
def insOr : Meaning := insWord aluOr
/-- XOR. -/
def insXor : Meaning := insWord aluXor
/-- NOT. -/
def insNot : Meaning := insWord1 fun _ b _ => (~~~b, 0)
/-- SHL. -/
def insShl : Meaning := insWord fun _ b c => (shl b c.toNat, 0)
/-- SHR. -/
def insShr : Meaning := insWord fun _ b c => (shr b c.toNat, 0)
/-- SAR. -/
def insSar : Meaning := insWord fun _ b c => (sar b c.toNat, 0)
/-- ROL. -/
def insRol : Meaning := insWord aluRol
/-- ROR. -/
def insRor : Meaning := insWord aluRor
/-- MIN. -/
def insMin : Meaning := insWord aluMin
/-- MAX. -/
def insMax : Meaning := insWord aluMax
/-- LIMIT reads A. -/
def insLimit : Meaning := insAlu .word (some .word) (some .word) true fun _ => onWords aluLimit
/-- CMPEQ. -/
def insCmpeq : Meaning := insCmp fun b c => b == c
/-- CMPNE. -/
def insCmpne : Meaning := insCmp fun b c => b != c
/-- CMPLT. -/
def insCmplt : Meaning := insCmp fun b c => b.slt c
/-- CMPLE. -/
def insCmple : Meaning := insCmp fun b c => b.sle c
/-- CMPGT. -/
def insCmpgt : Meaning := insCmp fun b c => c.slt b
/-- CMPGE. -/
def insCmpge : Meaning := insCmp fun b c => c.sle b
/-- CMPLTU. -/
def insCmpltu : Meaning := insCmp fun b c => b.ult c
/-- CMPLEU. -/
def insCmpleu : Meaning := insCmp fun b c => b.ule c
/-- CMPGTU. -/
def insCmpgtu : Meaning := insCmp fun b c => c.ult b
/-- CMPGEU. -/
def insCmpgeu : Meaning := insCmp fun b c => c.ule b

/-! ## LONG (R212, R213) -/

/-- MOVL. -/
def insMovl : Meaning := insConv .long .long plain
/-- ADDL. -/
def insAddl : Meaning := insLong aluAdd
/-- SUBL. -/
def insSubl : Meaning := insLong aluSub
/-- ADDSL. -/
def insAddsl : Meaning := insLong aluAdds
/-- SUBSL. -/
def insSubsl : Meaning := insLong aluSubs
/-- NEGL. -/
def insNegl : Meaning := insConv .long .long fun b => aluNeg 0 b 0
/-- LMUL. -/
def insLmul : Meaning := insLong aluMul
/-- DIVL. -/
def insDivl : Meaning := insLong aluDiv
/-- REML. -/
def insReml : Meaning := insLong aluRem
/-- SHLL. -/
def insShll : Meaning := insLongShift shl
/-- SHRL. -/
def insShrl : Meaning := insLongShift shr
/-- SARL. -/
def insSarl : Meaning := insLongShift sar
/-- CMPL (R213). -/
def insCmpl : Meaning :=
  insAlu .bit (some .long) (some .long) false fun sub _ b c => ofTruth (longCompare sub b c)
/-- ANDL. -/
def insAndl : Meaning := insLong aluAnd
/-- ORL. -/
def insOrl : Meaning := insLong aluOr
/-- XORL. -/
def insXorl : Meaning := insLong aluXor

/-! ## REAL48 and conversions (R214 to R217) -/

/-- MOVF. -/
def insMovf : Meaning := insReal1 realCanon
/-- ADDF. -/
def insAddf : Meaning := insReal realAdd
/-- SUBF. -/
def insSubf : Meaning := insReal realSub
/-- MULF. -/
def insMulf : Meaning := insReal realMul
/-- DIVF. -/
def insDivf : Meaning := insReal realDiv
/-- NEGF. -/
def insNegf : Meaning := insReal1 realNeg
/-- ABSF. -/
def insAbsf : Meaning := insReal1 realAbs
/-- SQRTF. -/
def insSqrtf : Meaning := insReal1 realSqrt
/-- MINF. -/
def insMinf : Meaning := insReal realMin
/-- MAXF. -/
def insMaxf : Meaning := insReal realMax
/-- CMPF (R213, R215). -/
def insCmpf : Meaning :=
  insAlu .bit (some .real) (some .real) false fun sub _ b c =>
    let r := realCompare sub b c
    (ofBool48 r.1, r.2)
/-- ROUNDF. -/
def insRoundf : Meaning := insReal1 (realIntegral false)
/-- TRUNCF. -/
def insTruncf : Meaning := insReal1 (realIntegral true)
/-- CVTWF. -/
def insCvtwf : Meaning := insConv .real .word fun b => plain (realOfInt (b.setWidth 24).toInt)
/-- CVTUF. -/
def insCvtuf : Meaning := insConv .real .word fun b => plain (realOfInt (b.setWidth 24).toNat)
/-- CVTLF. -/
def insCvtlf : Meaning := insConv .real .long fun b => plain (realOfInt b.toInt)
/-- CVTFW. -/
def insCvtfw : Meaning := insConv .word .real (realToInt false 24)
/-- CVTFL. -/
def insCvtfl : Meaning := insConv .long .real (realToInt false 48)
/-- TRNFW. -/
def insTrnfw : Meaning := insConv .word .real (realToInt true 24)
/-- TRNFL. -/
def insTrnfl : Meaning := insConv .long .real (realToInt true 48)
/-- SXWL. -/
def insSxwl : Meaning := insConv .long .word fun b => plain ((b.setWidth 24).signExtend 48)
/-- ZXWL. -/
def insZxwl : Meaning := insConv .long .word plain
/-- CVTLW. -/
def insCvtlw : Meaning := insConv .word .long fun b => aluCvtlw 0 b 0
/-- BCDW. -/
def insBcdw : Meaning := insConv .word .word fun b => aluBcdw 0 b 0
/-- WBCD. -/
def insWbcd : Meaning := insConv .word .word fun b => aluWbcd 0 b 0

/-! ## Block and table instructions (R218 to R222) -/

/-- An element count: unsigned, at most 256 (R218). -/
def blockCount (c : L48) : Nat := min c.toNat 256

/-- MOVBLK (R219). -/
def insMovblk : Meaning := fun env i x =>
  let (la, x) := formOp env .word true i.a x
  let (lb, x) := formOp env .word true i.b x
  let (lc, x) := formOp env .word false i.c x
  let (c, x) := readLoc env .word lc x
  let (ws, x) := readWords env (addrOf lb) 0 (blockCount c) x
  writeWords env (addrOf la) 0 ws x

/-- FILL (R218). -/
def insFill : Meaning := fun env i x =>
  let (la, x) := formOp env .word true i.a x
  let (lb, x) := formOp env .word false i.b x
  let (lc, x) := formOp env .word false i.c x
  let (b, x) := readLoc env .word lb x
  let (c, x) := readLoc env .word lc x
  writeWords env (addrOf la) 0 (List.replicate (blockCount c) (lo24 b)) x

/-- The index of the first of `n` entries from entry `k` on that equals `v`; 0xFF_FFFF when none does (R220). -/
def scanTable (env : Env) (base : Option W24) (v : W24) : Nat → Nat → X → W24 × X
  | _, 0, x => (0xFFFFFF, x)
  | k, n + 1, x =>
    let (w, x) := readAt env base (1 + k) x
    if w = v then (BitVec.ofNat 24 k, x) else scanTable env base v (k + 1) n x

/-- SCAN (R220). -/
def insScan : Meaning := fun env i x =>
  let (la, x) := formOp env .word false i.a x
  let (lb, x) := formOp env .word true i.b x
  let (lc, x) := formOp env .word false i.c x
  let (c, x) := readLoc env .word lc x
  let (n, x) := readAt env (addrOf lb) 0 x
  let (r, x) := scanTable env (addrOf lb) (lo24 c) 0 (min n.toNat 4096) x
  writeLoc env .word la (r.setWidth 48) x

/-- Read pair i of a LOOKUP table (R220). -/
def readPair (env : Env) (base : Option W24) (i : Nat) (x : X) : (Int × Int) × X :=
  let (a, x) := readAt env base (1 + 2 * i) x
  let (b, x) := readAt env base (2 + 2 * i) x
  ((a.toInt, b.toInt), x)

/-- LOOKUP from pair i, which has been read, with `n` pairs left (R220). -/
def lookupFrom (env : Env) (base : Option W24) (v : Int) (i : Nat) (xi yi : Int) : Nat → X → Int × X
  | 0, x => (yi, x)
  | n + 1, x =>
    let (p, x) := readPair env base (i + 1) x
    if xi ≤ v ∧ v < p.1 then (yi + roundHalfAway ((v - xi) * (p.2 - yi)) (p.1 - xi), x)
    else lookupFrom env base v (i + 1) p.1 p.2 n x

/-- LOOKUP (R220). -/
def insLookup : Meaning := fun env i x =>
  let (la, x) := formOp env .word false i.a x
  let (lb, x) := formOp env .word true i.b x
  let (lc, x) := formOp env .word false i.c x
  let (c, x) := readLoc env .word lc x
  let v := (lo24 c).toInt
  let (w, x) := readAt env (addrOf lb) 0 x
  let n := min w.toNat 256
  let (r, x) : Int × X :=
    if n = 0 then (0, x)
    else
      let (p, x) := readPair env (addrOf lb) 0 x
      if v < p.1 then (p.2, x) else lookupFrom env (addrOf lb) v 0 p.1 p.2 (n - 1) x
  writeLoc env .word la ((BitVec.ofInt 24 r).setWidth 48) x

/-- The result of one step of PIDS: I, OUT, and the conditions of its operations; NaN in any operation (R222). -/
structure PidsOut where
  i   : L48
  out : L48
  st  : Sticky
  nan : Bool

/-- A chain of REAL48 operations: the value of the last, the conditions of all, whether one gave a NaN. -/
structure RealAcc where
  v   : L48
  st  : Sticky := 0
  nan : Bool := false

/-- Apply one operation of a chain to two values computed before it. -/
def accOp (f : L48 → L48 → L48 × Sticky) (x y : RealAcc) : RealAcc :=
  let r := f x.v y.v
  { v := r.1, st := x.st ||| y.st ||| r.2, nan := x.nan || y.nan || isNan r.1 }

/-- A value read from the record or an operand. -/
def accOf (v : L48) : RealAcc := { v := v }

/-- One PID step (R222) on KP, KI, KD, OMIN, OMAX, I, PVPREV, OUT and CTRL's MAN and REV. -/
def pidStep (kp ki kd omin omax iv pvprev out pv sp : L48) (man rev : Bool) : PidsOut :=
  let pvA := accOf pv
  let e := if rev then accOp realSub pvA (accOf sp) else accOp realSub (accOf sp) pvA
  if man then
    let r := accOp realSub (accOf out) (accOp realMul (accOf kp) e)
    { i := r.v, out := out, st := r.st, nan := r.nan }
  else
    let p := accOp realMul (accOf kp) e
    let d0 := accOp realMul (accOf kd) (accOp realSub (accOf pvprev) pvA)
    let d := if rev then { d0 with v := (realNeg d0.v).1 } else d0
    let i1 := accOp realAdd (accOf iv) (accOp realMul (accOf ki) e)
    let lo := accOp realSub (accOp realSub (accOf omin) p) d
    let hi := accOp realSub (accOp realSub (accOf omax) p) d
    let i2 := accOp realMin (accOp realMax i1 lo) hi
    let s := accOp realAdd (accOp realAdd p i2) d
    let o := accOp realMin (accOp realMax s (accOf omin)) (accOf omax)
    { i := i2.v, out := o.v, st := o.st, nan := o.nan }

/-- PIDS (R221, R222). [Log: DEDUCED, unsafe, entry 21.] -/
def insPids : Meaning := fun env i x =>
  let (la, x) := formOp env .word true i.a x
  let (lb, x) := formOp env .real false i.b x
  let (lc, x) := formOp env .real false i.c x
  let (pv, x) := readLoc env .real lb x
  let (sp, x) := readLoc env .real lc x
  let base := addrOf la
  let (kp, x) := readLongAt env base 0 x
  let (ki, x) := readLongAt env base 2 x
  let (kd, x) := readLongAt env base 4 x
  let (omin, x) := readLongAt env base 6 x
  let (omax, x) := readLongAt env base 8 x
  let (iv, x) := readLongAt env base 10 x
  let (pvprev, x) := readLongAt env base 12 x
  let (out, x) := readLongAt env base 14 x
  let (ctrl, x) := readAt env base 16 x
  let man := ctrl.getLsbD 0
  let init := ctrl.getLsbD 2
  let pv := if isNan pv then pv else (realCanon pv).1
  let r := pidStep kp ki kd omin omax iv (if init then pv else pvprev) out pv sp man (ctrl.getLsbD 1)
  if r.nan then raise stFinv (raise (r.st &&& stOvf) x)
  else
    let x := writeLongAt env base 10 r.i (raise r.st x)
    let x := writeLongAt env base 12 pv x
    let x := if man then x else writeLongAt env base 14 r.out x
    if init then writeAt env base 16 (ctrl &&& ~~~4#24) x else x

/-- MOVBLKB (R219). -/
def insMovblkb : Meaning := fun env i x =>
  let (la, x) := formOp env .bit true i.a x
  let (lb, x) := formOp env .bit true i.b x
  let (lc, x) := formOp env .word false i.c x
  let (c, x) := readLoc env .word lc x
  let (bs, x) := readBits env (addrOf lb) 0 (blockCount c) x
  writeBits env (addrOf la) 0 bs x

/-- FILLB (R218). -/
def insFillb : Meaning := fun env i x =>
  let (la, x) := formOp env .bit true i.a x
  let (lb, x) := formOp env .bit false i.b x
  let (lc, x) := formOp env .word false i.c x
  let (b, x) := readLoc env .bit lb x
  let (c, x) := readLoc env .word lc x
  writeBits env (addrOf la) 0 (List.replicate (blockCount c) (nz b)) x

/-! ## Depot and message instructions (R223 to R225) -/

/-- The depot page of a page operand (R224). -/
def pageOf (v : L48) : Nat := 512 + v.toNat % 512

/-- The 86 words that hold a page (R224). -/
def pageWords (bs : List Byte) : List W24 := words3 (padTo 258 bs)

/-- The 256 bytes that 86 words spell (R224). -/
def wordsPage (ws : List W24) : List Byte := (ws.flatMap fun w => beBytes 3 w.toNat).take 256

/-- DEPRD (R224). -/
def insDeprd : Meaning := fun env i x =>
  let (la, x) := formOp env .word true i.a x
  let (lb, x) := formOp env .word false i.b x
  let (lc, x) := formOp env .word false i.c x
  let (b, x) := readLoc env .word lb x
  let p := env.page (pageOf b)
  let x := writeWords env (addrOf la) 0 (pageWords p.1) x
  writeLoc env .word lc (BitVec.ofNat 48 p.2) { x with outs := x.outs ++ [.depRead (pageOf b)] }

/-- DEPWR (R224). -/
def insDepwr : Meaning := fun env i x =>
  let (la, x) := formOp env .word false i.a x
  let (lb, x) := formOp env .word true i.b x
  let (a, x) := readLoc env .word la x
  let (ws, x) := readWords env (addrOf lb) 0 86 x
  { x with outs := x.outs ++ [.depWrite (pageOf a) (wordsPage ws)] }

/-- MSGSND (R225): the block is read when its length lies in 1 to 258. -/
def insMsgsnd : Meaning := fun env i x =>
  let (la, x) := formOp env .word true i.a x
  let (lb, x) := formOp env .word false i.b x
  let (b, x) := readLoc env .word lb x
  let (n, x) := readAt env (addrOf la) 0 x
  let (tag, x) := readAt env (addrOf la) 1 x
  let ok := 1 ≤ n.toNat && n.toNat ≤ 258
  let (ws, x) := if ok then readWords env (addrOf la) 2 ((n.toNat + 2) / 3) x else ([], x)
  let bytes := (ws.flatMap fun w => beBytes 3 w.toNat).take n.toNat
  { x with outs := x.outs ++ [.msg b.toNat tag bytes ok] }

/-! ## Flow (R227, R228) -/

/-- The parcel address of a branch target. -/
def target (v : L48) : BitVec 21 := v.setWidth 21

/-- JMP. -/
def insJmp : Meaning := fun env i x =>
  let (la, x) := formOp env .word false i.a x
  let (a, x) := readLoc env .word la x
  { x with run.pc := target a }

/-- BZ and BNZ. -/
def insBranch (p : L48 → Bool) : Meaning := fun env i x =>
  let (la, x) := formOp env .word false i.a x
  let (lb, x) := formOp env .word false i.b x
  let (a, x) := readLoc env .word la x
  let (b, x) := readLoc env .word lb x
  if p a then { x with run.pc := target b } else x

/-- BZ. -/
def insBz : Meaning := insBranch fun a => a == 0
/-- BNZ. -/
def insBnz : Meaning := insBranch fun a => a != 0

/-- CALL: a full stack raises CALL_DEPTH and pushes nothing (R228). -/
def insCall : Meaning := fun env i x =>
  let (la, x) := formOp env .word false i.a x
  let (a, x) := readLoc env .word la x
  if x.run.stack.length ≥ 32 then { x with trap := some trapCallDepth }
  else { x with run.stack := i.next :: x.run.stack, run.pc := target a }

/-- SEGEND: the run waits to commit as oldest (R130). -/
def insSegend : Meaning := fun _ i x => { x with run.ended := true, run.pc := i.pc }

/-- RET: as SEGEND when the stack is empty. -/
def insRet : Meaning := fun env i x =>
  match x.run.stack with
  | [] => insSegend env i x
  | p :: t => { x with run.stack := t, run.pc := p }

/-! ## Timers, counters and time of day (R229 to R232) -/

/-- FLAGS of a record (R230): Q, RUN, INPREV. -/
structure TimerFlags where
  q      : Bool
  run    : Bool
  inPrev : Bool

/-- The flags of a FLAGS word. -/
def flagsOf (w : W24) : TimerFlags := ⟨w.getLsbD 0, w.getLsbD 1, w.getLsbD 2⟩

/-- A FLAGS word with new flags, its other bits preserved. -/
def flagsTo (w : W24) (f : TimerFlags) : W24 :=
  (w &&& ~~~7#24) ||| BitVec.ofNat 24 (b01 f.q + bitAt f.run 1 + bitAt f.inPrev 2)

/-- LT − START, modulo 2^48 (R231). -/
def since (lt start : L48) : Nat := (lt - start).toNat

/-- One step of TON (R231): the flags, and START where the step assigns it. -/
def tonStep (f : TimerFlags) (start lt pt : L48) (inp : Bool) : TimerFlags × Option L48 :=
  let (f, st) : TimerFlags × Option L48 :=
    if !inp then ({ f with q := false, run := false }, none)
    else if !f.run && !f.q then ({ f with run := true }, some lt) else (f, none)
  if f.run && decide (since lt (st.getD start) ≥ pt.toNat) then ({ f with q := true, run := false }, st) else (f, st)

/-- One step of TOF. -/
def tofStep (f : TimerFlags) (start lt pt : L48) (inp : Bool) : TimerFlags × Option L48 :=
  let (f, st) : TimerFlags × Option L48 :=
    if inp then ({ f with q := true, run := false }, none)
    else if f.q && !f.run then ({ f with run := true }, some lt) else (f, none)
  if f.run && decide (since lt (st.getD start) ≥ pt.toNat) then ({ f with q := false, run := false }, st) else (f, st)

/-- One step of TP. -/
def tpStep (f : TimerFlags) (start lt pt : L48) (inp : Bool) : TimerFlags × Option L48 :=
  let (f, st) : TimerFlags × Option L48 :=
    if !f.run && inp && !f.inPrev then ({ f with q := true, run := true }, some lt) else (f, none)
  let f := if f.run && decide (since lt (st.getD start) ≥ pt.toNat) then { f with q := false, run := false } else f
  ({ f with inPrev := inp }, st)

/-- TON, TOF and TP: a 3-word record at A, IN = B, PT = C. An execution writes FLAGS, and START where R231 assigns it
(DEDUCED, log entry 2). [Log: DEDUCED, unsafe, entry 2.] -/
def insTimer (step : TimerFlags → L48 → L48 → L48 → Bool → TimerFlags × Option L48) : Meaning := fun env i x =>
  let (la, x) := formOp env .word true i.a x
  let (lb, x) := formOp env .bit false i.b x
  let (lc, x) := formOp env .long false i.c x
  let (b, x) := readLoc env .bit lb x
  let (pt, x) := readLoc env .long lc x
  let base := addrOf la
  let (w, x) := readAt env base 0 x
  let (start, x) := readLongAt env base 1 x
  let r := step (flagsOf w) start env.lt pt (nz b)
  let x := writeAt env base 0 (flagsTo w r.1) x
  match r.2 with
  | some st => writeLongAt env base 1 st x
  | none => x

/-- TON. -/
def insTon : Meaning := insTimer tonStep
/-- TOF. -/
def insTof : Meaning := insTimer tofStep
/-- TP. -/
def insTp : Meaning := insTimer tpStep

/-- TONR (R231): ACC saturates at 2^48 − 1, and is written where R231 assigns it. -/
def insTonr : Meaning := fun env i x =>
  let (la, x) := formOp env .word true i.a x
  let (lb, x) := formOp env .bit false i.b x
  let (lc, x) := formOp env .long false i.c x
  let (b, x) := readLoc env .bit lb x
  let (pt, x) := readLoc env .long lc x
  let base := addrOf la
  let (w, x) := readAt env base 0 x
  let (acc, x) := readLongAt env base 1 x
  let (last, x) := readLongAt env base 3 x
  let f := flagsOf w
  let counts := nz b && f.inPrev
  let acc : L48 := if counts then satAdd acc (since env.lt last) else acc
  let f := { f with inPrev := nz b, q := decide (acc.toNat ≥ pt.toNat) }
  let x := writeAt env base 0 (flagsTo w f) x
  writeLongAt env base 3 env.lt (if counts then writeLongAt env base 1 acc x else x)

/-- CTU and CTD: CV saturates, and is written where R231 assigns it. -/
def insCounter (step : Int) (q : Int → Int → Bool) : Meaning := fun env i x =>
  let (la, x) := formOp env .word true i.a x
  let (lb, x) := formOp env .bit false i.b x
  let (lc, x) := formOp env .word false i.c x
  let (b, x) := readLoc env .bit lb x
  let (c, x) := readLoc env .word lc x
  let base := addrOf la
  let (w, x) := readAt env base 0 x
  let (cv, x) := readAt env base 1 x
  let f := flagsOf w
  let counts := nz b && !f.inPrev
  let cv : W24 := if counts then saturate 24 (cv.toInt + step) else cv
  let f := { f with inPrev := nz b, q := q cv.toInt (lo24 c).toInt }
  let x := writeAt env base 0 (flagsTo w f) x
  if counts then writeAt env base 1 cv x else x

/-- CTU. -/
def insCtu : Meaning := insCounter 1 fun cv c => decide (cv ≥ c)
/-- CTD. -/
def insCtd : Meaning := insCounter (-1) fun cv _ => decide (cv ≤ 0)

/-- ELT (R229): LT − START while RUN, else 0. -/
def insElt : Meaning := fun env i x =>
  let (la, x) := formOp env .long false i.a x
  let (lb, x) := formOp env .word true i.b x
  let (w, x) := readAt env (addrOf lb) 0 x
  let (start, x) := readLongAt env (addrOf lb) 1 x
  writeLoc env .long la (if w.getLsbD 1 then env.lt - start else 0) x

/-- Days before month m (1 to 12) of a year. -/
def daysBefore (leap : Bool) (m : Nat) : Nat :=
  [0, 31, 59, 90, 120, 151, 181, 212, 243, 273, 304, 334].getD (m - 1) 0 + (if leap && decide (m > 2) then 1 else 0)

/-- Gregorian leap years (R474). -/
def leapYear (y : Nat) : Bool := (y % 4 == 0 && y % 100 != 0) || y % 400 == 0

/-- Days from 2000-01-01 to the first day of a year. -/
def daysToYear (y : Nat) : Nat :=
  let n := y - 2000
  365 * n + (n + 3) / 4 - (n + 99) / 100 + (n + 399) / 400

/-- Year, month and day of a day number from 2000-01-01. -/
def calendar (days : Nat) : Nat × Nat × Nat :=
  let y0 := 2000 + days / 366
  let y := (List.range 8).foldl (fun y _ => if daysToYear (y + 1) ≤ days then y + 1 else y) y0
  let d := days - daysToYear y
  let m := ((List.range 12).map (· + 1)).foldl (fun m k => if daysBefore (leapYear y) k ≤ d then k else m) 1
  (y, m, d - daysBefore (leapYear y) m + 1)

/-- The format of the latched time of day that SUBOP selects (R232); 2000-01-01 was a Saturday. -/
def todValue (env : Env) (sub : Nat) : L48 :=
  let t := env.tod.toNat % 2 ^ 47
  let sec := t / 2 ^ 15
  let c := calendar (sec / 86400)
  match sub with
  | 0x00 => BitVec.ofNat 48 t
  | 0x01 => BitVec.ofNat 48 ((c.1 - 2000) * 2 ^ 16 + c.2.1 * 2 ^ 8 + c.2.2)
  | 0x02 => BitVec.ofNat 48 (sec % 86400 / 3600 * 2 ^ 16 + sec % 3600 / 60 * 2 ^ 8 + sec % 60)
  | 0x03 => BitVec.ofNat 48 (((sec / 86400 + 5) % 7 + 1) * 2 ^ 21 + t % 2 ^ 15 * 1000 / 2 ^ 15)
  | 0x04 => env.todFlags.setWidth 48
  | _ => 0

/-- TOD (R232): a LONG for format 0x00, else a WORD, as which a code outside the table writes its 0 too. [Log: DESIGN CHOICE, unsafe, entry 221.] -/
def insTod : Meaning := fun env i x =>
  let ty : Ty := if i.sub = 0 then .long else .word
  let (la, x) := formOp env ty false i.a x
  writeLoc env ty la (todValue env i.sub) x

/-! ## Customer opcodes (R241 to R246) -/

/-- A type code of R242 and R244. -/
def tyOf (n : Nat) : Ty := match n % 4 with | 0 => .bit | 1 => .word | 2 => .long | _ => .real

/-- The four temporaries. -/
abbrev Temps := L48 × L48 × L48 × L48

/-- Temporary n. -/
def getT (t : Temps) (n : Nat) : L48 := match n % 4 with | 0 => t.1 | 1 => t.2.1 | 2 => t.2.2.1 | _ => t.2.2.2
/-- Write temporary n. -/
def setT (t : Temps) (n : Nat) (v : L48) : Temps :=
  match n % 4 with
  | 0 => (v, t.2.1, t.2.2.1, t.2.2.2)
  | 1 => (t.1, v, t.2.2.1, t.2.2.2)
  | 2 => (t.1, t.2.1, v, t.2.2.2)
  | _ => (t.1, t.2.1, t.2.2.1, v)

/-- The location at an operand's address plus an offset, in the space of its mode (R245): of a WBIT operand the word, and none of an
operand without an address. [Log: DESIGN CHOICE, unsafe, entry 22.] -/
def locPlus (l : Loc) (n : W24) : Loc :=
  match l with
  | .word a _ => wordLoc (a + n)
  | .wbit a _ => wordLoc (a + n)
  | .bit a => .bit (a + n)
  | _ => .absent

/-- An operand as read into a temporary: a WORD is sign-extended (R245). -/
def readTemp (env : Env) (ty : Ty) (l : Loc) (x : X) : L48 × X :=
  let (v, x) := readLoc env ty l x
  (match ty with | .word => (lo24 v).signExtend 48 | _ => v, x)

/-- What one micro-operation computes on temporaries (R245); none for those that do not write a temporary so. -/
def uopValue (u : Nat) (a b : L48) (k : BitVec 16) : Option (L48 × Sticky) :=
  match u with
  | 0x05 => some (plain (k.signExtend 48))
  | 0x06 => some (plain (a + b))
  | 0x07 => some (plain (a - b))
  | 0x08 => some (plain (a * b))
  | 0x09 => some (plain (a &&& b))
  | 0x0A => some (plain (a ||| b))
  | 0x0B => some (plain (a ^^^ b))
  | 0x0C => some (plain (shl a b.toNat))
  | 0x0D => some (plain (shr a b.toNat))
  | 0x0E => some (plain (sar a b.toNat))
  | 0x0F => some (aluMin 0 a b)
  | 0x10 => some (aluMax 0 a b)
  | 0x11 => some (ofTruth (a.slt b))
  | 0x12 => some (ofTruth (a == b))
  | 0x16 => some (realAdd a b)
  | 0x17 => some (realSub a b)
  | 0x18 => some (realMul a b)
  | 0x1A => some (plain ((saturate 24 a.toInt).signExtend 48))
  | _ => none

/-- Clocks of a micro-operation (R245). -/
def uopClocks (u : Nat) : Nat := if u = 0x08 then 3 else if u = 0x16 ∨ u = 0x17 then 4 else if u = 0x18 then 5 else 1

/-- Run a microprogram (R243 to R246): a micro-op that does not fit in the 1,024 clocks does not run, and ends the
instruction by the limit. `ls` are the locations of A, B and C. -/
def runUcode (env : Env) (ls : Loc × Loc × Loc) : Nat → Nat → Nat → Temps → X → X
  | 0, _, _, _, x => { x with raised := 0, outs := x.outs ++ [.ucodeLimit] }
  | fuel + 1, at_, spent, t, x =>
    let w := (env.ucode at_).toNat
    let u := field w 31 27
    let spent := spent + uopClocks u
    if spent > 1024 then { x with raised := 0, outs := x.outs ++ [.ucodeLimit] }
    else
      let d := field w 26 25
      let a := getT t (field w 24 23)
      let b := getT t (field w 22 21)
      let l := match field w 20 19 with | 0 => ls.1 | 1 => ls.2.1 | 2 => ls.2.2 | _ => .absent
      let ty := tyOf (field w 18 17)
      let k := w % 2 ^ 16
      let nxt := (at_ + 1) % 1024
      let dest := k % 1024
      let r : Nat × Temps × X :=
        match u with
        | 0x01 => let (v, x) := readTemp env ty l x
                  (nxt, setT t d v, x)
        | 0x02 => (nxt, t, writeLoc env ty l a x)
        | 0x03 => let (v, x) := readTemp env ty (locPlus l (lo24 b)) x
                  (nxt, setT t d v, x)
        | 0x04 => (nxt, t, writeLoc env ty (locPlus l (lo24 b)) a x)
        | 0x13 => (if a = 0 then dest else nxt, t, x)
        | 0x14 => (if a ≠ 0 then dest else nxt, t, x)
        | 0x15 => (dest, t, x)
        | 0x19 => (nxt, t, raise (BitVec.ofNat 5 k) x)
        | _ => match uopValue u a b (BitVec.ofNat 16 k) with
               | some v => (nxt, setT t d v.1, raise v.2 x)
               | none => (nxt, t, x)
      if field w 16 16 = 1 then r.2.2 else runUcode env ls fuel r.1 spent r.2.1 r.2.2

/-- A customer instruction with its decode entry (R242, R243). -/
def insCustomer : Meaning := fun env i x =>
  let e := (env.dec (i.op - 0xE0)).toNat
  let use := fun (bit hi : Nat) => if field e bit bit = 1 then some (tyOf (field e hi (hi - 1))) else none
  let (la, x) := formUsed env (use 30 27) i.a x
  let (lb, x) := formUsed env (use 29 25) i.b x
  let (lc, x) := formUsed env (use 28 23) i.c x
  runUcode env (la, lb, lc) 1025 (field e 19 10) 0 (0, 0, 0, 0) x

/-- An emulated reserved opcode (R237, R238): B and C are read and A written as LONG; what is written is the
emulation's. -/
def insEmulated : Meaning := fun env i x =>
  insAlu .long (some .long) (some .long) false
    (fun _ _ b c => plain (Config.emulation env.rdv (BitVec.ofNat 8 i.op)
      (if i.e then env.fetch ((i.pc.toNat + 1) % 2 ^ 21) else 0) b c)) env i x

/-- A reserved opcode that nobody implements raises RESERVED_OP (R237). -/
def insReservedOp : Meaning := fun _ _ x => { x with trap := some trapReservedOp }

end Sys2Proof.Machine
end

