-- ==== Sys2Proof/Machine/SwmRows.lean ====
section
/-! DEFINITION. The rows of SWM: one execution of an instruction by a core (chapters 03 to 05). Each row takes effect when
the instruction at the core's PC is the row's and the core can go on; a row of another instruction than the one at the
PC describes nothing that can happen there, and changes nothing. -/

namespace Sys2Proof.Machine

/-- What a run on core c sees (Env). -/
def rowEnv (s : State) (c : Nat) (r : Run) : Env :=
  let b := relBank s r.task
  let d := relDef s r.task
  let w := segEntry b r.seg
  { vBit := viewBit s r.task, vWord := viewWord s r.task,
    fetch := fun a => Tab.get 0 b.parcels a, dec := fun k => Tab.get 0 b.decs k, ucode := fun k => Tab.get 0 b.ucode k,
    pureRun := segPure w && !segRevoked w, caught := caught b r.seg,
    inBit := fun a => isInput (bitRegion s a), inWord := fun a => isInput (wordRegion s a),
    fb := d.fbase.toNat % 2 ^ 21, fl := d.flen.toNat % 2 ^ 17,
    lt := (task s r.task).lt, core := c, tod := (task s r.task).tod, rdv := ownRdv s, todFlags := (task s r.task).todFlags,
    handler := if d.trap.getLsbD 31 then some (d.trap.setWidth 21) else none,
    page := fun p => let q := pageRead s p; (q.1, badGroups q.2) }

/-- Whether a run can execute an instruction now: it has not ended, stalled, trapped or been passed to the supervisor,
and a suspension does not stop it; only a repetition that cannot be suspended goes on (R141, R204). [Log: DESIGN CHOICE, unsafe, entry 17.] -/
def canRun (r : Run) : Bool :=
  !r.ended && !r.stalled && r.trap.isNone && !r.supWait &&
  (!r.suspend || match r.rep with | some p => !p.interruptible | none => false)

/-- Put a run back on core c. -/
def putRun (c : Nat) (r : Run) (s : State) : State :=
  updCore c (fun k => { k with run := some r, jrnPeak := if k.jrnPeak.toNat < r.journal.length then BitVec.ofNat 13 r.journal.length else k.jrnPeak }) s

/-- The run stops at a trap, to be abandoned when it is oldest (R236). -/
def stopAtTrap (code : BitVec 16) (pc : BitVec 21) (r : Run) : Run := { r with trap := some (code, pc), rep := none }

/-- Take a trap (R235, R236): `at_` is the address of the instruction or its prefix, `ret` the return address, `left` the
iterations dropped. -/
def takeTrap (env : Env) (code : BitVec 16) (at_ ret : BitVec 21) (left : Nat) (r : Run) : Run :=
  match env.handler with
  | none => stopAtTrap code at_ r
  | some v =>
    if code = trapCallDepth then stopAtTrap code at_ r
    else if r.stack.length ≥ 32 then stopAtTrap trapCallDepth at_ r
    else
      let g := Tab.set 0 (Tab.set 0 (Tab.set 0 r.regs 15 (code.setWidth 24)) 14 (at_.setWidth 24)) 13 (BitVec.ofNat 24 left)
      { r with regs := g, stack := ret :: r.stack, repc := 0, rep := none, pc := v }

/-- The run after an instruction: sticky bits, the repetition's count, and a trap (R202, R203, R234, R235). [Log: DEDUCED, unsafe, entry 164.] -/
def afterIns (env : Env) (i : Ins) (r : Run) (x : X) : Run :=
  let tsw := x.run.tsw ||| x.raised.setWidth 24
  let left := r.repc.toNat - 1
  let run := { x.run with tsw := tsw, icount := if r.rep.isSome then x.run.icount else x.run.icount + 1 }
  let run := match r.rep with
    | none => run
    | some p => if left = 0 then { run with repc := 0, rep := none }
                else { run with repc := BitVec.ofNat 24 left, pc := p.insPc }
  match (match x.trap with | some t => some t | none => stickyTrap tsw x.raised) with
  | none => run
  | some code =>
    takeTrap env code (match r.rep with | some p => p.prefixPc | none => i.pc)
      (if code = trapIllegalPrefix then x.run.pc else i.next) (if r.rep.isSome then left else 0) run

/-- What the instruction does outside the view (R200, R224, R225, R246). -/
def applyOut (c : Nat) (s : State) (o : Out) : State :=
  match o with
  | .cast => raiseCast 1 s
  | .depRead p => noteRead p s
  | .depWrite p data => if s.depot.pfail then s else depotEnter p data (.program c) s
  | .msg q tag bytes ok => sendMessage q tag bytes ok s
  | .ucodeLimit =>
    let quiet := match s.prog.ucodeAt with | some t => decide (s.sys.upTicks < t + 100000) | none => false
    if quiet then s else accession 0 0x0305 3 [] { s with prog.ucodeAt := some s.sys.upTicks }

/-- Whether a depot write of the instruction finds no place in the queue (R224, R505). -/
def mustWait (s : State) (c : Nat) (o : Out) : Bool :=
  match o with
  | .depWrite p _ => !s.depot.pfail && !depotRoom s p (.program c)
  | _ => false

/-- Core c waits for a place in the depot's queue. -/
def waitDepot (c : Nat) (s : State) : State :=
  if s.depot.waiters.contains (.program c) then s else { s with depot.waiters := s.depot.waiters ++ [.program c] }

/-- The run at the start of an instruction: the PC stands at the next one, and an instruction of the ALWAYS class is a miss of
a pure run (R124, R153). -/
def startIns (env : Env) (i : Ins) (r : Run) : X :=
  let x : X := { run := { r with pc := i.next } }
  if alwaysOp (fun k => (env.dec k).getLsbD 31) i then
    noteMiss env 4 3 ((match r.rep with | some p => p.prefixPc | none => i.pc).setWidth 24) x
  else x

/-- What becomes of an instruction whose meaning on run r of core c gave x: a speculative run keeps its journal, and stalls when
the journal would hold more than 4,096 entries (R128, R137); one that finds no place in the depot's queue waits and does nothing
yet (R224); a run in direct mode writes through (R137, R138). -/
def landIns (c : Nat) (env : Env) (i : Ins) (r : Run) (x : X) (s : State) : State :=
  if !r.direct ∧ x.run.journal.length > 4096 then
    updCore c (fun k => { k with ovf := satInc k.ovf }) (putRun c { r with stalled := true } s)
  else if x.outs.any (mustWait s c) then waitDepot c s
  else
    let run := afterIns env i r x
    if r.direct then
      if slotsFit s r.task x.run.journal then
        let s := commitJournal c r.task r.seg x.run.journal s
        let s := putRun c { run with journal := [], icount := 0 } s
        let s := updCore c (fun k => { k with instr := satAdd k.instr run.icount }) s
        x.outs.foldl (applyOut c) s
      else giveCluster (viewFull r.task s)
    else x.outs.foldl (applyOut c) (putRun c run s)

/-- One execution of an instruction, or one iteration of it, on core c: a serial instruction waits for direct mode (R138). -/
def swmOne (m : Meaning) (c : Nat) (env : Env) (i : Ins) (r : Run) (s : State) : State :=
  if serialOp i.op ∧ !r.direct then putRun c { r with stalled := true } s
  else landIns c env i r (m env i (startIns env i r)) s

/-- A row of SWM on core c: its effect when `p` holds of the instruction at the PC. -/
def swmWhen (p : Env → Ins → Bool) (f : Env → Ins → Run → State → State) (c : Nat) (s : State) : State :=
  match (core s c).run with
  | none => s
  | some r =>
    if canRun r then
      let env := rowEnv s c r
      let i := decodeIns env.fetch r.pc
      if p env i then f env i r s else s
    else s

/-- The row of an instruction of the opcode map. -/
def swmRow (op : Nat) (m : Meaning) (c : Nat) (s : State) : State :=
  swmWhen (fun _ i => i.op == op) (fun env i r => swmOne m c env i r) c s

/-- The core passes its instruction to the supervisor (R237, R239). -/
def passToSup (c : Nat) (s : State) : State :=
  { updCore c (fun k => { k with run := k.run.map fun r => { r with supWait := true } }) s with
    scan.supQueue := s.scan.supQueue ++ [c] }

/-- The version of the running SUP firmware. -/
def supVersion (s : State) : BitVec 24 := runVer s 0

/-- The supervisor ends the pass at the head of its queue (R237 to R239). [Log: DEDUCED, unsafe, entry 163; DESIGN CHOICE, unsafe, entry 249.] -/
def emulationPass (s : State) : State :=
  match s.scan.supQueue with
  | [] => s
  | c :: q =>
    let s := { s with scan.supQueue := q }
    match (core s c).run with
    | none => s
    | some r =>
      if !r.supWait then s
      else
        let r := { r with supWait := false }
        let env := rowEnv s c r
        let i := decodeIns env.fetch r.pc
        if Config.emulates (supVersion s) (BitVec.ofNat 8 i.op) then
          let s := if s.prog.emulSeen.contains i.op then s
            else accession 0 0x0304 2 [BitVec.ofNat 8 i.op] { s with prog.emulSeen := i.op :: s.prog.emulSeen }
          swmOne insEmulated c env i r s
        else swmOne insReservedOp c env i r s

/-! ## The rows, in the order of the opcodes -/

/-- NOP (opcode 0x00). -/
def execNop (c : Nat) (s : State) : Host.Outcome State Fault Refusal := .next (swmRow 0x00 insNop c s)

/-- REPI (opcode 0x01). -/
def execRepi (c : Nat) (s : State) : Host.Outcome State Fault Refusal := .next (swmRow 0x01 insRepi c s)

/-- REPN (opcode 0x02). -/
def execRepn (c : Nat) (s : State) : Host.Outcome State Fault Refusal := .next (swmRow 0x02 insRepn c s)

/-- CHK (opcode 0x03). -/
def execChk (c : Nat) (s : State) : Host.Outcome State Fault Refusal := .next (swmRow 0x03 insChk c s)

/-- CAST (opcode 0x04). -/
def execCast (c : Nat) (s : State) : Host.Outcome State Fault Refusal := .next (swmRow 0x04 insCast c s)

/-- TRAP (opcode 0x05). -/
def execTrap (c : Nat) (s : State) : Host.Outcome State Fault Refusal := .next (swmRow 0x05 insTrap c s)

/-- MOVSR (opcode 0x06). -/
def execMovsr (c : Nat) (s : State) : Host.Outcome State Fault Refusal := .next (swmRow 0x06 insMovsr c s)

/-- SETTSW (opcode 0x07). -/
def execSettsw (c : Nat) (s : State) : Host.Outcome State Fault Refusal := .next (swmRow 0x07 insSettsw c s)

/-- SETB (opcode 0x08). -/
def execSetb (c : Nat) (s : State) : Host.Outcome State Fault Refusal := .next (swmRow 0x08 insSetb c s)

/-- CLRB (opcode 0x09). -/
def execClrb (c : Nat) (s : State) : Host.Outcome State Fault Refusal := .next (swmRow 0x09 insClrb c s)

/-- MOVB (opcode 0x0A). -/
def execMovb (c : Nat) (s : State) : Host.Outcome State Fault Refusal := .next (swmRow 0x0A insMovb c s)

/-- NOTB (opcode 0x0B). -/
def execNotb (c : Nat) (s : State) : Host.Outcome State Fault Refusal := .next (swmRow 0x0B insNotb c s)

/-- ANDB (opcode 0x0C). -/
def execAndb (c : Nat) (s : State) : Host.Outcome State Fault Refusal := .next (swmRow 0x0C insAndb c s)

/-- ORB (opcode 0x0D). -/
def execOrb (c : Nat) (s : State) : Host.Outcome State Fault Refusal := .next (swmRow 0x0D insOrb c s)

/-- XORB (opcode 0x0E). -/
def execXorb (c : Nat) (s : State) : Host.Outcome State Fault Refusal := .next (swmRow 0x0E insXorb c s)

/-- NANDB (opcode 0x0F). -/
def execNandb (c : Nat) (s : State) : Host.Outcome State Fault Refusal := .next (swmRow 0x0F insNandb c s)

/-- NORB (opcode 0x10). -/
def execNorb (c : Nat) (s : State) : Host.Outcome State Fault Refusal := .next (swmRow 0x10 insNorb c s)

/-- XNORB (opcode 0x11). -/
def execXnorb (c : Nat) (s : State) : Host.Outcome State Fault Refusal := .next (swmRow 0x11 insXnorb c s)

/-- ANDNB (opcode 0x12). -/
def execAndnb (c : Nat) (s : State) : Host.Outcome State Fault Refusal := .next (swmRow 0x12 insAndnb c s)

/-- ORNB (opcode 0x13). -/
def execOrnb (c : Nat) (s : State) : Host.Outcome State Fault Refusal := .next (swmRow 0x13 insOrnb c s)

/-- RISE (opcode 0x14). -/
def execRise (c : Nat) (s : State) : Host.Outcome State Fault Refusal := .next (swmRow 0x14 insRise c s)

/-- FALL (opcode 0x15). -/
def execFall (c : Nat) (s : State) : Host.Outcome State Fault Refusal := .next (swmRow 0x15 insFall c s)

/-- SR (opcode 0x16). -/
def execSr (c : Nat) (s : State) : Host.Outcome State Fault Refusal := .next (swmRow 0x16 insSr c s)

/-- RS (opcode 0x17). -/
def execRs (c : Nat) (s : State) : Host.Outcome State Fault Refusal := .next (swmRow 0x17 insRs c s)

/-- TGLB (opcode 0x18). -/
def execTglb (c : Nat) (s : State) : Host.Outcome State Fault Refusal := .next (swmRow 0x18 insTglb c s)

/-- MOV (opcode 0x20). -/
def execMov (c : Nat) (s : State) : Host.Outcome State Fault Refusal := .next (swmRow 0x20 insMov c s)

/-- ADD (opcode 0x21). -/
def execAdd (c : Nat) (s : State) : Host.Outcome State Fault Refusal := .next (swmRow 0x21 insAdd c s)

/-- SUB (opcode 0x22). -/
def execSub (c : Nat) (s : State) : Host.Outcome State Fault Refusal := .next (swmRow 0x22 insSub c s)

/-- ADDS (opcode 0x23). -/
def execAdds (c : Nat) (s : State) : Host.Outcome State Fault Refusal := .next (swmRow 0x23 insAdds c s)

/-- SUBS (opcode 0x24). -/
def execSubs (c : Nat) (s : State) : Host.Outcome State Fault Refusal := .next (swmRow 0x24 insSubs c s)

/-- NEG (opcode 0x25). -/
def execNeg (c : Nat) (s : State) : Host.Outcome State Fault Refusal := .next (swmRow 0x25 insNeg c s)

/-- ABS (opcode 0x26). -/
def execAbs (c : Nat) (s : State) : Host.Outcome State Fault Refusal := .next (swmRow 0x26 insAbs c s)

/-- MUL (opcode 0x27). -/
def execMul (c : Nat) (s : State) : Host.Outcome State Fault Refusal := .next (swmRow 0x27 insMul c s)

/-- MULL (opcode 0x28). -/
def execMull (c : Nat) (s : State) : Host.Outcome State Fault Refusal := .next (swmRow 0x28 insMull c s)

/-- MULLU (opcode 0x29). -/
def execMullu (c : Nat) (s : State) : Host.Outcome State Fault Refusal := .next (swmRow 0x29 insMullu c s)

/-- DIV (opcode 0x2A). -/
def execDiv (c : Nat) (s : State) : Host.Outcome State Fault Refusal := .next (swmRow 0x2A insDiv c s)

/-- REM (opcode 0x2B). -/
def execRem (c : Nat) (s : State) : Host.Outcome State Fault Refusal := .next (swmRow 0x2B insRem c s)

/-- DIVU (opcode 0x2C). -/
def execDivu (c : Nat) (s : State) : Host.Outcome State Fault Refusal := .next (swmRow 0x2C insDivu c s)

/-- REMU (opcode 0x2D). -/
def execRemu (c : Nat) (s : State) : Host.Outcome State Fault Refusal := .next (swmRow 0x2D insRemu c s)

/-- AND (opcode 0x2E). -/
def execAnd (c : Nat) (s : State) : Host.Outcome State Fault Refusal := .next (swmRow 0x2E insAnd c s)

/-- OR (opcode 0x2F). -/
def execOr (c : Nat) (s : State) : Host.Outcome State Fault Refusal := .next (swmRow 0x2F insOr c s)

/-- XOR (opcode 0x30). -/
def execXor (c : Nat) (s : State) : Host.Outcome State Fault Refusal := .next (swmRow 0x30 insXor c s)

/-- NOT (opcode 0x31). -/
def execNot (c : Nat) (s : State) : Host.Outcome State Fault Refusal := .next (swmRow 0x31 insNot c s)

/-- SHL (opcode 0x32). -/
def execShl (c : Nat) (s : State) : Host.Outcome State Fault Refusal := .next (swmRow 0x32 insShl c s)

/-- SHR (opcode 0x33). -/
def execShr (c : Nat) (s : State) : Host.Outcome State Fault Refusal := .next (swmRow 0x33 insShr c s)

/-- SAR (opcode 0x34). -/
def execSar (c : Nat) (s : State) : Host.Outcome State Fault Refusal := .next (swmRow 0x34 insSar c s)

/-- ROL (opcode 0x35). -/
def execRol (c : Nat) (s : State) : Host.Outcome State Fault Refusal := .next (swmRow 0x35 insRol c s)

/-- ROR (opcode 0x36). -/
def execRor (c : Nat) (s : State) : Host.Outcome State Fault Refusal := .next (swmRow 0x36 insRor c s)

/-- MIN (opcode 0x37). -/
def execMin (c : Nat) (s : State) : Host.Outcome State Fault Refusal := .next (swmRow 0x37 insMin c s)

/-- MAX (opcode 0x38). -/
def execMax (c : Nat) (s : State) : Host.Outcome State Fault Refusal := .next (swmRow 0x38 insMax c s)

/-- LIMIT (opcode 0x39). -/
def execLimit (c : Nat) (s : State) : Host.Outcome State Fault Refusal := .next (swmRow 0x39 insLimit c s)

/-- CMPEQ (opcode 0x40). -/
def execCmpeq (c : Nat) (s : State) : Host.Outcome State Fault Refusal := .next (swmRow 0x40 insCmpeq c s)

/-- CMPNE (opcode 0x41). -/
def execCmpne (c : Nat) (s : State) : Host.Outcome State Fault Refusal := .next (swmRow 0x41 insCmpne c s)

/-- CMPLT (opcode 0x42). -/
def execCmplt (c : Nat) (s : State) : Host.Outcome State Fault Refusal := .next (swmRow 0x42 insCmplt c s)

/-- CMPLE (opcode 0x43). -/
def execCmple (c : Nat) (s : State) : Host.Outcome State Fault Refusal := .next (swmRow 0x43 insCmple c s)

/-- CMPGT (opcode 0x44). -/
def execCmpgt (c : Nat) (s : State) : Host.Outcome State Fault Refusal := .next (swmRow 0x44 insCmpgt c s)

/-- CMPGE (opcode 0x45). -/
def execCmpge (c : Nat) (s : State) : Host.Outcome State Fault Refusal := .next (swmRow 0x45 insCmpge c s)

/-- CMPLTU (opcode 0x46). -/
def execCmpltu (c : Nat) (s : State) : Host.Outcome State Fault Refusal := .next (swmRow 0x46 insCmpltu c s)

/-- CMPLEU (opcode 0x47). -/
def execCmpleu (c : Nat) (s : State) : Host.Outcome State Fault Refusal := .next (swmRow 0x47 insCmpleu c s)

/-- CMPGTU (opcode 0x48). -/
def execCmpgtu (c : Nat) (s : State) : Host.Outcome State Fault Refusal := .next (swmRow 0x48 insCmpgtu c s)

/-- CMPGEU (opcode 0x49). -/
def execCmpgeu (c : Nat) (s : State) : Host.Outcome State Fault Refusal := .next (swmRow 0x49 insCmpgeu c s)

/-- MOVL (opcode 0x50). -/
def execMovl (c : Nat) (s : State) : Host.Outcome State Fault Refusal := .next (swmRow 0x50 insMovl c s)

/-- ADDL (opcode 0x51). -/
def execAddl (c : Nat) (s : State) : Host.Outcome State Fault Refusal := .next (swmRow 0x51 insAddl c s)

/-- SUBL (opcode 0x52). -/
def execSubl (c : Nat) (s : State) : Host.Outcome State Fault Refusal := .next (swmRow 0x52 insSubl c s)

/-- ADDSL (opcode 0x53). -/
def execAddsl (c : Nat) (s : State) : Host.Outcome State Fault Refusal := .next (swmRow 0x53 insAddsl c s)

/-- SUBSL (opcode 0x54). -/
def execSubsl (c : Nat) (s : State) : Host.Outcome State Fault Refusal := .next (swmRow 0x54 insSubsl c s)

/-- NEGL (opcode 0x55). -/
def execNegl (c : Nat) (s : State) : Host.Outcome State Fault Refusal := .next (swmRow 0x55 insNegl c s)

/-- LMUL (opcode 0x56). -/
def execLmul (c : Nat) (s : State) : Host.Outcome State Fault Refusal := .next (swmRow 0x56 insLmul c s)

/-- DIVL (opcode 0x57). -/
def execDivl (c : Nat) (s : State) : Host.Outcome State Fault Refusal := .next (swmRow 0x57 insDivl c s)

/-- REML (opcode 0x58). -/
def execReml (c : Nat) (s : State) : Host.Outcome State Fault Refusal := .next (swmRow 0x58 insReml c s)

/-- SHLL (opcode 0x59). -/
def execShll (c : Nat) (s : State) : Host.Outcome State Fault Refusal := .next (swmRow 0x59 insShll c s)

/-- SHRL (opcode 0x5A). -/
def execShrl (c : Nat) (s : State) : Host.Outcome State Fault Refusal := .next (swmRow 0x5A insShrl c s)

/-- SARL (opcode 0x5B). -/
def execSarl (c : Nat) (s : State) : Host.Outcome State Fault Refusal := .next (swmRow 0x5B insSarl c s)

/-- CMPL (opcode 0x5C). -/
def execCmpl (c : Nat) (s : State) : Host.Outcome State Fault Refusal := .next (swmRow 0x5C insCmpl c s)

/-- ANDL (opcode 0x5D). -/
def execAndl (c : Nat) (s : State) : Host.Outcome State Fault Refusal := .next (swmRow 0x5D insAndl c s)

/-- ORL (opcode 0x5E). -/
def execOrl (c : Nat) (s : State) : Host.Outcome State Fault Refusal := .next (swmRow 0x5E insOrl c s)

/-- XORL (opcode 0x5F). -/
def execXorl (c : Nat) (s : State) : Host.Outcome State Fault Refusal := .next (swmRow 0x5F insXorl c s)

/-- MOVF (opcode 0x60). -/
def execMovf (c : Nat) (s : State) : Host.Outcome State Fault Refusal := .next (swmRow 0x60 insMovf c s)

/-- ADDF (opcode 0x61). -/
def execAddf (c : Nat) (s : State) : Host.Outcome State Fault Refusal := .next (swmRow 0x61 insAddf c s)

/-- SUBF (opcode 0x62). -/
def execSubf (c : Nat) (s : State) : Host.Outcome State Fault Refusal := .next (swmRow 0x62 insSubf c s)

/-- MULF (opcode 0x63). -/
def execMulf (c : Nat) (s : State) : Host.Outcome State Fault Refusal := .next (swmRow 0x63 insMulf c s)

/-- DIVF (opcode 0x64). -/
def execDivf (c : Nat) (s : State) : Host.Outcome State Fault Refusal := .next (swmRow 0x64 insDivf c s)

/-- NEGF (opcode 0x65). -/
def execNegf (c : Nat) (s : State) : Host.Outcome State Fault Refusal := .next (swmRow 0x65 insNegf c s)

/-- ABSF (opcode 0x66). -/
def execAbsf (c : Nat) (s : State) : Host.Outcome State Fault Refusal := .next (swmRow 0x66 insAbsf c s)

/-- SQRTF (opcode 0x67). -/
def execSqrtf (c : Nat) (s : State) : Host.Outcome State Fault Refusal := .next (swmRow 0x67 insSqrtf c s)

/-- MINF (opcode 0x68). -/
def execMinf (c : Nat) (s : State) : Host.Outcome State Fault Refusal := .next (swmRow 0x68 insMinf c s)

/-- MAXF (opcode 0x69). -/
def execMaxf (c : Nat) (s : State) : Host.Outcome State Fault Refusal := .next (swmRow 0x69 insMaxf c s)

/-- CMPF (opcode 0x6A). -/
def execCmpf (c : Nat) (s : State) : Host.Outcome State Fault Refusal := .next (swmRow 0x6A insCmpf c s)

/-- ROUNDF (opcode 0x6B). -/
def execRoundf (c : Nat) (s : State) : Host.Outcome State Fault Refusal := .next (swmRow 0x6B insRoundf c s)

/-- TRUNCF (opcode 0x6C). -/
def execTruncf (c : Nat) (s : State) : Host.Outcome State Fault Refusal := .next (swmRow 0x6C insTruncf c s)

/-- MOVBLK (opcode 0x70). -/
def execMovblk (c : Nat) (s : State) : Host.Outcome State Fault Refusal := .next (swmRow 0x70 insMovblk c s)

/-- FILL (opcode 0x71). -/
def execFill (c : Nat) (s : State) : Host.Outcome State Fault Refusal := .next (swmRow 0x71 insFill c s)

/-- SCAN (opcode 0x72). -/
def execScan (c : Nat) (s : State) : Host.Outcome State Fault Refusal := .next (swmRow 0x72 insScan c s)

/-- LOOKUP (opcode 0x73). -/
def execLookup (c : Nat) (s : State) : Host.Outcome State Fault Refusal := .next (swmRow 0x73 insLookup c s)

/-- PIDS (opcode 0x74). -/
def execPids (c : Nat) (s : State) : Host.Outcome State Fault Refusal := .next (swmRow 0x74 insPids c s)

/-- MOVBLKB (opcode 0x75). -/
def execMovblkb (c : Nat) (s : State) : Host.Outcome State Fault Refusal := .next (swmRow 0x75 insMovblkb c s)

/-- FILLB (opcode 0x76). -/
def execFillb (c : Nat) (s : State) : Host.Outcome State Fault Refusal := .next (swmRow 0x76 insFillb c s)

/-- DEPRD (opcode 0x77). -/
def execDeprd (c : Nat) (s : State) : Host.Outcome State Fault Refusal := .next (swmRow 0x77 insDeprd c s)

/-- DEPWR (opcode 0x78). -/
def execDepwr (c : Nat) (s : State) : Host.Outcome State Fault Refusal := .next (swmRow 0x78 insDepwr c s)

/-- MSGSND (opcode 0x79). -/
def execMsgsnd (c : Nat) (s : State) : Host.Outcome State Fault Refusal := .next (swmRow 0x79 insMsgsnd c s)

/-- JMP (opcode 0x80). -/
def execJmp (c : Nat) (s : State) : Host.Outcome State Fault Refusal := .next (swmRow 0x80 insJmp c s)

/-- BZ (opcode 0x81). -/
def execBz (c : Nat) (s : State) : Host.Outcome State Fault Refusal := .next (swmRow 0x81 insBz c s)

/-- BNZ (opcode 0x82). -/
def execBnz (c : Nat) (s : State) : Host.Outcome State Fault Refusal := .next (swmRow 0x82 insBnz c s)

/-- CALL (opcode 0x83). -/
def execCall (c : Nat) (s : State) : Host.Outcome State Fault Refusal := .next (swmRow 0x83 insCall c s)

/-- RET (opcode 0x84). -/
def execRet (c : Nat) (s : State) : Host.Outcome State Fault Refusal := .next (swmRow 0x84 insRet c s)

/-- SEGEND (opcode 0x85). -/
def execSegend (c : Nat) (s : State) : Host.Outcome State Fault Refusal := .next (swmRow 0x85 insSegend c s)

/-- TON (opcode 0x90). -/
def execTon (c : Nat) (s : State) : Host.Outcome State Fault Refusal := .next (swmRow 0x90 insTon c s)

/-- TOF (opcode 0x91). -/
def execTof (c : Nat) (s : State) : Host.Outcome State Fault Refusal := .next (swmRow 0x91 insTof c s)

/-- TP (opcode 0x92). -/
def execTp (c : Nat) (s : State) : Host.Outcome State Fault Refusal := .next (swmRow 0x92 insTp c s)

/-- TONR (opcode 0x93). -/
def execTonr (c : Nat) (s : State) : Host.Outcome State Fault Refusal := .next (swmRow 0x93 insTonr c s)

/-- CTU (opcode 0x94). -/
def execCtu (c : Nat) (s : State) : Host.Outcome State Fault Refusal := .next (swmRow 0x94 insCtu c s)

/-- CTD (opcode 0x95). -/
def execCtd (c : Nat) (s : State) : Host.Outcome State Fault Refusal := .next (swmRow 0x95 insCtd c s)

/-- ELT (opcode 0x96). -/
def execElt (c : Nat) (s : State) : Host.Outcome State Fault Refusal := .next (swmRow 0x96 insElt c s)

/-- TOD (opcode 0x97). -/
def execTod (c : Nat) (s : State) : Host.Outcome State Fault Refusal := .next (swmRow 0x97 insTod c s)

/-- CVTWF (opcode 0xA0). -/
def execCvtwf (c : Nat) (s : State) : Host.Outcome State Fault Refusal := .next (swmRow 0xA0 insCvtwf c s)

/-- CVTUF (opcode 0xA1). -/
def execCvtuf (c : Nat) (s : State) : Host.Outcome State Fault Refusal := .next (swmRow 0xA1 insCvtuf c s)

/-- CVTLF (opcode 0xA2). -/
def execCvtlf (c : Nat) (s : State) : Host.Outcome State Fault Refusal := .next (swmRow 0xA2 insCvtlf c s)

/-- CVTFW (opcode 0xA3). -/
def execCvtfw (c : Nat) (s : State) : Host.Outcome State Fault Refusal := .next (swmRow 0xA3 insCvtfw c s)

/-- CVTFL (opcode 0xA4). -/
def execCvtfl (c : Nat) (s : State) : Host.Outcome State Fault Refusal := .next (swmRow 0xA4 insCvtfl c s)

/-- TRNFW (opcode 0xA5). -/
def execTrnfw (c : Nat) (s : State) : Host.Outcome State Fault Refusal := .next (swmRow 0xA5 insTrnfw c s)

/-- TRNFL (opcode 0xA6). -/
def execTrnfl (c : Nat) (s : State) : Host.Outcome State Fault Refusal := .next (swmRow 0xA6 insTrnfl c s)

/-- SXWL (opcode 0xA7). -/
def execSxwl (c : Nat) (s : State) : Host.Outcome State Fault Refusal := .next (swmRow 0xA7 insSxwl c s)

/-- ZXWL (opcode 0xA8). -/
def execZxwl (c : Nat) (s : State) : Host.Outcome State Fault Refusal := .next (swmRow 0xA8 insZxwl c s)

/-- CVTLW (opcode 0xA9). -/
def execCvtlw (c : Nat) (s : State) : Host.Outcome State Fault Refusal := .next (swmRow 0xA9 insCvtlw c s)

/-- BCDW (opcode 0xAA). -/
def execBcdw (c : Nat) (s : State) : Host.Outcome State Fault Refusal := .next (swmRow 0xAA insBcdw c s)

/-- WBCD (opcode 0xAB). -/
def execWbcd (c : Nat) (s : State) : Host.Outcome State Fault Refusal := .next (swmRow 0xAB insWbcd c s)

/-- CUSTOMER_OPCODE (R243): an opcode 0xE0 to 0xEF with a valid decode entry. -/
def execCustomerOpcode (c : Nat) (s : State) : Host.Outcome State Fault Refusal :=
  .next (swmWhen (fun env i => customerOp i.op && !passedToSup env i.op) (fun env i r => swmOne insCustomer c env i r) c s)

/-- RESERVED_OPCODE (R237): the core passes the instruction to the supervisor and waits. -/
def execReservedOpcode (c : Nat) (s : State) : Host.Outcome State Fault Refusal :=
  .next (swmWhen (fun env i => passedToSup env i.op) (fun _ _ _ => passToSup c) c s)

/-- SUP_EMULATION_PASS (R237 to R239). -/
def execSupEmulationPass (s : State) : Host.Outcome State Fault Refusal := .next (emulationPass s)

end Sys2Proof.Machine
end

