-- ==== Sys2Proof/Machine/ScanRows.lean ====
section
/-! DEFINITION. What happens to a segment run between instructions (R130, R137, R141, R154, R236). -/

namespace Sys2Proof.Machine

/-- The values of a committed run count: instructions and commits of the core, the sticky bits of the task (R126), the
CHK record (R201), and RERUN is clear. -/
def countCommit (c : Nat) (r : Run) (s : State) : State :=
  let s := updCore c (fun k => { k with commits := satInc k.commits, instr := satAdd k.instr r.icount }) s
  let s := updTask r.task (fun t => { t with sticky := t.sticky ||| r.tsw.setWidth 5 }) s
  let s := { s with scan.chk := Tab.set false s.scan.chk r.seg r.chk, scan.runCount := satInc s.scan.runCount }
  setSegBit (task s r.task).bank r.seg 27 false s

/-- A catchment miss recorded at the commit of a run (R154). A release that drains on the previous bank revokes the segment in the
active bank too, unless the change set has replaced it (R123, R260). -/
def recordMiss (r : Run) (s : State) : State :=
  match r.miss with
  | none => s
  | some (cause, space, addr) =>
    let b := (task s r.task).bank
    let s := setSegBit b r.seg 30 true s
    let s := if b != s.prog.active && !s.prog.puts.contains (BitVec.ofNat 14 r.seg) then setSegBit s.prog.active r.seg 30 true s else s
    let s := updTask r.task (fun t => { t with fullK := true }) s
    let reg : W32 := BitVec.ofNat 32 (space.toNat * 2 ^ 24 + addr.toNat)
    accession 1 0x0303 3 ([BitVec.ofNat 8 r.task] ++ beBytes 2 r.seg ++ [BitVec.ofNat 8 cause.toNat] ++ beBytes 4 reg.toNat)
      { s with scan.missCount := satInc s.scan.missCount,
               scan.missLast := BitVec.ofNat 32 (cause.toNat * 2 ^ 28 + r.task * 2 ^ 16 + r.seg), scan.missAddr := reg }

/-- Take the head off a task's segments and go on. -/
def popSegment (n : Nat) (s : State) : State :=
  giveCluster (updTask n (fun t => { t with queue := t.queue.drop 1, ctx := none }) s)

/-- SEGMENT_COMMIT (R130). -/
def segmentCommitOp (c : Nat) (s : State) : State :=
  match (core s c).run with
  | none => s
  | some r =>
    if !r.ended ∨ !isOldest s c then s
    else if !slotsFit s r.task r.journal then giveCluster (viewFull r.task s)
    else
      let s := commitJournal c r.task r.seg r.journal s
      let s := recordMiss r (countCommit c r s)
      popSegment r.task (freeCore c s)

/-- SEGMENT_COMMIT (R130). -/
def execSegmentCommit (c : Nat) (s : State) : Host.Outcome State Fault Refusal := .next (segmentCommitOp c s)

/-- Whether a run stands in a repetition that runs to its end before the segment stops (R142, R204). -/
def inRepn (r : Run) : Bool := match r.rep with | some p => !p.interruptible | none => false

/-- DIRECT_MODE_ENTRY (R137). -/
def directEntryOp (c : Nat) (s : State) : State :=
  match (core s c).run with
  | none => s
  | some r =>
    if !r.stalled ∨ !isOldest s c ∨ (r.suspend ∧ !inRepn r) then s
    else if !slotsFit s r.task r.journal then giveCluster (viewFull r.task s)
    else
      let s := commitJournal c r.task r.seg r.journal s
      updCore c (fun k => { k with run := some { r with journal := [], stalled := false, direct := true, icount := 0 }, serial := satInc k.serial, instr := satAdd k.instr r.icount }) s

/-- DIRECT_MODE_ENTRY (R137). -/
def execDirectModeEntry (c : Nat) (s : State) : Host.Outcome State Fault Refusal := .next (directEntryOp c s)

/-- The context that a suspended run leaves (R141, R142). -/
def suspended (r : Run) : Run :=
  let r := { r with journal := [], readMap := [], suspend := false, icount := 0 }
  match r.rep with
  | none => r
  | some p => { r with pc := p.prefixPc, rep := none, resumed := true }

/-- SEGMENT_SUSPEND (R141): not inside an REPN repetition (R204), and not while an emulation is in progress (R206). -/
def suspendOp (c : Nat) (s : State) : State :=
  match (core s c).run with
  | none => s
  | some r =>
    if !r.suspend ∨ inRepn r ∨ r.supWait then s
    else if !slotsFit s r.task r.journal then giveCluster (viewFull r.task s)
    else
      let s := commitJournal c r.task r.seg r.journal s
      let s := updCore c (fun k => { k with instr := satAdd k.instr r.icount }) s
      let s := updTask r.task (fun t => { t with ctx := some (suspended r), queue := t.queue.map fun e => if e.1 = r.seg then (e.1, .pending) else e }) s
      giveCluster (freeCore c { s with depot.waiters := s.depot.waiters.filter (· ≠ .program c) })

/-- SEGMENT_SUSPEND (R141). -/
def execSegmentSuspend (c : Nat) (s : State) : Host.Outcome State Fault Refusal := .next (suspendOp c s)

/-- TRAP_ABANDON (R236). [Log: DESIGN CHOICE, unsafe, entry 248.] -/
def trapAbandonOp (c : Nat) (s : State) : State :=
  match (core s c).run with
  | none => s
  | some r =>
    match r.trap with
    | none => s
    | some (code, pc) =>
      if !isOldest s c then s
      else
        let s := accession 1 0x0405 6 (beBytes 2 code.toNat ++ beBytes 2 r.seg ++ beBytes 4 pc.toNat) s
        giveCluster (faultTask r.task (updTask r.task (fun t => { t with lastTrap := code }) s))

/-- TRAP_ABANDON (R236). -/
def execTrapAbandon (c : Nat) (s : State) : Host.Outcome State Fault Refusal := .next (trapAbandonOp c s)

end Sys2Proof.Machine
end

