-- ==== Sys2Proof/Machine/Ring.lean ====
section
/-! DEFINITION. The pass ring (chapter 08): links, discovery, topology, basin time, pass regions, events, casts and reports. -/

namespace Sys2Proof.Machine

/-- Pass ring versions of the module (R49). -/
def ringRanges : List VerRange := [(1, 0, 2)]

/-- Whether a member acts for itself as a whole: a partner in a standby role does not (R349). -/
def ringSpeaker (s : State) : Bool := inBasin s && !standby s && !s.sys.asleep

/-- The module leaves the ring or loses every link: it is ALONE (R336), and the time source of the basin goes (R339). -/
def goAlone (s : State) : State :=
  let s := { s with pas := { s.pas with
      ring := 0, head := false, hostless := false, members := 0, basin := 0, topoNext := none, stable := 0, heard := [], startAt := none,
      gone := [], lostDue := [], rejoin := false, ofsNext := none, wrapSeen := false, memb := [], minor := 2, budget := 0 } }
  if s.tsk.activeSrc = 4 then retime s else s

/-- Whether a frame passes the link it arrives on (R338, R50). -/
def linkCarries (s : State) (h : RingHdr) (type : Nat) (ack : Bool) (payload : List Byte) : Bool :=
  portPasses s (!h.east) (mgmtFrame type ack payload)

/-- Whether a frame is addressed to this module (R330). -/
def forMe (s : State) (h : RingHdr) : Bool :=
  h.dst = 0xFF || (h.dst.setWidth 6 = s.sys.ringId && (!s.red.pairEn || h.dst.getLsbD 7 = s.sys.partner))

/-- The SRC byte of a frame. -/
def srcByte (h : RingHdr) : Nat := bitAt h.srcPart 7 + h.src.toNat

/-- Whether a frame bears this module's own SRC. -/
def ownFrame (s : State) (h : RingHdr) : Bool := h.src = s.sys.ringId && h.srcPart = (s.red.pairEn && s.sys.partner)

/-! ## Links (R325, R327, R328) -/

/-- The pass ring version that the module uses: the lowest minor on any link of the basin, which the links of this module and
the highest minors in its members' DISCOVER frames give (R338). -/
def lowestMinor (s : State) : Byte :=
  let own := (if s.pas.eUp && !s.pas.eMgmt then [s.pas.eMinor] else []) ++ (if s.pas.wUp && !s.pas.wMgmt then [s.pas.wMinor] else [])
  let theirs := s.pas.memb.flatMap fun e => ([e.2.p0, e.2.p1].filter (·.up)).map (·.minor)
  BitVec.ofNat 8 ((own ++ theirs).foldl (fun m v => min m v.toNat) 2)

/-- The version in use follows the links and the members. -/
def setMinor (s : State) : State := { s with pas.minor := lowestMinor s }

/-- A pass link breaks: the module wraps, a closed ring is one with a gap, and the module on the far side is reported (R327, R328,
R337, R353). -/
def linkBreak (east : Bool) (s : State) : State :=
  let up := if east then s.pas.eUp else s.pas.wUp
  if !up then s
  else
    let s := if east then { s with pas.eUp := false, pas.eMgmt := false, pas.eFrames := 0, pas.eBad := [] }
             else { s with pas.wUp := false, pas.wMgmt := false, pas.wFrames := 0, pas.wBad := [] }
    let s := loseClock (if east then 4 else 5) { s with pas.wraps := satInc s.pas.wraps }
    let s := setMinor { s with pas.ring := if s.pas.ring = 2 then 3 else s.pas.ring }
    let far := if east then s.pas.nbE else s.pas.nbW
    let s := if far.isEmpty then s else report 2 4 far 0 s
    if s.pas.eUp || s.pas.wUp then s else goAlone s

/-- PASS_LINK_BREAK (R327). -/
def execPassLinkBreak (east : Bool) (s : State) : Host.Outcome State Fault Refusal := .next (linkBreak east s)

/-- Whether the pass ports are there: from step 6 of start-up on, with RING_EN set, no duplicate (R61, R324, R325). -/
def ringPorts (s : State) : Bool :=
  s.pas.ringEn && !s.pas.dupId && fromStep6 s

/-- A pass link trains (R325, R327, R338): the by-pass opens, and a module that was ALONE begins to form or join a basin. -/
def linkUp (east : Bool) (offer : List VerRange) (s : State) : State :=
  if !ringPorts s then s
  else
    let v := negotiate ringRanges offer
    let mg := v.isNone
    let m : Byte := match v with | some (_, m) => BitVec.ofNat 8 m | none => 2
    let s := if east then { s with pas.eUp := true, pas.eMgmt := mg, pas.eMinor := m, pas.eFrames := 0, pas.eBad := [] }
             else { s with pas.wUp := true, pas.wMgmt := mg, pas.wMinor := m, pas.wFrames := 0, pas.wBad := [] }
    let s := setMinor { s with pas.bypass := false }
    if s.pas.ring = 0 then { s with pas.ring := 1, pas.stable := 0, pas.heard := [], pas.round := none, pas.sentRound := none } else s

/-- PASS_LINK_UP (R327). -/
def execPassLinkUp (east : Bool) (offer : List VerRange) (s : State) : Host.Outcome State Fault Refusal :=
  .next (linkUp east offer s)

/-- The module leaves the ring by its by-pass (R325): the pass ports that were up lose their clocks (R608). -/
def closeBypass (s : State) : State :=
  let s := if s.pas.eUp then loseClock 4 s else s
  let s := if s.pas.wUp then loseClock 5 s else s
  goAlone { s with pas.bypass := true, pas.eUp := false, pas.wUp := false, pas.eMgmt := false, pas.wMgmt := false }

/-- RING_EN_CLEAR (R325). -/
def execRingEnClear (s : State) : Host.Outcome State Fault Refusal := .next (closeBypass { s with pas.ringEn := false })

/-- RING_EN_SET (R325): the by-pass opens when the pass ports have trained. -/
def execRingEnSet (s : State) : Host.Outcome State Fault Refusal := .next { s with pas.ringEn := true }

/-! ## Receiving and forwarding (R327, R329) -/

/-- The numbers, on their link, of the frames among the last 65,536 whose CRC failed. -/
def badFrames (n : Nat) (ok : Bool) (bad : List Nat) : List Nat :=
  (if ok then bad else n :: bad).filter fun k => decide (n < k + 65536)

/-- Count a frame on the link it arrives on; more than 16 failures among the last 65,536 break the link (R327). A frame of the
east ring arrives at PASS_W (R322). -/
def countFrame (east ok : Bool) (s : State) : State :=
  if east then
    let n := s.pas.wFrames + 1
    let s := { s with pas.wFrames := n, pas.wBad := badFrames n ok s.pas.wBad }
    if !ok && decide (16 < s.pas.wBad.length) then linkBreak false s else s
  else
    let n := s.pas.eFrames + 1
    let s := { s with pas.eFrames := n, pas.eBad := badFrames n ok s.pas.eBad }
    if !ok && decide (16 < s.pas.eBad.length) then linkBreak true s else s

/-- A received frame as it goes on: one more hop. -/
def onward (type : Nat) (ack : Bool) (payload : List Byte) (h : RingHdr) : RingFrame :=
  { type := type, ver := h.ver.toNat, src := srcByte h, dst := h.dst.toNat, hops := h.hops.toNat + 1, east := h.east,
    more := h.more, wrapped := h.wrapped, ack := ack, tick := h.tick.toNat, seq := h.seq.toNat, payload := payload }

/-- A frame goes on round its ring; one whose HOPS reaches 255 is dropped (R329). -/
def forwardFrame (f : RingFrame) (s : State) : State := if 255 ≤ f.hops then s else putFrame f s

/-- A frame whose CRC failed goes on as it came (R329). -/
def forwardBad (f : RingFrame) (s : State) : State :=
  let m := mgmtFrame f.type f.ack f.payload
  if s.sys.asleep then s
  else if portPasses s f.east m then emit (.ringBad f.east (ringOpen { f with hops := f.hops - 1 })) s
  else if portPasses s (!f.east) m then emit (.ringBad (!f.east) (ringOpen { f with hops := f.hops - 1 })) s
  else s

/-- A frame whose CRC is right is counted, and its WRAPPED flag noted (R327, R328). -/
def countGood (h : RingHdr) (s : State) : State :=
  let s := countFrame h.east true s
  { s with pas.wrapSeen := s.pas.wrapSeen || h.wrapped }

/-- A frame of another module goes on with the payload `out` (R329). -/
def passOn (type : Nat) (ack : Bool) (out : List Byte) (h : RingHdr) (s : State) : State :=
  forwardFrame (onward type ack out h) (countGood h s)

/-- A first copy is noted, so that a later one is discarded (R329). SEQ wraps (R330): of the frames of a source and type those are
remembered that lie less than 49,152 behind the newest. [Log: DESIGN CHOICE, unsafe, entry 238.] -/
def noteFrame (type : Nat) (h : RingHdr) (s : State) : State :=
  let near := fun (e : Nat × Nat × BitVec 16) => decide (e.1 ≠ srcByte h ∨ e.2.1 ≠ type ∨ (h.seq - e.2.2).toNat < 49152 ∨ 49152 < (h.seq - e.2.2).toNat)
  { s with pas.seen := (srcByte h, type, h.seq) :: s.pas.seen.filter near }

/-- The TYPE of a frame that R331 does not list. -/
def unlisted (h : RingHdr) : Option Nat :=
  (h.other.map (·.toNat)).filter fun t => !([0x01, 0x02, 0x03, 0x10, 0x11, 0x20, 0x30, 0x40].contains t)

/-- Receive a frame with its payload, and the payload with which it goes on (R329): it is forwarded, but for the module's own,
which it strips; a failed CRC is counted and the frame discarded; a TYPE that R331 does not list goes on unchanged; of a frame's
copies the first is taken. -/
def ringRxVia (type : Nat) (ack : Bool) (payload out : List Byte) (h : RingHdr) (s : State) (f : State → State) : State :=
  let type := (unlisted h).getD type
  if s.pas.bypass ∨ !linkCarries s h type ack payload then s
  else if !h.crcOk then
    countFrame h.east false { forwardBad (onward type ack payload h) s with pas.crcErr := satInc s.pas.crcErr }
  else if ownFrame s h then countGood h s
  else if (unlisted h).isSome then passOn type ack payload h s
  else if s.pas.seen.contains (srcByte h, type, h.seq) then passOn type ack out h s
  else
    let t := noteFrame type h (passOn type ack out h s)
    if forMe s h then f t else t

/-- Receive a frame that goes on unchanged. -/
def ringRx (type : Nat) (ack : Bool) (payload : List Byte) (h : RingHdr) (s : State) (f : State → State) : State :=
  ringRxVia type ack payload payload h s f

/-! ## Publications and their bytes (R342, R347) -/

/-- Payload bytes of a region. -/
def regionBytes (word : Bool) (n : Nat) : Nat := if word then 3 * n else (n + 7) / 8
/-- Line bytes of a region's frames per exchange (R330). -/
def lineBytes (word : Bool) (n : Nat) : Nat :=
  let b := regionBytes word n
  b + 32 * ((b + 1023) / 1024)
/-- Line bytes of a publication that is sent. -/
def pubBytes (p : Pub) : Nat := if p.valid && !p.susp then lineBytes p.word p.count.toNat else 0
/-- Line bytes of the publications of this member that are sent. -/
def sentBytes (s : State) : Nat := (s.pas.pubs.map fun e => pubBytes e.2).sum
/-- Line bytes of all publications of this member, suspended or not. -/
def ownBytes (s : State) : Nat := (s.pas.pubs.map fun e => pubBytes { e.2 with susp := false }).sum

/-- The bounds of R347 on W. -/
def withinBudget (w px d : Nat) : Bool := decide (w ≤ 12187 * px) && decide ((w + 12499) / 12500 + 6 ≤ d)

/-- What a DISCOVER of member m asks for: the line bytes of its publications. -/
def askedBytes (k : Member) : Nat := max (if k.p0.up then k.p0.bytes.toNat else 0) (if k.p1.up then k.p1.bytes.toNat else 0)

/-- Whether region i of member m is sent, as its frames in the last two exchanges show (R343). -/
def regionSent (s : State) (m i : Nat) : Bool :=
  match (Tab.get none s.pas.known (64 * m + i)), Tab.get 0 s.pas.lastHeard (64 * m + i) with
  | some _, x => x ≠ 0 && !reached (addTicks x (2 * s.pas.px.toNat)) (basinTick s)
  | none, _ => false

/-- Line bytes of region i of member m as its frames show it. -/
def regionLine (s : State) (m i : Nat) : Nat :=
  match Tab.get none s.pas.known (64 * m + i) with | some (w, n) => lineBytes w n.toNat | none => 0

/-- One thing to admit: publications of a member by the bits of its suspension map, their line bytes, whether they are admitted
already, and whether the bytes of each alone are unknown. -/
structure AdmitItem where
  m     : Nat
  map   : Nat
  bytes : Nat
  now   : Bool
  blind : Bool := false

/-- What another member asks for: each region that it sends, and the rest of what its DISCOVER asks for as one (R331). -/
def askItems (s : State) (m : Nat) : List AdmitItem :=
  let k := Tab.get {} s.pas.memb m
  let b := askedBytes k
  let sent := (List.range 64).filter (regionSent s m)
  let f := (sent.map (regionLine s m)).sum
  if b = 0 then []
  else if b < f then [⟨m, 2 ^ 64 - 1, b, decide (b ≤ k.admitted.toNat), true⟩]
  else sent.map (fun i => ⟨m, 2 ^ i, regionLine s m i, true, false⟩) ++
    (if b = f then [] else [⟨m, 2 ^ 64 - 1 - (sent.map (2 ^ ·)).sum, b - f, decide (b ≤ k.admitted.toNat), true⟩])

/-- What the basin asks for, in ascending RING_ID and region index (R347). [Log: DEDUCED, unsafe, entry 50.] -/
def admitItems (s : State) : List AdmitItem :=
  (List.range 64).flatMap fun m =>
    if m = s.sys.ringId.toNat then
      (s.pas.pubs.filter fun e => e.2.valid).map fun e => ⟨m, 2 ^ e.1, lineBytes e.2.word e.2.count.toNat, inBasin s && !e.2.susp, false⟩
    else askItems s m

/-- How far an item that would break a bound is admitted: of publications of another member whose bytes are known only in sum, those
below a free index with a free sum (R347); else not at all. [Log: DEDUCED, unsafe, entry 50.] -/
def admitPart (s : State) (w px d : Nat) (i : AdmitItem) : Nat × Nat :=
  let j := (Config.reading (0xA2000 + i.m) i.bytes).toNat % 64
  let p := (Config.reading (0xA2040 + i.m) i.bytes).toNat % (i.bytes + 1)
  if !i.blind ∨ j = 0 ∨ !withinBudget (w + p) px d then (0, i.map)
  else (p, i.map / 2 ^ j * 2 ^ j)

/-- Admission until the next would break a bound (R347): first what is admitted already, then the others. The answer is the bytes
admitted in all, those of each item admitted, and the items suspended. -/
def admitOps (s : State) (px d : Nat) : Nat × List (Nat × Nat) × List (Nat × Nat) :=
  let l := admitItems s
  let r := ((l.filter (·.now)) ++ l.filter fun i => !i.now).foldl
    (fun (a : Nat × Bool × List (Nat × Nat) × List (Nat × Nat)) i =>
      if !a.2.1 then (a.1, false, a.2.2.1, (i.m, i.map) :: a.2.2.2)
      else if withinBudget (a.1 + i.bytes) px d then (a.1 + i.bytes, true, (i.m, i.bytes) :: a.2.2.1, a.2.2.2)
      else
        let p := admitPart s a.1 px d i
        (a.1 + p.1, false, (i.m, p.1) :: a.2.2.1, (i.m, p.2) :: a.2.2.2)) (0, true, [], [])
  (r.1, r.2.2.1, r.2.2.2)

/-- The sum of what a list holds for a member: its suspension map, or its bytes. -/
def suspOf (l : List (Nat × Nat)) (m : Nat) : Nat := ((l.filter fun e => e.1 = m).map (·.2)).sum

/-! ## Discovery and topology (R332 to R338) -/

/-- Whether this module's host link is up for R333. -/
def ownHostUp (s : State) : Bool := s.sys.hostLink || s.host.spiHost

/-- This module as DISCOVER shows it (R331). -/
def ownDiscover (s : State) : Discover :=
  { serial := Config.serial, hostUp := ownHostUp s, paired := s.red.pairEn, active := s.red.role = 1,
    role := s.red.role.setWidth 8, minor := 2, bytes := BitVec.ofNat 32 (ownBytes s), basin := s.pas.basin }

/-- A module of a member, by its partner index. -/
def moduleOf (k : Member) (part : Bool) : RingModule := if part then k.p1 else k.p0
/-- Put a module into a member. -/
def putModule (k : Member) (part : Bool) (x : RingModule) : Member := if part then { k with p1 := x } else { k with p0 := x }
/-- Change the record of member m. -/
def updMember (m : Nat) (f : Member → Member) (s : State) : State := { s with pas.memb := Tab.upd {} s.pas.memb m f }

/-- The module that a DISCOVER of round `round` shows; BASIN_MAP goes on to show it as the last change tick left it (R356). -/
def heardModule (round : Nat) (d : Discover) (old : RingModule) : RingModule :=
  { shown := old.shown, up := true, round := some round, serial := d.serial, hostUp := d.hostUp, paired := d.paired, active := d.active, bytes := d.bytes,
    minor := d.minor, basin := d.basin }

/-- Whether a module that is known and the sender of a DISCOVER are duplicates (R324): another module with the same SRC, or one
with the same RING_ID that is not its partner. -/
def clash (same : Bool) (x : RingModule) (d : Discover) : Bool :=
  x.up && (if same then x.serial ≠ d.serial else !(x.paired && d.paired))

/-- Enter what a DISCOVER of member m says into its record; of duplicates the lower serial number is in the basin (R324). -/
def enterMember (m round : Nat) (part : Bool) (d : Discover) (s : State) : State :=
  updMember m (fun k =>
    let a := moduleOf k part
    let b := moduleOf k (!part)
    let higher := fun (x : RingModule) => decide (x.serial.toNat < d.serial.toNat)
    if (clash true a d && higher a) || (clash false b d && higher b) then { k with excluded := true }
    else
      let k := if clash false b d then { putModule k (!part) {} with excluded := true } else k
      { putModule k part (heardModule round d (moduleOf k part)) with excluded := k.excluded || clash true a d }) s

/-- DISCOVER_ROUND (R332): at the basin ticks that are multiples of 1,000. -/
def discoverRoundOp (s : State) : State :=
  let b := basinTick s
  let r := if b % 1000 = 0 then b else b + 1
  if r % 1000 ≠ 0 ∨ s.pas.ring = 0 ∨ s.pas.bypass ∨ s.sys.asleep ∨ s.pas.sentRound = some r then s
  else
    let s := enterMember s.sys.ringId.toNat r s.sys.partner (ownDiscover s) { s with pas.round := some r, pas.sentRound := some r }
    sendRing 0x01 0xFF true false false r (discoverBytes (ownDiscover s)) s

/-- DISCOVER_ROUND (R332). -/
def execDiscoverRound (s : State) : Host.Outcome State Fault Refusal := .next (discoverRoundOp s)

/-- The module stays outside the basin as a duplicate and runs SIMPLEX (R324): it is no partner of a pair any more, and releases
ACT_N, which stays low while the other partner is active (R364, R398). -/
def runSimplex (s : State) : State :=
  { s with red := { s.red with
      role := 0, pairEn := false, actDrv := false, actIn := s.red.actIn || (s.red.actDrv && s.red.peerRole ≠ 1), presuming := false, waits := [], ownDig := [], peerDig := [], resync := {},
      switchAt := none, builtDig := none, infoTag := none, items := [], owed := false, dirsOwed := false, hbDrop := [] } }

/-- A duplicate of this module's RING_ID (R324): the lower serial number joins. -/
def duplicate (d : Discover) (s : State) : State :=
  let m := s.sys.ringId.toNat
  if Config.serial.toNat < d.serial.toNat then updMember m (fun k => { k with excluded := true }) s
  else
    accession 0 0x0105 6 [BitVec.ofNat 8 m]
      (runSimplex (updMember m (fun k => { k with excluded := true }) (closeBypass { s with pas.dupId := true })))

/-- The round that is open, or else the next. -/
def roundOf (s : State) : Nat := s.pas.round.getD ((basinTick s + 999) / 1000 * 1000)

/-- A DISCOVER frame is counted in its round when it completes by the edge of the round's tick + 100 (R335). A forming module, whose
basin tick is its own, counts every module that it hears, and a module of another fragment counts although its rounds lie otherwise:
it makes the fragments rejoin (R338). [Log: DEDUCED, unsafe, entry 52; DEDUCED, unsafe, entry 192.] -/
def discoverOp (h : RingHdr) (d : Discover) (s : State) : State :=
  let s := if h.hops = 0 then
      let far := h.src :: (if d.paired then [if h.srcPart then 1 else 0] else [])
      if h.east then { s with pas.nbW := far } else { s with pas.nbE := far }
    else s
  if h.src = s.sys.ringId ∧ !(d.paired && s.red.pairEn && decide (h.srcPart ≠ s.sys.partner)) then duplicate d s
  else
    let r := roundOf s
    let k := Tab.get {} s.pas.memb h.src.toNat
    let other := inBasin s && !k.inTopo && decide (d.basin ≠ 0)
    if s.pas.ring = 1 ∨ other ∨ (h.tick.toNat = r ∧ !reached (addTicks r 100) (basinTick s)) then
      setMinor (enterMember h.src.toNat r h.srcPart d { s with pas.rejoin := s.pas.rejoin || (other && !(moduleOf k h.srcPart).up) })
    else s

/-- Whether a DISCOVER frame bears this module's own SRC and another serial number (R324): it is no frame of its own that
returns, but a duplicate's. [Log: DEDUCED, unsafe, entry 53.] -/
def foreignSelf (h : RingHdr) (d : Discover) (s : State) : Bool :=
  (unlisted h).isNone && !s.pas.bypass && linkCarries s h 1 false (discoverBytes d) && h.crcOk && ownFrame s h && d.serial ≠ Config.serial

/-- DISCOVER (R324, R335). -/
def execDiscover (h : RingHdr) (d : Discover) (s : State) : Host.Outcome State Fault Refusal :=
  .next (if foreignSelf h d s then duplicate d s else ringRx 1 false (discoverBytes d) h s (discoverOp h d))

/-- Whether module `part` of member m is this module. -/
def isSelf (s : State) (m : Nat) (part : Bool) : Bool := m = s.sys.ringId.toNat && part = s.sys.partner

/-- Whether a module was in the round: this one always, another when its DISCOVER came. -/
def moduleInRound (s : State) (m : Nat) (part : Bool) : Bool :=
  let x := moduleOf (Tab.get {} s.pas.memb m) part
  isSelf s m part || (x.up && x.round.isSome && x.round = s.pas.round)

/-- Whether member m was in the round. -/
def inRound (s : State) (m : Nat) : Bool :=
  m = s.sys.ringId.toNat || moduleInRound s m false || moduleInRound s m true

/-- The module after a round: lost when it was absent from two in a row (R335). -/
def ageModule (there : Bool) (x : RingModule) : RingModule :=
  if !x.up then x
  else if there then { x with absent := 0 }
  else { x with absent := x.absent + 1, up := decide (x.absent + 1 < 2) }

/-- Of a pair that stays a member, the partner that is lost is no longer shown (R356, R362). -/
def hideLost (k : Member) : Member :=
  if k.p0.up = k.p1.up then k
  else { k with p0 := { k.p0 with shown := k.p0.shown && k.p0.up }, p1 := { k.p1 with shown := k.p1.shown && k.p1.up } }

/-- The records after the round. -/
def ageMembers (s : State) : State :=
  (List.range 64).foldl (fun t m => updMember m (fun k =>
    hideLost { k with p0 := ageModule (moduleInRound s m false) k.p0, p1 := ageModule (moduleInRound s m true) k.p1 }) t) s

/-- The modules of the ring, as 2 × RING_ID + partner index, for which `p` holds. -/
def modulesWhere (p : Nat → Bool → Bool) : List Nat :=
  (List.range 64).flatMap fun m => (if p m false then [2 * m] else []) ++ if p m true then [2 * m + 1] else []

/-- Whether module `part` of member m is counted as up. -/
def moduleUp (s : State) (m : Nat) (part : Bool) : Bool := isSelf s m part || (moduleOf (Tab.get {} s.pas.memb m) part).up

/-- Whether member m has its host link up; for a pair either partner counts (R333). -/
def memberHostUp (s : State) (m : Nat) : Bool :=
  let k := Tab.get {} s.pas.memb m
  let there := fun (part : Bool) => if isSelf s m part then ownHostUp s else (moduleOf k part).up && (moduleOf k part).hostUp
  there false || there true

/-- The head by R333 among members: the lowest RING_ID with its host link up, else the lowest. -/
def electHead (s : State) (ms : List Nat) : Option Nat :=
  match ms.find? (memberHostUp s) with
  | some m => some m
  | none => ms.head?

/-- Members as a map. -/
def memberMap (ms : List Nat) : BitVec 64 := BitVec.ofNat 64 (ms.map (2 ^ ·)).sum

/-- Whether the ring shows a gap (R337): a link of this module is not whole, or a frame came that another module wrapped.
[Log: DEDUCED, unsafe, entry 49.] -/
def ringGap (s : State) : Bool := !(s.pas.eUp && s.pas.wUp && !s.pas.eMgmt && !s.pas.wMgmt) || s.pas.wrapSeen

/-- The ring state that the head finds (R337): CLOSED with no gap, WRAPPED with a gap and every module reached. When modules have
just been lost behind a gap, whether they lie in that gap or beyond a second one is open. [Log: DEDUCED, unsafe, entry 49.] -/
def ringState (lostNow : Bool) (s : State) : BitVec 3 × State :=
  if !ringGap s then (2, { s with pas.gone := [] })
  else if lostNow then
    let (split, s) := drawBool s
    (if split then 4 else 3, s)
  else (if s.pas.ring = 4 ∧ s.pas.gone ≠ [] then 4 else 3, s)

/-- The suspension map of another member goes to each of its modules (R331). -/
def sendSusp (c : Nat) (t : Topology) (maps : List (Nat × Nat)) (s : State) : State :=
  (List.range 64).foldl (fun s m =>
    let map := suspOf maps m
    [false, true].foldl (fun s part =>
      if map ≠ 0 ∧ moduleUp s m part ∧ !isSelf s m part then
        sendRing 0x02 (bitAt part 7 + m) true false false c (topologyBytes { t with susp := BitVec.ofNat 64 map }) s
      else s) s) s

/-- The head sends TOPOLOGY with the next epoch and a change tick 100 ticks later (R335): to all, and to each member of which
publications are suspended its map (R331, R347). A founding head takes offset 0 (R339). [Log: DESIGN CHOICE, safe, entry 51.] -/
def sendTopology (ms : List Nat) (st : BitVec 3) (s : State) : State :=
  let s := if s.pas.basin = 0 then { s with pas.ofs := 0 } else s
  let ex := s.pas.exNext.getD (s.pas.px, s.pas.d)
  let ad := admitOps s ex.1.toNat ex.2.toNat
  let (w1, s) := drawWord s
  let (w2, s) := drawWord s
  let basin := if s.pas.basin = 0 then w1 ++ w2 else s.pas.basin
  let t : Topology := { head := s.sys.ringId, state := st, epoch := s.pas.topoEpoch + 1, px := ex.1, d := ex.2, members := memberMap ms, susp := BitVec.ofNat 64 (suspOf ad.2.2 s.sys.ringId.toNat), basin := basin }
  let c := addTicks (basinTick s) 100
  sendSusp c t ad.2.2 (sendRing 0x02 0xFF true false false c (topologyBytes { t with susp := 0 })
    { s with pas.topoNext := some (c, t), pas.exNext := none })

/-- Whether the admission in force is no longer the one that the members' DISCOVER frames ask for (R347). -/
def admissionMoved (s : State) : Bool :=
  let ad := admitOps s s.pas.px.toNat s.pas.d.toNat
  (List.range 64).any fun m => m ≠ s.sys.ringId.toNat && decide (suspOf ad.2.1 m ≠ (Tab.get {} s.pas.memb m).admitted.toNat)

/-- Report the losses that are due: the lost member, or the lost partner of one (R353). -/
def reportLost (s : State) : State :=
  s.pas.lostDue.foldl (fun s c =>
    report 1 6 (BitVec.ofNat 6 (c / 2) ::
      (if moduleUp s (c / 2) false || moduleUp s (c / 2) true then [BitVec.ofNat 6 (c % 2)] else [])) 0 s)
    { s with pas.lostDue := [] }

/-- Whether a new head is elected (R332, R334, R338): a forming set that was stable for three rounds and hears no basin that it
can join; else when the head has left or lost its host link, when one comes up under a HOSTLESS head, or when fragments
rejoin. -/
def electionDue (ms : List Nat) (s : State) : Bool :=
  if s.pas.ring = 1 then
    decide (3 ≤ s.pas.stable) && !(s.pas.memb.any fun e => (e.2.p0.up && decide (e.2.p0.basin ≠ 0)) || (e.2.p1.up && decide (e.2.p1.basin ≠ 0)))
  else
    let headUp := memberHostUp s s.pas.headId.toNat
    !ms.contains s.pas.headId.toNat || (!s.pas.hostless && !headUp) || (s.pas.hostless && ms.any (memberHostUp s)) || s.pas.rejoin

/-- Whether a round is open and its last frames complete by the coming tick edge, of the round's tick + 100 (R335). -/
def roundEnds (s : State) : Bool :=
  match s.pas.round with | some r => reached (addTicks r 100) (addTicks (basinTick s) 1) | none => false

/-- DISCOVER_ROUND_CLOSE (R332 to R338): a module absent from two rounds in a row is lost, a new one is added; a change of the
members, of the head, of the ring state or of what is admitted makes the head send TOPOLOGY. Every member follows the ring's
gap. -/
def roundClose (s : State) : State :=
  if s.pas.ring = 0 ∨ !roundEnds s then s
  else
    let now := modulesWhere (moduleInRound s)
    let before := modulesWhere (moduleUp s)
    let was := (List.range 64).filter fun m => (Tab.get {} s.pas.memb m).inTopo
    let s := setMinor (ageMembers s)
    let lost := before.filter fun c => !moduleUp s (c / 2) (c % 2 = 1) && was.contains (c / 2)
    let ms := (List.range 64).filter fun m => moduleUp s m false || moduleUp s m true ||
      (was.contains m && (Tab.get {} s.pas.memb m).p0.round.isNone && (Tab.get {} s.pas.memb m).p1.round.isNone)
    let s := { s with pas.stable := if now = s.pas.heard then s.pas.stable + 1 else 0, pas.heard := now, pas.round := none,
                      pas.gone := (s.pas.gone ++ lost).filter fun c => !moduleUp s (c / 2) (c % 2 = 1),
                      pas.lostDue := s.pas.lostDue ++ lost }
    let elect := electionDue ms s
    let head := if elect then electHead s ms else some s.pas.headId.toNat
    let mine := decide (head = some s.sys.ringId.toNat) && !standby s && (decide (s.pas.ring ≠ 1) || elect)
    let (st, s) := if mine then ringState (!lost.isEmpty) s else (s.pas.ring, s)
    let moved := decide (ms ≠ was) || elect || decide (st ≠ s.pas.topoState) || admissionMoved s
    let s := if mine && moved && s.pas.topoNext.isNone then sendTopology ms st s else s
    let s := if s.pas.head then reportLost s else if mine then s else { s with pas.lostDue := [] }
    { s with pas.ring := if s.pas.ring = 2 ∨ s.pas.ring = 3 then (if ringGap s then 3 else 2) else s.pas.ring, pas.wrapSeen := false }

/-- DISCOVER_ROUND_CLOSE (R335). -/
def execDiscoverRoundClose (s : State) : Host.Outcome State Fault Refusal := .next (roundClose s)

/-- Whether a topology makes the module take another basin offset: another basin's, or one whose head was none of the members
that this module has reached (R339, R341). -/
def takesOffset (t : Topology) (s : State) : Bool :=
  decide (t.basin ≠ s.pas.basin) || !s.pas.members.getLsbD t.head.toNat

/-- A topology is taken unless it is the one in force (R335); the frame for all does not replace the one that brought this
member's own suspension map (R331). -/
def topologyOp (h : RingHdr) (t : Topology) (s : State) : State :=
  let held : Bool := match s.pas.topoNext with
    | some (_, k) => decide (k.epoch = t.epoch ∧ k.head = t.head ∧ h.dst = 0xFF)
    | none => false
  if held ∨ (t.epoch = s.pas.topoEpoch ∧ t.head = s.pas.headId ∧ t.basin = s.pas.basin ∧ s.pas.ring ≠ 1) then s
  else { s with pas.topoNext := some (h.tick.toNat, t) }

/-- TOPOLOGY (R335): a new topology epoch waits for its change tick. -/
def execTopology (h : RingHdr) (t : Topology) (s : State) : Host.Outcome State Fault Refusal :=
  .next (ringRx 2 false (topologyBytes t) h s (topologyOp h t))

/-- The records of the members under a new topology: who is in it, and the line bytes admitted of each (R335, R347). -/
def enterTopology (t : Topology) (admitted : List (Nat × Nat)) (s : State) : Tab Member :=
  (List.range 64).foldl (fun tb m =>
    Tab.upd {} tb m fun k =>
      let inn := t.members.getLsbD m
      { k with p0 := { k.p0 with shown := k.p0.up }, p1 := { k.p1 with shown := k.p1.up }, inTopo := inn, lost := if inn then false else k.lost || k.inTopo,
               admitted := BitVec.ofNat 32 (if inn then suspOf admitted m else 0) }) s.pas.memb

/-- The suspension of this member's own publications (R347). -/
def suspendPubs (map : BitVec 64) (s : State) : State :=
  { s with pas.budgetErr := s.pas.budgetErr || s.pas.pubs.any (fun e => e.2.valid && map.getLsbD e.1),
           pas.pubs := s.pas.pubs.map fun e => (e.1, { e.2 with susp := e.2.valid && map.getLsbD e.1 }) }

/-- The new topology is applied (R335, R334, R339, R341), and fragments have rejoined once it names every module that is heard (R338);
P_X and D that the head was given meanwhile go out in the next (R347). -/
def applyTopology (t : Topology) (s : State) : State :=
  let me := s.sys.ringId.toNat
  let isHead := decide (t.head = s.sys.ringId) && !standby s
  let founding := isHead && s.pas.basin = 0
  let beyond := (List.range 64).any fun m => !t.members.getLsbD m &&
    (let k := Tab.get {} s.pas.memb m; (k.p0.up && decide (k.p0.basin ≠ 0)) || (k.p1.up && decide (k.p1.basin ≠ 0)))
  let change := s.pas.topoNext.map (·.1)
  let ofs : BitVec 48 := if takesOffset t s && !founding then s.pas.ofsNext.getD s.pas.ofs else s.pas.ofs
  let wasHead := s.pas.head
  let formed := inBasin s
  let s := if wasHead && !isHead then s.pas.origins.foldl (fun s o => closeOrigin o s) s else s
  let ad := admitOps s t.px.toNat t.d.toNat
  let s := suspendPubs t.susp s
  let others := (ad.2.1.filter fun e => e.1 ≠ me)
  let s := { s with pas := { s.pas with
      memb := enterTopology t ((me, sentBytes s) :: others) s, ring := t.state, topoState := t.state, head := isHead, headId := t.head,
      members := t.members, px := t.px, d := t.d, topoEpoch := t.epoch, basin := t.basin, ofs := ofs, ofsNext := none,
      topoNext := none, stable := 0, rejoin := s.pas.rejoin && beyond, startAt := if formed then s.pas.startAt else change, budget := BitVec.ofNat 32 (sentBytes s + (others.map (·.2)).sum),
      hostless := !((List.range 64).any fun m => t.members.getLsbD m && memberHostUp s m) } }
  let s := if isHead && s.tsk.activeSrc = 4 then retime s else s
  let s := if isHead && !wasHead && formed then accession 0 0x0107 4 [BitVec.ofNat 8 me] { s with pas.origins := [] } else s
  let s := if isHead then reportLost s else { s with pas.lostDue := [] }
  if isHead && s.pas.exNext.isSome then sendTopology ((List.range 64).filter fun m => s.pas.members.getLsbD m) s.pas.topoState s else s

/-- Whether the waiting topology's change tick is reached, in the basin tick that it brings (R335, R341). A member that must take the
head's basin tick waits until a TICK_SYNC has shown it (R339). [Log: DEDUCED, unsafe, entry 239.] -/
def topologyDue (s : State) : Option Topology :=
  match s.pas.topoNext with
  | none => none
  | some (c, t) =>
    let ofs := if takesOffset t s && t.head ≠ s.sys.ringId then s.pas.ofsNext else some s.pas.ofs
    match ofs with
    | none => none
    | some o => if reached c (addTicks (s.tsk.tick + o).toNat 1) then some t else none

/-! ## Basin time (R339) -/

/-- Whether this module is the head, or has been elected and its first TOPOLOGY waits (R332, R339). -/
def headNow (s : State) : Bool :=
  (s.pas.head && inBasin s) || (!standby s && s.pas.ring = 1 && (match s.pas.topoNext with | some (_, t) => decide (t.head = s.sys.ringId) | none => false))

/-- TICK_SYNC_SEND (R339): the head, every 100 ticks; the nanoseconds into the tick are a free value. [Log: DESIGN CHOICE, unsafe, entry 193.] -/
def execTickSyncSend (s : State) : Host.Outcome State Fault Refusal :=
  .next (let b := basinTick s
    let t := if b % 100 = 0 then b else b + 1
    if headNow s && !s.sys.asleep && decide (t % 100 = 0) then
      let (ns, s) := drawWord s
      sendRing 0x03 0xFF true false false t (tickSyncBytes (ns.toNat % 10000) 0) s
    else s)

/-- The offset that a TICK_SYNC shows: the head's basin tick with the whole ticks of its nanoseconds and of the hops' delays, less
the own tick count (R331, R339). -/
def shownOffset (h : RingHdr) (ns : BitVec 16) (correction : BitVec 32) (s : State) : BitVec 48 :=
  h.tick + BitVec.ofNat 48 ((ns.toNat + correction.toNat) / 10000) - s.tsk.tick

/-- TICK_SYNC (R339, R341): a member other than the head disciplines to the head; one that joins takes the head's basin tick with the
first, and one that must take another basin tick learns its offset. [Log: DEDUCED, unsafe, entry 239.] -/
def tickSyncOp (h : RingHdr) (ns : BitVec 16) (correction : BitVec 32) (s : State) : State :=
  let shown := shownOffset h ns correction s
  if !s.pas.head && s.pas.ring = 1 && s.pas.ofsNext.isNone then
    { s with pas.ofs := shown, pas.ofsNext := some shown, pas.round := none, pas.sentRound := none }
  else
  if s.pas.head then (if h.src = s.pas.headId then s else { s with pas.ofsNext := some shown })
  else if s.pas.ring = 1 ∨ h.src ≠ s.pas.headId then { s with pas.ofsNext := some shown }
  else if s.tsk.activeSrc = 4 ∨ s.red.role = 3 then s
  else timebaseAcc { s with tsk.activeSrc := 4, tsk.locked := false }

/-- TICK_SYNC (R339): it goes on with the delay of this hop, a free value, added to its correction (R331). [Log: DESIGN CHOICE, unsafe, entry 193.] -/
def execTickSync (h : RingHdr) (ns : BitVec 16) (correction : BitVec 32) (s : State) : Host.Outcome State Fault Refusal :=
  .next (let (w, s) := drawWord s
    ringRxVia 3 false (tickSyncBytes ns.toNat correction.toNat) (tickSyncBytes ns.toNat (correction + w).toNat) h s (tickSyncOp h ns correction))

/-! ## Pass regions (R342 to R347) -/

/-- The points of a publication as bytes (R343). -/
def snapshot (p : Pub) (s : State) : List Byte :=
  if p.word then packPoints [] (Tab.range 0 s.tsk.words p.base.toNat p.count.toNat)
  else packPoints (Tab.range false s.tsk.bits p.base.toNat p.count.toNat) []

/-- The REGION frames of a publication (R343). -/
def sendRegion (x i : Nat) (p : Pub) (s : State) : State :=
  let cs := chunks 1024 (snapshot p s).length (snapshot p s)
  cs.zipIdx.foldl (fun s c =>
    sendRing 0x10 0xFF true (decide (c.2 + 1 < cs.length)) false x (regionPayload i (1024 * c.2) c.1) s) s

/-- A written publication comes into force (R347, R361): in a basin one of a member other than the head that asks for more line
bytes than are admitted waits, suspended, for the head's admission. [Log: DEDUCED, unsafe, entry 194.] -/
def newPub (s : State) (old new : Pub) : Pub :=
  { new with susp := new.valid && inBasin s && !s.pas.head && (old.susp || decide (pubBytes old < lineBytes new.word new.count.toNat)) }

/-- A written subscription comes into force (R361): FRESH stands until the next latch, and the frames received of the same region
stay. -/
def newSub (old new : Sub) : Sub :=
  let same := old.member = new.member ∧ old.region = new.region
  { new with fresh := new.valid && old.fresh, rx := if same then old.rx else [], latest := if same then old.latest else none }

/-- Publications, subscriptions and events that were written take effect at an exchange tick (R361). -/
def takeWrites (s : State) : State :=
  let g := fun {α : Type} [DecidableEq α] (d : α) (f : α → α → α) (t : Tab α) (n : Tab (Option α)) =>
    n.foldl (fun t e => match e.2 with | some v => Tab.upd d t e.1 (fun old => f old v) | none => t) t
  { s with pas := { s.pas with
      pubs := g {} (newPub s) s.pas.pubs s.pas.pubNext, subs := g {} newSub s.pas.subs s.pas.subNext,
      evts := g {} (fun _ v => v) s.pas.evts s.pas.evtNext, pubNext := [], subNext := [], evtNext := [] } }

/-- EXCHANGE_TICK (R343): after the input latch of the tick. The exchange of a module that joins starts after the change tick (R332). -/
def exchangeOp (s : State) : State :=
  let x := basinTick s
  if x % s.pas.px.toNat ≠ 0 ∨ s.pas.lastX = some x then s
  else
    let s := takeWrites { s with pas.lastX := some x }
    if ringSpeaker s && s.pas.startAt ≠ some x then
      s.pas.pubs.foldl (fun s e => if e.2.valid && !e.2.susp then sendRegion x e.1 e.2 s else s) s
    else s

/-- EXCHANGE_TICK (R343). -/
def execExchangeTick (s : State) : Host.Outcome State Fault Refusal := .next (exchangeOp s)

/-- Whether the span of a subscription lies in INPUT regions (R344). -/
def subFits (s : State) (word : Bool) (base n : Nat) : Bool := if word then wordsIn s 1 base n else bitsIn s 1 base n

/-- A subscription is refused (R344). -/
def refuseSub (i : Nat) (s : State) : State := accession 0 0x0106 3 [BitVec.ofNat 8 i] { s with pas.mapErr := true }

/-- The data of an exchange from offset `a` on, as far as the frames that have come give them without a gap; `fuel` bounds the
number of frames. -/
def assembled (parts : List (Nat × List Byte)) : Nat → Nat → List Byte
  | 0, _ => []
  | fuel + 1, a =>
    match parts.find? fun p => p.1 = a && !p.2.isEmpty with
    | some p => p.2 ++ assembled parts fuel (a + p.2.length)
    | none => []

/-- The data of an exchange, once every frame of it has come (R345). -/
def wholeRegion (r : RegionRx) : Option (List Byte) :=
  let b := assembled r.parts r.parts.length 0
  if r.size = some b.length then some b else none

/-- Add the data of one REGION frame to a subscription, in whatever order the frames come (R343, R345). -/
def addRegion (x offset : Nat) (more : Bool) (data : List Byte) (b : Sub) : Sub :=
  let old : RegionRx := (b.rx.find? fun r => r.x = x).getD { x := x }
  let new : RegionRx := { old with parts := old.parts ++ [(offset, data)], size := if more then old.size else some (offset + data.length) }
  { b with rx := b.rx.filter (fun r => decide (r.x ≠ x)) ++ [new] }

/-- REGION (R345): frames that come after their due tick are discarded; a changed region that a mapping cannot hold
ends the subscription (R344). [Log: DESIGN CHOICE, safe, entry 48.] -/
def regionOp (h : RingHdr) (index : Nat) (word : Bool) (count : BitVec 17) (offset : Nat) (data : List Byte) (s : State) : State :=
  let k := 64 * h.src.toNat + index
  if 64 ≤ index then s
  else
  let s := { s with pas.known := Tab.set none s.pas.known k (some (word, count)), pas.lastHeard := Tab.set 0 s.pas.lastHeard k h.tick.toNat }
  (List.range 128).foldl (fun s i =>
    let b := Tab.get {} s.pas.subs i
    if !b.valid ∨ b.member ≠ h.src ∨ b.region.toNat ≠ index then s
    else if !subFits s word b.base.toNat count.toNat then
      refuseSub i { s with pas.subs := Tab.set {} s.pas.subs i { b with valid := false, fresh := false, rx := [] } }
    else if reached (addTicks h.tick.toNat s.pas.d.toNat) (basinTick s) then s
    else { s with pas.subs := Tab.set {} s.pas.subs i (addRegion h.tick.toNat offset h.more data b) }) s

/-- REGION (R345). -/
def execRegion (h : RingHdr) (index : Byte) (word : Bool) (count : BitVec 17) (offset : BitVec 16) (data : List Byte) (s : State) :
    Host.Outcome State Fault Refusal :=
  .next (ringRx 0x10 false (regionPayload index.toNat offset.toNat data) h s (regionOp h index.toNat word count offset.toNat data))

/-- The input latch takes one subscription (R345, R346). -/
def latchSub (b : Nat) (i : Nat) (s : State) : State :=
  let p := Tab.get {} s.pas.subs i
  let px := s.pas.px.toNat
  if !p.valid ∨ b < s.pas.d.toNat then s
  else
    let x := (b - s.pas.d.toNat) / px * px
    if p.latest = some x then s
    else match (p.rx.find? fun r => r.x = x).bind wholeRegion with
      | some data =>
        let wc := (Tab.get none s.pas.known (64 * p.member.toNat + p.region.toNat)).getD (false, 0)
        let s := if wc.1 then putWords p.base.toNat ((words3 data).take wc.2.toNat) s
                 else putRaw p.base.toNat ((unpackBits data).take wc.2.toNat) s
        { s with pas.subs := Tab.set {} s.pas.subs i { p with fresh := true, latest := some x, rx := p.rx.filter fun r => decide (x < r.x) } }
      | none =>
        let s := { s with pas.subs := Tab.set {} s.pas.subs i { p with fresh := false } }
        if x + s.pas.d.toNat = b then report 3 3 [p.member] 0 { s with pas.late := satInc s.pas.late } else s

/-- Bit m of PAS_FRESH: every subscribed region of member m is fresh (R346). [Log: DEDUCED, unsafe, entry 47.] -/
def freshMap (s : State) : BitVec 64 :=
  BitVec.ofNat 64 (bitMap 64 fun m =>
    let l := s.pas.subs.filter fun e => e.2.valid && e.2.member.toNat = m
    !l.isEmpty && l.all fun e => e.2.fresh)

/-- The pass regions that are due are latched (R345, R346); outside a basin no region comes in time. -/
def ringLatch (s : State) : State :=
  let b := basinTick s
  let s := if inBasin s then s.pas.subs.foldl (fun s e => latchSub b e.1 s) s
    else { s with pas.subs := s.pas.subs.map fun e => (e.1, { e.2 with fresh := false }) }
  let s := { s with pas.fresh := freshMap s }
  if s.pas.freshEn then putRaw (64 * s.pas.freshGrain.toNat) ((List.range 64).map fun m => s.pas.fresh.getLsbD m) s else s

/-- A publication as its two registers give it (R342, R361). -/
def pubOf (a b : W32) : Pub :=
  { valid := a.getLsbD 31, word := a.getLsbD 29, base := a.setWidth 22, count := b.setWidth 17 }

/-- Whether a publication stays inside its image and its size bounds (R342). -/
def pubFits (p : Pub) : Bool :=
  let n := p.count.toNat
  if p.word then 1 ≤ n && n ≤ 8192 && p.base.toNat + n ≤ 2 ^ 20 else 1 ≤ n && n ≤ 65536 && p.base.toNat + n ≤ 2 ^ 22

/-- A write of publication i (R342, R347, R361): one that passes its image is not accepted and stores nothing (R623), and its entry is
valid no more; one at the head that would break a bound is ignored. -/
def writePub (i : Nat) (p : Pub) (s : State) : State :=
  let cur := (Tab.get none s.pas.pubNext i).getD (Tab.get {} s.pas.pubs i)
  if p.valid ∧ !pubFits p then
    { s with pas.pubNext := Tab.set none s.pas.pubNext i (some { p with valid := false }), pas.mapErr := true,
             pas.budget := if s.pas.head then BitVec.ofNat 32 (s.pas.budget.toNat - pubBytes cur) else s.pas.budget }
  else if s.pas.head && !withinBudget (s.pas.budget.toNat - pubBytes cur + pubBytes p) s.pas.px.toNat s.pas.d.toNat then s
  else
    let s := if s.pas.head then { s with pas.budget := BitVec.ofNat 32 (s.pas.budget.toNat - pubBytes cur + pubBytes p) } else s
    touchSettings { s with pas.pubNext := Tab.set none s.pas.pubNext i (some p), pas.pubSet := Tab.set {} s.pas.pubSet i p }

/-- A write of a publication at this module (R347, R375). -/
def setPub (index : BitVec 6) (a b : W32) (s : State) : State := noteSettings (.pub index a b) (writePub index.toNat (pubOf a b) s)

/-- PAS_PUB_WRITE (R347). -/
def execPasPubWrite (index : BitVec 6) (a b : W32) (s : State) : Host.Outcome State Fault Refusal := .next (setPub index a b s)

/-- A subscription as its two registers give it (R361). -/
def subOf (a b : W32) : Sub :=
  { valid := a.getLsbD 31, member := BitVec.ofNat 6 (field a.toNat 27 22), region := BitVec.ofNat 6 (field a.toNat 21 16), base := b.setWidth 22 }

/-- A write of subscription i (R344): checked when the region is known; a refused one stores nothing (R623). -/
def writeSub (i : Nat) (b : Sub) (s : State) : State :=
  let next := fun (b : Sub) (s : State) => { s with pas.subNext := Tab.set none s.pas.subNext i (some b) }
  let put := fun (s : State) => touchSettings (next b { s with pas.subSet := Tab.set {} s.pas.subSet i b })
  match Tab.get none s.pas.known (64 * b.member.toNat + b.region.toNat) with
  | some (w, n) => if b.valid ∧ !subFits s w b.base.toNat n.toNat then refuseSub i (next { b with valid := false } s) else put s
  | none => put s

/-- A write of a subscription at this module (R344, R375). -/
def setSub (index : BitVec 7) (a b : W32) (s : State) : State := noteSettings (.sub index a b) (writeSub index.toNat (subOf a b) s)

/-- PAS_SUB_WRITE (R344). -/
def execPasSubWrite (index : BitVec 7) (a b : W32) (s : State) : Host.Outcome State Fault Refusal := .next (setSub index a b s)

/-- A write of event e (R350). -/
def writePasEvt (e : Nat) (data : W32) (s : State) : State :=
  let v : PasEvt := { own := data.getLsbD 31, addr := data.setWidth 22 }
  touchSettings { s with pas.evtNext := Tab.set none s.pas.evtNext e (some v), pas.evtSet := Tab.set {} s.pas.evtSet e v }

/-- A write of an event mapping at this module (R350, R375). -/
def setPasEvt (event : BitVec 6) (data : W32) (s : State) : State := noteSettings (.evt event data) (writePasEvt event.toNat data s)

/-- PAS_EVT_WRITE (R350). -/
def execPasEvtWrite (event : BitVec 6) (data : W32) (s : State) : Host.Outcome State Fault Refusal := .next (setPasEvt event data s)

/-- A write of PAS_EXCH at the head (R347): distributed by TOPOLOGY; one outside the bounds is ignored. -/
def writeExch (v : W32) (s : State) : State :=
  let px := v.toNat % 2 ^ 16
  let d := v.toNat / 2 ^ 16
  if !s.pas.head ∨ px < 10 ∨ px > 10000 ∨ d = 0 ∨ !withinBudget s.pas.budget.toNat px d then s
  else
    let s := { s with pas.exNext := some (BitVec.ofNat 16 px, BitVec.ofNat 16 d) }
    if s.pas.topoNext.isSome then s
    else sendTopology ((List.range 64).filter fun m => s.pas.members.getLsbD m) s.pas.topoState s

/-! ## Events, casts, reports (R350, R352, R355) -/

/-- The owned events whose bit a commit changed from 0 to 1 (R350): `rose` says so of a bit address. -/
def eventsOf (rose : Nat → Bool) (s : State) : List Nat :=
  if ringSpeaker s && decide (1 ≤ s.pas.minor.toNat) then
    (s.pas.evts.filter fun e => e.2.own && rose e.2.addr.toNat).map (·.1)
  else []

/-- EVENT frames of a commit tick; the frame is a trigger in the owner too (R350). -/
def sendEvents (es : List Nat) (s : State) : State :=
  es.foldl (fun s e => raiseTrigger 3 e true (sendRing 0x11 0xFF true false false (basinTick s) (eventBytes e)
    { s with pas.evts := Tab.upd {} s.pas.evts e fun p => { p with own := p.own && !p.last, last := false } })) s

/-- EVENT (R350): an event that this member owns too ends its ownership. The member sends one EVENT more, by which the other owner learns
of it; its OWN reads 0 from now on. [Log: DEDUCED, unsafe, entry 195.] -/
def eventOp (h : RingHdr) (event : Byte) (s : State) : State :=
  let e := event.toNat % 64
  let p := Tab.get {} s.pas.evts e
  let s := if p.own ∧ h.src ≠ s.sys.ringId then
      { s with pas.evts := Tab.set {} s.pas.evts e { p with last := true }, pas.mapErr := true }
    else s
  if s.pas.minor = 0 then s else raiseTrigger 3 e true s

/-- EVENT (R350). -/
def execEvent (h : RingHdr) (event : Byte) (s : State) : Host.Outcome State Fault Refusal :=
  .next (ringRx 0x11 false (eventBytes event.toNat) h s (eventOp h event))

/-- CAST_FRAME (R352, R338): below version 1.2 it triggers on receipt. -/
def execCastFrame (h : RingHdr) (ns : BitVec 16) (source : Byte) (s : State) : Host.Outcome State Fault Refusal :=
  .next (ringRx 0x30 false (castBytes ns.toNat source.toNat) h s fun s =>
    if s.pas.minor.toNat < 2 then raiseCast 5 s else { s with pas.castAt := s.pas.castAt ++ [h.tick.toNat] })

/-- CAST_FRAME_TRIGGER (R352): every trigger time that the coming tick reaches. -/
def execCastFrameTrigger (s : State) : Host.Outcome State Fault Refusal :=
  .next (let due := fun (t : Nat) => reached t (addTicks (basinTick s) 1)
    (s.pas.castAt.filter due).foldl (fun s _ => raiseCast 5 s) { s with pas.castAt := s.pas.castAt.filter fun t => !due t })

/-- REPORT (R355). -/
def execReport (h : RingHdr) (q : Report) (s : State) : Host.Outcome State Fault Refusal :=
  .next (ringRx 0x40 false (reportBytes q) h s fun s => if s.pas.head then coalesce q h.tick.toNat s else s)

/-- ORIGIN_RECORD_CLOSE (R356): the oldest record that has reached T0 + 101,000; time stands still in sleep (R483). -/
def execOriginRecordClose (s : State) : Host.Outcome State Fault Refusal :=
  .next (if s.sys.asleep then s
    else match s.pas.origins.find? fun o => reached (addTicks o.t0 101000) (addTicks (basinTick s) 1) with
    | some o => closeOrigin o s
    | none => s)

end Sys2Proof.Machine
end

