-- ==== Sys2Proof/Machine/Commit.lean ====
section
/-! DEFINITION. Commits, host writes, the input latch, releases and mode changes: the parts of a tick edge (R84 to R111,
R146 to R151). -/

namespace Sys2Proof.Machine

/-! ## Changes of the committed state -/

/-- Add a changed grain to CHG of every task but `by_` (R146). -/
def chgAll (by_ : Option Nat) (g : Nat) (s : State) : State :=
  { s with tsk.tasks := s.tsk.tasks.map fun e => if by_ = some e.1 then e else (e.1, { e.2 with chg := e.2.chg.add g }) }

/-- The task of a segment in the active bank. -/
def segOwner (s : State) (g : Nat) : Nat := segTask (segEntry (activeBank s) g)

/-- A grain of the committed state has changed: by the commit of a task, by the host or by the latch (R146, R148). -/
def grainChanged (by_ : Option Nat) (g : Nat) (s : State) : State :=
  let s := chgAll by_ g s
  match Tab.get none s.scan.tags g with
  | none => s
  | some t => if by_ = some (segOwner s t) then s else setSegBit s.prog.active t 27 true s

/-- The 4 KiB block of a bit of the image: 0 to 127 (R393). -/
def bitBlock (a : Nat) : Nat := a / 32768
/-- The 4 KiB block of a word of the image or of data memory: from 128 (R393). -/
def wordBlock (a : Nat) : Nat := 128 + a * 3 / 4096

/-- The active partner marks a block that it changes during a resynchronisation (R393). -/
def markBlock (b : Nat) (s : State) : State :=
  if s.red.role = 1 ∧ 3 ≤ s.red.resync.phase.toNat ∧ !s.red.resync.marked.contains b then
    { s with red.resync := { s.red.resync with marked := s.red.resync.marked ++ [b] } }
  else s

/-- Set a committed bit. -/
def setBit (by_ : Option Nat) (a : Nat) (v : Bool) (s : State) : State :=
  if Tab.get false s.tsk.bits a = v then s
  else grainChanged by_ (bitGrain a) (markBlock (bitBlock a) { s with tsk.bits := Tab.set false s.tsk.bits a v })

/-- Set a committed word; data memory has no grains (R62). -/
def setWord (by_ : Option Nat) (a : Nat) (v : W24) (s : State) : State :=
  if Tab.get 0 s.tsk.words a = v then s
  else
    let s := markBlock (wordBlock a) { s with tsk.words := Tab.set 0 s.tsk.words a v }
    if a < 2 ^ 20 then grainChanged by_ (wordGrain a) s else s

/-- What a tick edge has collected: tasks that committed, tasks that check in, events to send. -/
structure Edge where
  done   : List Nat := []
  checks : List Nat := []
  events : List Nat := []

/-! ## Task commit (R64 to R66, R86, R87) -/

/-- The writes of task n's release that OUTPUT regions of other owners discard (R66). -/
def foreignWrites (s : State) (n : Nat) : Nat :=
  let t := task s n
  (t.ownBits.filter fun e => isOutput (bitRegion s e.1) && !committable (bitRegion s e.1) n).length +
  (t.ownWords.filter fun e => isOutput (wordRegion s e.1) && !committable (wordRegion s e.1) n).length

/-- OUTPUT_FOREIGN, at most once per second and task (R66). [Log: DESIGN CHOICE, unsafe, entry 181.] -/
def noteForeign (n : Nat) (s : State) : State :=
  let k := foreignWrites s n
  let quiet : Bool := match (task s n).foreignAt with | some t => decide (s.sys.upTicks < t + 100000) | none => false
  if k = 0 ∨ quiet then s
  else
    let s := updTask n (fun t => { t with foreignAt := some s.sys.upTicks }) s
    intake { index := 0, code := 0x0401, sev := 2, unit := 2, rtc := 0, tick := 0, count := BitVec.ofNat 32 k, data := [BitVec.ofNat 8 n] } s

/-- The bytes of a view-store slot's grain or data block after a commit (R381). -/
def slotBytes' (s : State) (g : Nat) : List Byte :=
  if g < 65536 then [0] ++ beBytes 3 g ++ packBits (Tab.range false s.tsk.bits (64 * g) 64)
  else
    let w := g - 65536
    (if w < 131072 then [1] ++ beBytes 3 w else [2] ++ beBytes 3 (w - 131072)) ++
    (Tab.range 0 s.tsk.words (8 * w) 8).flatMap fun x => beBytes 3 x.toNat

/-- Insert into an ascending list. -/
def insertAsc (x : Nat) : List Nat → List Nat
  | [] => [x]
  | y :: t => if x ≤ y then x :: y :: t else y :: insertAsc x t

/-- CRC-64/XZ (R426). -/
def crc64 (bs : List Byte) : BitVec 64 :=
  BitVec.ofNat 64 (crcOf ⟨64, 0x42F0E1EBA9EA3693, 0xFFFFFFFFFFFFFFFF, true, true, 0xFFFFFFFFFFFFFFFF⟩ bs)

/-- The cycle digest of a commit (R381). -/
def cycleDigest (s : State) (n : Nat) (lt : Tick) (slots : List Nat) : BitVec 64 :=
  crc64 (beBytes 1 n ++ beBytes 6 lt.toNat ++ (slots.foldl (fun l g => insertAsc g l) []).flatMap (slotBytes' s))

/-- Whether the join tick of a resynchronisation has come at tick t (R393). -/
def joinedBy (t : Nat) (s : State) : Bool := match s.red.resync.join with | some j => reached j t | none => false

/-- Whether the active partner decides the release of task n with a standby (R380, R384, R393): one in step, or one that
joined before the release, while the sync link path is up. -/
def agrees (s : State) (n : Nat) : Bool :=
  s.red.role = 1 && s.red.syncUp && !s.red.syncMgmt && s.red.pathSync &&
  (s.red.peerRole = 3 || (s.red.peerRole = 2 && joinedBy (task s n).lt.toNat s))

/-- The digest of a commit goes to the other partner and is kept for the comparison (R381). -/
def sendDigest (n : Nat) (lt : Tick) (slots : List Nat) (s : State) : State :=
  if follows s n || agrees s n then
    let d := cycleDigest s n lt slots
    sendSync false 0x08 s.tsk.tick.toNat (taskBytes n lt ++ beBytes 8 d.toNat) { s with red.ownDig := ((n, lt, d) :: s.red.ownDig).take 64 }
  else s

/-- The view of a commit after the join tick of a release before it goes to the standby as STATE data (R393). -/
def sendLateView (n : Nat) (t : Task) (s : State) : State :=
  let late : Bool := match s.red.resync.join with | some j => !reached j t.lt.toNat && reached (addTicks j 1) s.tsk.tick.toNat | none => false
  if s.red.role = 1 && s.red.syncUp && late then
    let bs := t.ownBits.filterMap fun e => if committable (bitRegion s e.1) n then e.2.map fun v => (BitVec.ofNat 22 e.1, v) else none
    let ws := t.ownWords.filterMap fun e => if committable (wordRegion s e.1) n then e.2.map fun v => (BitVec.ofNat 21 e.1, v) else none
    sendState (.view (BitVec.ofNat 5 n) t.lt bs ws) s
  else s

/-- The view-store slots of task n that its commit makes visible: those of OUTPUT points of another owner and of INPUT points are
discarded (R66, R381). -/
def visibleSlots (s : State) (n : Nat) : List Nat :=
  (task s n).slots.filter fun g => committable (if g < 65536 then bitRegion s (64 * g) else wordRegion s (8 * (g - 65536))) n

/-- A task ends its release: its view and slots are free. -/
def endRelease (t : Task) : Task :=
  { t with st := .idle, ext := false, snapBits := [], snapWords := [], ownBits := [], ownWords := [], slots := [], queue := [], ctx := none, newPrev := {}, dirty := {}, guarded := false, verdict := none, peerDone := false, held := false, stepped := false }

/-- A bit point that task n commits: its owner has given its value (R450). -/
def commitBit (n a : Nat) (v : Bool) (s : State) : State :=
  setBit (some n) a v { s with tsk.hostOver := Tab.set none s.tsk.hostOver a none }

/-- Task n commits (R86, R87, R97, R149, R201). -/
def commitTask (n : Nat) (x : State × Edge) : State × Edge :=
  let (s, ed) := x
  let t := task s n
  let s := noteForeign n s
  let old := s.tsk.bits
  let s := t.ownBits.foldl (fun s e => match e.2 with
    | some v => if committable (bitRegion s e.1) n then commitBit n e.1 v s else s
    | none => s) s
  let s := t.ownWords.foldl (fun s e => match e.2 with
    | some v => if committable (wordRegion s e.1) n then setWord (some n) e.1 v s else s
    | none => s) s
  let check := (segsOf (bankOf s t.bank) n).any fun g => Tab.get false s.scan.chk g
  let evs := eventsOf (fun a => !(Tab.get false old a) && Tab.get false s.tsk.bits a) s
  let s := sendLateView n t (sendDigest n t.lt (visibleSlots s n) s)
  let s := updTask n (fun t => { endRelease t with ovrConsec := 0, prev := t.newPrev }) s
  (s, { done := ed.done ++ [n], checks := if check then ed.checks ++ [n] else ed.checks, events := ed.events ++ evs })

/-! ## Outputs -/

/-- The committed OUTPUT values are copied to the output buffers (R87). -/
def outputCopy (s : State) : State :=
  { s with tsk.outBits := s.tsk.bits.filter fun e => isOutput (bitRegion s e.1),
           tsk.outWords := s.tsk.words.filter fun e => isOutput (wordRegion s e.1) }

/-- All OUTPUT points are set to 0 (R108). -/
def clearOutputs (s : State) : State :=
  let s := (s.tsk.bits.filter fun e => isOutput (bitRegion s e.1)).foldl (fun s e => setBit none e.1 false s) s
  (s.tsk.words.filter fun e => isOutput (wordRegion s e.1)).foldl (fun s e => setWord none e.1 0 s) { s with tsk.hostOver := [] }

/-! ## Host writes (R90) -/

/-- A host write to a bit point of class OUTPUT leaves known what the owner's commits gave it (R450). -/
def hostBit (a : Nat) (v : Bool) (s : State) : State :=
  let owned := if isOutput (bitRegion s a) && (Tab.get none s.tsk.hostOver a).isNone then
    Tab.set none s.tsk.hostOver a (some (Tab.get false s.tsk.bits a)) else s.tsk.hostOver
  setBit none a v { s with tsk.hostOver := owned }

/-- Apply one host write to the committed state; INPUT points are given in a second pass, after the latch. -/
def applyWrite (input : Bool) (w : HostWrite) (s : State) : State :=
  w.vals.zipIdx.foldl (fun s v =>
    let a := (w.addr.toNat + v.2) % (if w.word then 2 ^ 21 else 2 ^ 22)
    let r := if w.word then wordRegion s a else bitRegion s a
    if isInput r ≠ input then s
    else if w.word then setWord none a v.1 s else hostBit a (v.1 ≠ 0) s) s

/-! ## Input latch (R88, R92) -/

/-- The points that the latch may change: listed in the input buffers or in the image, of class INPUT. -/
def latchBits (s : State) : State :=
  let s := (s.tsk.bits.filter fun e => isInput (bitRegion s e.1) && Tab.get false s.tsk.inBits e.1 != e.2).foldl
    (fun s e => setBit none e.1 false s) s
  (s.tsk.inBits.filter fun e => isInput (bitRegion s e.1)).foldl (fun s e => setBit none e.1 e.2 s) s

/-- The same for words. -/
def latchWords (s : State) : State :=
  let s := (s.tsk.words.filter fun e => isInput (wordRegion s e.1) && Tab.get 0 s.tsk.inWords e.1 != e.2).foldl
    (fun s e => setWord none e.1 (Tab.get 0 s.tsk.inWords e.1) s) s
  (s.tsk.inWords.filter fun e => isInput (wordRegion s e.1)).foldl (fun s e => setWord none e.1 e.2 s) s

/-- The input latch of a tick: the input buffers of every source. -/
def latchInputs (s : State) : State := latchWords (latchBits s)

/-- The time of day of a tick (R92): from the locked source, else from the RTC; flags LOCKED-source and OSF (R232). -/
def latchTime (srcTime : BitVec 47) (s : State) : State :=
  let t : BitVec 47 := if s.tsk.locked then srcTime else s.bkd.rtc
  let s := ppsTick s.tsk.tod.toNat t.toNat s
  { s with tsk.tod := t.setWidth 48, tsk.todFlags := BitVec.ofNat 2 (b01 s.tsk.locked + bitAt s.bkd.osf 1) }

/-! ## Release (R76, R89, R149) -/

/-- Write words of a record from `a` (R175). -/
def setWords (a : Nat) (vs : List W24) (s : State) : State :=
  vs.zipIdx.foldl (fun s v => setWord none ((a + v.2) % 2 ^ 21) v.1 s) s

/-- A timer rule applied at the present tick (R265): the words that it gives the record at `a`; none keeps it. -/
def timerWords (s : State) (a kind rule : Nat) (flags : Byte) (value : L48) : List W24 :=
  let e := s.tsk.tick
  let w0 := (Tab.get 0 s.tsk.words (a % 2 ^ 21) &&& 0xFFFF00#24) ||| flags.setWidth 24
  let two := fun (v : L48) => [hi24 v, lo24 v]
  match rule, kind with
  | 1, 0 => [0, 0, 0]
  | 1, 1 => [0, 0, 0, 0, 0]
  | 1, 2 => [0, 0]
  | 2, 0 => w0 :: two (e - value)
  | 2, 1 => w0 :: (two value ++ two e)
  | 2, 2 => [w0, BitVec.ofInt 24 (max (-0x800000) (min 0x7FFFFF value.toInt))]
  | _, _ => []

/-- One data directive (R251, R264, R265); addresses wrap (R175). -/
def applyDirective (d : Directive) (s : State) : State :=
  match d.body with
  | .words a vs => setWords a.toNat vs s
  | .bits a vs => vs.zipIdx.foldl (fun s v => setBit none ((a.toNat + v.2) % 2 ^ 22) v.1 s) s
  | .timer a kind rule flags value => setWords a.toNat (timerWords s a.toNat kind.toNat rule.toNat flags value) s

/-- Release task n at the present tick (R89, R149). [Log: DESIGN CHOICE, unsafe, entry 23.] -/
def releaseTask (n : Nat) (s : State) : State :=
  let d := taskDef s n
  let taken := (task s n).fullK
  let full := taken || !d.cfg.getLsbD 26
  let s := updTask n (fun t => { t with
    st := .ready, lt := s.tsk.tick, due := addTicks s.tsk.tick.toNat (deadlineOf d), bank := s.prog.active, ext := false,
    guarded := false, verdict := none, peerDone := false, queue := (segsOf (activeBank s) n).map fun g => (g, .pending),
    ctx := none, snapBits := s.tsk.bits, snapWords := s.tsk.words, ownBits := [], ownWords := [], slots := [],
    tod := s.tsk.tod, todFlags := s.tsk.todFlags,
    fullScan := full, fullK := false, dirty := t.chg.union t.prev, chg := {}, newPrev := {} }) s
  if taken then { s with scan.fullScans := satInc s.scan.fullScans } else s

/-- Whether a cyclic task is due at the present tick (R76). -/
def cyclicDue (s : State) (n : Nat) : Bool :=
  let d := taskDef s n
  kindOf d = 0 && periodOf d ≠ 0 && s.tsk.tick.toNat % periodOf d = phaseOf d % periodOf d

/-- Whether task n is an event task by the definition in force: a trigger taken before an edit tick is ignored once its task is
removed or of another kind (R262). -/
def isEvent (s : State) (n : Nat) : Bool := present (taskDef s n) && kindOf (taskDef s n) = 1

/-- A trigger is taken (R79, R80, R262): it releases an idle event task, else it is stored or lost. -/
def takeTrigger (n : Nat) (s : State) : State :=
  let t := task s n
  if !isEvent s n then s
  else if t.st = .idle then releaseTask n s
  else if released t then
    updTask n (fun t => if t.evtPend then { t with evtLost := satInc t.evtLost } else { t with evtPend := true }) s
  else s

/-- A stored trigger releases its event task once it is idle (R80, R262). [Log: DESIGN CHOICE, unsafe, entry 178.] -/
def takePending (n : Nat) (s : State) : State :=
  let t := task s n
  if t.evtPend ∧ t.st = .idle ∧ isEvent s n then releaseTask n (updTask n (fun t => { t with evtPend := false }) s) else s

/-- The next background task to release (R82): the first enabled one after the last, in ascending order. -/
def nextBackground (s : State) : Option Nat :=
  ((List.range 32).map fun i => (s.tsk.lastBg + 1 + i) % 32).find? fun n =>
    present (taskDef s n) && kindOf (taskDef s n) = 2 && (task s n).st = .idle

/-- Whether a background task holds a release. -/
def backgroundBusy (s : State) : Bool :=
  (List.range 32).any fun n => kindOf (relDef s n) = 2 && released (task s n)

/-- Task numbers, highest priority first by their definitions (R84, R86). -/
def byPrio (s : State) : List Nat :=
  (List.range 33).flatMap fun p => (List.range 32).filter fun n => prioOf (taskDef s n) = p

/-- The releases of a tick in RUN, by this module's own decision (R76, R79, R80, R82).
[Log: DESIGN CHOICE, unsafe, entry 210; DESIGN CHOICE, unsafe, entry 243.] -/
def releaseDue (bgDone : Bool) (s : State) : State :=
  let trig := s.tsk.triggers
  let s := { s with tsk.triggers := [] }
  if s.tsk.mode ≠ .run then s
  else
    let s := (byPrio s).foldl (fun s n =>
      if cyclicDue s n && (task s n).st = .idle then releaseTask n s else takePending n s) s
    let s := trig.foldl (fun s n => takeTrigger n s) s
    if bgDone || backgroundBusy s then s
    else match nextBackground s with
      | some n => { releaseTask n s with tsk.lastBg := n }
      | none => s

/-! ## Overrun (R94 to R97) -/

/-- Task n overruns at its guard edge, or, in a pair, at the deadline edge (R380). -/
def overrun (n : Nat) (s : State) : State :=
  let d := relDef s n
  let ext := (task s n).ext
  let r := countOverrun n s
  if r.2 then faultTask n r.1
  else if d.cfg.getLsbD 27 && !ext then
    updTask n (fun t => { t with ext := true, guarded := false, verdict := none,
                                 due := addTicks t.due (if kindOf d = 0 then periodOf d else deadlineOf d) }) r.1
  else abandon n r.1

/-! ## Modes (R104 to R109) -/

/-- FULL_k for every task (R151). -/
def fullAll (s : State) : State :=
  { s with tsk.tasks := s.tsk.tasks.map fun e => (e.1, { e.2 with fullK := true }) }

/-- The mode becomes RUN (R107). -/
def runMode (s : State) : State := { (if s.tsk.mode = .stop then fullAll s else s) with tsk.mode := .run }

/-- Entry into RUN, which meets the RUN that named it (R107). -/
def enterRun (s : State) : State := { runMode s with tsk.runAt := none }

/-- Whether tick t is the switchover tick at which this active partner leaves the decisions that wait to the other (R110, R390).
[Log: DESIGN CHOICE, unsafe, entry 254.] -/
def handsOver (t : Tick) (s : State) : Bool :=
  s.red.role = 1 && match s.red.switchAt with | some u => reached u t.toNat | none => false

/-- Whether a STOP, or the STOP of a task fault, takes effect at tick t (R98, R108). -/
def stopsAt (t : Tick) (s : State) : Bool :=
  (s.tsk.stopReq && !handsOver t s) || match s.tsk.stopAt with | some u => reached u.toNat t.toNat | none => false

/-- STOP takes effect (R108, R458). A RUN or a STEP that was accepted after it stands; one accepted before it was dropped with it. -/
def enterStop (s : State) : State :=
  let s := (List.range 32).foldl (fun s n => abandon n s) s
  let s : State := { s with
    tsk.mode := .stop, tsk.stopReq := false, tsk.stopAt := none, tsk.triggers := [],
    tsk.tasks := s.tsk.tasks.map fun e => (e.1, { e.2 with evtPend := false }) }
  if s.tsk.stopOut then clearOutputs { s with dio.reqBuf := 0 } else s

/-- TASK_DISABLE takes effect (R105). -/
def disableTask (n : Nat) (s : State) : State :=
  if (task s n).st = .absent then s
  else updTask n (fun t => { t with st := .disabled, evtPend := false }) (abandon n s)

/-- TASK_ENABLE takes effect (R105, R151). -/
def enableTask (n : Nat) (s : State) : State :=
  if (task s n).st = .absent then s
  else updTask n (fun t => { t with st := if t.st = .disabled then .idle else t.st, fullK := true }) s

/-- TASK_RESTART takes effect (R98, R121, R151). -/
def restartTask (n : Nat) (s : State) : State :=
  if (task s n).st = .faulted then updTask n (fun t => { t with st := .idle, ovrConsec := 0, execMax := 0, fullK := true }) s else s

/-- The enables, restarts and disables that take effect at an edge, in that order. [Log: DESIGN CHOICE, unsafe, entry 176.] -/
def applyTaskControl (s : State) : State :=
  let s := s.tsk.enables.foldl (fun s n => enableTask n s) s
  let s := s.tsk.restarts.foldl (fun s n => restartTask n s) s
  let s := s.tsk.disables.foldl (fun s n => disableTask n s) s
  { s with tsk.enables := [], tsk.restarts := [], tsk.disables := [] }

/-- The STEPs accepted since the last edge (R109). -/
def releaseSteps (s : State) : State :=
  let l := s.tsk.steps
  l.foldl (fun s n => if (task s n).st = .idle then updTask n (fun t => { t with stepped := true }) (releaseTask n s) else s)
    { s with tsk.steps := [] }

end Sys2Proof.Machine
end

