-- ==== Sys2Proof/Machine/PairOps.lean ====
section
/-! DEFINITION. What the rows of a pair share: role changes (R366 to R369, R381), the claim epoch (R371), the input
sources and their digests (R376), and the record of a tick (R375). -/

namespace Sys2Proof.Machine

/-! ## Roles -/

/-- A transition of R368 that no other accession names. [Log: DEDUCED, unsafe, entry 75.] -/
def roleChange (role : BitVec 3) (sev : Nat) (s : State) : State :=
  accession 0 0x0901 sev [] { s with red.role := role }

/-- Every release in progress is given up: a partner outside step executes none (R366). -/
def abandonAll (s : State) : State := (List.range 32).foldl (fun s n => abandon n s) s

/-- What a partner forgets when it leaves the step or a resynchronisation. -/
def leaveStep (s : State) : State :=
  { s with red.presuming := false, red.waits := [], red.ownDig := [], red.peerDig := [], red.resync := {}, red.switchAt := none,
           red.items := [], red.builtDig := none, red.infoTag := none, red.relinquish := false, red.owed := false, red.dirsOwed := false, red.hbDrop := [] }

/-- A partner becomes STANDBY_WARM with the accession of the cause (R368, R381). -/
def toWarm (code sev : Nat) (data : List Byte) (s : State) : State :=
  accession 0 code sev data { leaveStep (abandonAll s) with red.role := 4, red.autoPend := true }

/-- A standby in step leaves it for a cause of R381; another role is not changed. -/
def dropFromStep (code : Nat) (data : List Byte) (s : State) : State :=
  if s.red.role = 3 then toWarm code 5 data s else s

/-- A resynchronisation is refused or broken off (R368, R394). -/
def breakResync (s : State) : State := if s.red.role = 2 then toWarm 0x0901 4 [] s else s

/-- Whether the sync link is up at a common major version (R393). -/
def syncReady (s : State) : Bool := s.red.syncUp && !s.red.syncMgmt

/-- Whether the HB pair is this partner's to drive: 50 µs from each tick whose count modulo 10 is 0, or 5 for partner 1 (R365). -/
def inSlot (s : State) : Bool := decide (s.tsk.tick.toNat % 10 / 5 = b01 s.sys.partner)

/-- The CONTROL frame that waits for this partner's slot on the HB pair. -/
def sendHbDrop (s : State) : State :=
  if s.red.hbDrop ≠ [] ∧ inSlot s then sendSync true 0x11 s.tsk.tick.toNat s.red.hbDrop { s with red.hbDrop := [] } else s

/-- The active partner drops the standby by DROP_TO_WARM on both paths (R374, R380), on the HB pair in its slot (R365); the
manual lists no cause codes. -/
def dropStandby (cause : Nat) (s : State) : State :=
  let d : List Byte := [Config.dropCause cause]
  let s := sendControl 0x03 d { leaveStep s with red.peerRole := 4 }
  sendHbDrop { s with red.hbDrop := 3 :: d }

/-- Cycle digests differ, or the other partner made a commit that this one did not make (R381). -/
def digestMismatch (n : Nat) (lt : Tick) (s : State) : State :=
  let s := { s with red.digestMis := satInc s.red.digestMis }
  let d := beBytes 1 n ++ beBytes 6 lt.toNat
  if s.red.role = 3 then toWarm 0x0905 5 d s
  else if s.red.role = 1 then dropStandby 1 (accession 0 0x0905 5 d s)
  else s

/-- Compare the digests received with the own ones (R381): those that match are done with. -/
def compareDigests (s : State) : State :=
  s.red.peerDig.foldl (fun s e =>
    if s.red.ownDig.any fun o => o = e then s else digestMismatch e.1 e.2.1 s) { s with red.peerDig := [] }

/-- The claim epoch is set and saved in its twin record (R371). -/
def setEpoch (e : BitVec 16) (s : State) : State := twinWrite 3 (.epoch e) { s with red.epoch := e }

/-- Whether epoch a is higher than epoch b (R371). -/
def epochHigher (a b : BitVec 16) : Bool :=
  let d := (a - b).toNat
  decide (1 ≤ d ∧ d ≤ 32767) || decide (d = 32768 ∧ b.toNat < a.toNat)

/-- The module drives ACT_N low (R364). -/
def driveAct (s : State) : State := { s with red.actDrv := true, red.actIn := false }
/-- The module releases ACT_N, which stays low while the other partner is active (R364, R398). -/
def releaseAct (s : State) : State :=
  { s with red.actDrv := false, red.actIn := s.red.actIn || (s.red.actDrv && s.red.peerRole ≠ 1) }

/-- Both paths are lost (R382). -/
def pathsLost (s : State) : Bool := !s.red.pathSync && !s.red.pathHb

/-- The cause for which R370 bars a partner: an enabled background task, or different replica-determinism versions. -/
def barred (s : State) : Option Byte :=
  if enabledBackground s then some 1
  else if s.red.rdvMis then some 2 else none

/-- A refusal under R370 names its cause. [Log: DESIGN CHOICE, unsafe, entry 77.] -/
def pairBarred (cause : Byte) (s : State) : State := accession 0 0x0902 4 [cause] s

/-- The module's HEARTBEAT (R373, R382). -/
def ownHeartbeat (relinquish fatal : Bool) (s : State) : Heartbeat :=
  { role := s.red.role, relinquish := relinquish, fatal := fatal, epoch := s.red.epoch, rdv := ownRdv s,
    digest := (activeBank s).digest.setWidth 32 }

/-- A HEARTBEAT on the sync link where `sync` holds, and on the HB pair where `hb` holds (R382). -/
def sendHeartbeat (sync hb relinquish fatal : Bool) (s : State) : State :=
  let b := heartbeatBytes (ownHeartbeat relinquish fatal s)
  let t := s.tsk.tick.toNat
  let s := if sync then sendSync false 0x01 t b s else s
  if hb then sendSync true 0x01 t b s else s

/-- A HEARTBEAT at once on both paths, on the HB pair if this partner may drive it now (R365, R385). -/
def bothHeartbeats (relinquish fatal : Bool) (s : State) : State := sendHeartbeat true (inSlot s) relinquish fatal s

/-! ## Input sources (R376) -/

/-- Points that a source writes: whether words, first address, number. -/
abbrev Span := Bool × Nat × Nat

/-- The points of a mailbox (R226). -/
def mboxSpan (x : Ser) : List Span := match mboxOf x with | some a => [(true, a.toNat, 89)] | none => []

/-- The points that source k writes. -/
def sourceSpans (s : State) (k : Nat) : List Span :=
  if k < 8 then
    s.ports.fld.nodes.flatMap fun n => match n.2.entry with
      | some e => if e.port.toNat = k then
          [(false, e.inBitBase.toNat, e.inBits.toNat), (true, e.inWordBase.toNat, e.inWords.toNat)] else []
      | none => []
  else if k < 10 then
    let x := ser s (k - 8)
    (match x.rs485 with
     | none => []
     | some c =>
       if c.master then
         c.txs.filterMap fun t => if isRead t.fn.toNat then some (decide (3 ≤ t.fn.toNat), t.wordBase.toNat, t.count.toNat) else none
       else [(false, (slaveTable c 0).2, (slaveTable c 0).1), (true, (slaveTable c 2).2, (slaveTable c 2).1)]) ++ mboxSpan x
  else if k < 12 then
    (s.ports.meters.flatMap fun e => match e.2 with
      | some m => if (if m.port then 1 else 0) = k - 10 then
          (m.sels.map fun x => (true, x.target.toNat, if x.long then 2 else 1)) ++
          (match m.status with | some a => [(true, a.toNat, 1)] | none => []) else []
      | none => []) ++ mboxSpan (ser s (k - 8))
  else if k < 14 then
    let x := ser s (k - 8)
    (match x.can with
     | some c => c.rx.map fun o => (o.word, o.base.toNat, o.count.toNat)
     | none => []) ++ mboxSpan x
  else
    s.pas.subs.filterMap fun b =>
      match Tab.get none s.pas.known (64 * b.2.member.toNat + b.2.region.toNat) with
      | some (w, n) => if b.2.valid then some (w, b.2.base.toNat, n.toNat) else none
      | none => none

/-- The addresses of one space that a source writes, ascending and without repeats. -/
def sourceAddrs (word : Bool) (l : List Span) : List Nat :=
  (l.filter fun x => x.1 = word).foldl (fun m x => (List.range x.2.2).foldl (fun m i =>
    if m.contains (x.2.1 + i) then m else insertAsc (x.2.1 + i) m) m) []

/-- Whether source k is enabled. -/
def sourceOn (s : State) (k : Nat) : Bool :=
  if k < 8 then enabled s 0x10 k else if k < 14 then serEnabled s (k - 8) else inBasin s

/-- The latched bytes of source k in ascending image address: its bits packed, then its words. -/
def sourceBytes (s : State) (k : Nat) : List Byte :=
  let l := sourceSpans s k
  packPoints ((sourceAddrs false l).map fun a => Tab.get false s.tsk.bits a) ((sourceAddrs true l).map fun a => Tab.get 0 s.tsk.words a)

/-- The digest of source k as latched (R376). [Log: DEDUCED, unsafe, entry 71.] -/
def sourceDigest (s : State) (k : Nat) : BitVec 64 := if sourceOn s k then crc64 (sourceBytes s k) else 0

/-- The points of source k with the values that its bytes give them. -/
def sourcePoints (s : State) (k : Nat) (data : List Byte) : List (Nat × Bool) × List (Nat × W24) :=
  let l := sourceSpans s k
  let ba := sourceAddrs false l
  let wa := sourceAddrs true l
  let nb := (ba.length + 7) / 8
  (ba.zip (unpackBits (data.take nb)), wa.zip (words3 (data.drop nb)))

/-! ## The record of a tick (R375) -/

/-- The event tasks released at the present tick (R375). -/
def eventReleases (s : State) : W32 :=
  BitVec.ofNat 32 (bitMap 32 fun n => released (task s n) && (task s n).lt = s.tsk.tick && kindOf (relDef s n) = 1)

/-- FLAGS of a record (R375). [Log: DEDUCED, unsafe, entry 79.] -/
def recordFlags (s : State) : BitVec 16 := BitVec.ofNat 16 (b01 s.tsk.locked + bitAt (s.tsk.todFlags.getLsbD 0) 1 + bitAt s.bkd.osf 2)

/-- The record of the present tick with its items. [Log: DEDUCED, unsafe, entry 72.] -/
def recordBody (items : List RecItem) (s : State) : RecordBody :=
  { flags := recordFlags s, tod := s.tsk.tod, di := s.dio.inp, evt := eventReleases s,
    digests := (List.range 15).map (sourceDigest s),
    items := items ++ [.gpio (BitVec.ofNat 8 (bitMap 6 fun p => enabled s 0x25 p && (gpio s p).dir = 0 && Tab.get false s.tsk.inBits (gpio s p).bit.toNat))] }

/-- RECORD_SEND: the active partner with a standby in step, or one that joins, sends the record of the tick after its
latch (R375, R388, R393). -/
def sendRecord (items : List RecItem) (s : State) : State :=
  let on := s.red.role = 1 && s.red.syncUp && !s.red.syncMgmt &&
    (s.red.peerRole = 3 || (s.red.peerRole = 2 && joinedBy s.tsk.tick.toNat s))
  if on then
    sendSync false 0x02 s.tsk.tick.toNat (recordBytes (recordBody items s)) { s with
      red.lastRecord := s.tsk.tick, red.items := [],
      red.hist := ((s.tsk.tick.toNat, (List.range 15).map (sourceBytes s)) :: s.red.hist).take 8 }
  else { s with red.items := [] }

end Sys2Proof.Machine
end

