-- ==== Sys2Proof/Machine/Settings.lean ====
section
/-! DEFINITION. The settings blocks of FEATURE_CONFIG with their checks (R69, R226, R316, R401, R403, R407, R415 to R423,
R428, R430 to R432), and what enabling and disabling a feature starts and ends. -/

namespace Sys2Proof.Machine

/-- The lowest status of a list of checks, each a status that holds when its check fails (R617); 0 when none does. -/
def firstStatus : List (BitVec 16 × Bool) → BitVec 16
  | [] => 0
  | (st, ok) :: t =>
    let r := firstStatus t
    if ok then r else if r = 0 ∨ st.toNat < r.toNat then st else r

/-- A number within a range. -/
def within (lo hi v : Nat) : Bool := decide (lo ≤ v ∧ v ≤ hi)

/-- A mapping of bits or words lies wholly in regions of a class (R69). -/
def mapped (s : State) (word : Bool) (cls base n : Nat) : Bool := if word then wordsIn s cls base n else bitsIn s cls base n

/-- A mailbox lies in INPUT regions (R226). -/
def mboxOk (s : State) (m : Option W24) : Bool := match m with | some a => wordsIn s 1 a.toNat 89 | none => true

/-! ## Plainline (R407) -/

/-- The OUTPUT owners of a node's output points. -/
def nodeOwners (s : State) (e : PlNode) : List Nat :=
  ownersOf s.prog.bitReg 64 e.outBitBase.toNat e.outBits.toNat ++ ownersOf s.prog.wordReg 8 e.outWordBase.toNat e.outWords.toNat

/-- Sizes within R406. -/
def plSize (bits words : Nat) : Bool := decide ((bits + 7) / 8 + 3 * words ≤ 1480)

/-- The checks of a node entry against the table (R407). -/
def nodeStatus (s : State) (e : PlNode) : BitVec 16 :=
  let owners := nodeOwners s e
  let clash := s.ports.fld.nodes.any fun n => match n.2.entry with
    | some o => n.1 ≠ e.node.toNat && o.port = e.port && o.mac = e.mac
    | none => false
  firstStatus [
    (0x10, decide (e.port.toNat ≤ 7) && !(e.flags.getLsbD 1 && e.port.getLsbD 0)),
    (0x10, decide (e.group.toNat ≤ 3 ∨ e.group = 0xFF)),
    (0x10, plSize e.outBits.toNat e.outWords.toNat && plSize e.inBits.toNat e.inWords.toNat),
    (0x10, within 10 1000000 e.poll.toNat && within 3 1000 e.resp.toNat && e.lossLimit ≠ 0 && within 1 1000 e.hold.toNat),
    (0x10, !clash),
    (0x302, bitsIn s 1 e.inBitBase.toNat e.inBits.toNat && wordsIn s 1 e.inWordBase.toNat e.inWords.toNat),
    (0x302, bitsIn s 2 e.outBitBase.toNat e.outBits.toNat && wordsIn s 2 e.outWordBase.toNat e.outWords.toNat),
    (0x302, owners.all fun k => owners.head? = some k)]

/-- Write one node entry; an entry that is not VALID leaves its node unused. -/
def putNode (e : PlNode) (s : State) : BitVec 16 × State :=
  if e.node.toNat ≥ 4096 then (0x10, s)
  else if !e.flags.getLsbD 0 then (0, { s with ports.fld.nodes := Tab.set {} s.ports.fld.nodes e.node.toNat {} })
  else
    let st := nodeStatus s e
    if st ≠ 0 then (st, s)
    else (0, updNode e.node.toNat (fun _ => { entry := some e, owner := (nodeOwners s e).head?, st := .cfg }) s)

/-- The entries of one block: every entry is checked against the table as the entries before it leave it, and the lowest
status of the block refuses the whole. A NODE may stand once in a block. -/
def putNodes (l : List PlNode) (s : State) : BitVec 16 × State :=
  let r := l.foldl (fun (x : BitVec 16 × State) e =>
    let y := putNode e x.2
    (if x.1 = 0 ∨ (y.1 ≠ 0 ∧ y.1.toNat < x.1.toNat) then y.1 else x.1, y.2)) (0, s)
  let twice := decide ((l.map (·.node)).eraseDups.length ≠ l.length)
  if twice then (0x10, s) else if r.1 ≠ 0 then (r.1, s) else r

/-! ## Serial-class ports -/

/-- The counts that a function code takes (R416): one item, or as many as the count holds; the manual sets no other limit (R612).
[Log: DESIGN CHOICE, unsafe, entry 258.] -/
def modbusMax (fn : Nat) : Nat :=
  match fn with
  | 1 | 2 | 3 | 4 | 15 | 16 => 65535 | 5 | 6 => 1 | _ => 0

/-- The checks of a master transaction (R417). -/
def txStatus (s : State) (t : ModbusTx) : BitVec 16 :=
  let fn := t.fn.toNat
  let word := fn = 3 ∨ fn = 4 ∨ fn = 6 ∨ fn = 16
  firstStatus [
    (0x10, decide (t.slave.toNat ≤ 247) && (t.slave ≠ 0 || !isRead fn)),
    (0x10, within 1 (modbusMax fn) t.count.toNat),
    (0x10, if t.onCommit then !isRead fn else within 10 1000000 t.period.toNat),
    (0x302, mapped s word (if isRead fn then 1 else 2) t.wordBase.toNat t.count.toNat)]

/-- The checks of an RS-485 port's settings (R415 to R418, R226). -/
def rs485Status (s : State) (c : Rs485Cfg) : BitVec 16 :=
  let tab := fun (k : Nat) => slaveTable c k
  firstStatus ([
    (0x10, within 1200 1000000 c.baud.toNat && decide (c.parity.toNat ≤ 2)),
    (0x302, mboxOk s c.mbox)] ++
    if c.master then
      [(0x10, within 1 1000 c.timeoutMs.toNat && decide (c.txs.length ≤ 64))] ++
      c.txs.map fun t => (txStatus s t, decide (txStatus s t = 0))
    else
      [(0x10, within 1 247 c.unitAddr.toNat && decide (c.slaveTables.length ≤ 4) && c.slaveTables.all fun t => decide (t.1.toNat ≤ 2048)),
       (0x302, bitsIn s 1 (tab 0).2 (tab 0).1 && bitsIn s 2 (tab 1).2 (tab 1).1 && wordsIn s 1 (tab 2).2 (tab 2).1 && wordsIn s 2 (tab 3).2 (tab 3).1)])

/-- The checks of a meter entry of M-Bus port `inst` (R419 to R421). -/
def meterStatus (s : State) (inst : Nat) (m : MbusMeter) : BitVec 16 :=
  firstStatus [
    (0x10, decide ((if m.port then 1 else 0) = inst) && (m.secondary.isSome || within 1 250 m.primary.toNat) &&
           within 10 86400 m.period.toNat && decide (m.sels.length ≤ 8)),
    (0x10, m.sels.all fun x => decide (-9 ≤ x.shift ∧ x.shift ≤ 9)),
    (0x302, (m.sels.all fun x => wordsIn s 1 x.target.toNat (if x.long then 2 else 1)) &&
            (match m.status with | some a => wordsIn s 1 a.toNat 1 | none => true))]

/-- The checks of an M-Bus port's settings. -/
def mbusStatus (s : State) (inst : Nat) (c : MbusCfg) : BitVec 16 :=
  firstStatus ([
    (0x10, decide (c.baud.toNat = 300 ∨ c.baud.toNat = 2400 ∨ c.baud.toNat = 9600)),
    (0x302, mboxOk s c.mbox)] ++ c.meters.map fun m => (meterStatus s inst m, decide (meterStatus s inst m = 0)))

/-- Payload bytes that a mapping of `n` points fills. -/
def payload (word : Bool) (n : Nat) : Nat := if word then 3 * n else (n + 7) / 8

/-- The checks of a CAN FD port's settings (R422, R423, R226). -/
def canStatus (s : State) (c : CanCfg) : BitVec 16 :=
  firstStatus ([
    (0x10, within 10000 1000000 c.nominal.toNat && decide (c.dataRate.toNat ≤ 5000000)),
    (0x10, decide (c.rx.length ≤ 64 ∧ c.tx.length ≤ 32)),
    (0x302, mboxOk s c.mbox)] ++
    (c.rx.flatMap fun o => [
      (0x10, (o.ext || decide (o.ident.toNat < 2048)) && decide (payload o.word o.count.toNat ≤ 64)),
      (0x302, mapped s o.word 1 o.base.toNat o.count.toNat)]) ++
    (c.tx.flatMap fun o => [
      (0x10, (o.ext || decide (o.ident.toNat < 2048)) && (o.fdf || decide (o.dlc.toNat ≤ 8 ∧ !o.brs)) &&
             decide (payload o.word o.count.toNat ≤ canLens.getD o.dlc.toNat 0)),
      (0x10, o.onCommit || within 10 1000000 o.period.toNat),
      (0x302, mapped s o.word 2 o.base.toNat o.count.toNat)]))

/-! ## Writing a settings block -/

/-- A block that fits its feature is checked and written. -/
def writeBlock (inst : Nat) (st : Settings) (s : State) : BitVec 16 × State :=
  let put := fun (e : BitVec 16) (s' : State) => if e = 0 then (0#16, s') else (e, s)
  match st with
  | .plGroups g => put 0 { s with ports.fld.groups := g }
  | .plNodes l => putNodes l s
  | .plKind _ => (0x10, s)
  | .plClear => put 0 { s with ports.fld.nodes := [] }
  | .fieldEth c =>
    put (firstStatus [
        (0x10, decide (c.gates.length ≤ 128) && c.gates.all fun g => g.2 ≠ 0),
        (0x10, c.gates.isEmpty || within 10000 1000000000 c.cycleNs.toNat)])
      (updPort inst (fun f => { f with prio1 := c.priority1, gatesNext := some (c.gates, c.cycleNs, c.startTick) }) s)
  | .rs485 c => put (rs485Status s c) (updSer inst (fun x => { x with rs485 := some c, mbox := c.mbox }) s)
  | .mbus c =>
    let s1 := updSer (2 + inst) (fun x => { x with mbus := some c, mbox := c.mbox }) s
    put (mbusStatus s inst c) { s1 with ports.meters := c.meters.foldl (fun t m => Tab.set none t m.index.toNat (some m)) s.ports.meters }
  | .can c => put (canStatus s c) (updSer (4 + inst) (fun x => { x with can := some c, mbox := c.mbox }) s)
  | .timebase tin pps flags width =>
    let pin := fun (p : Byte) => decide (p.toNat ≤ 5 ∨ p = 0xFF)
    put (firstStatus [(0x10, pin tin && pin pps && (tin ≠ pps || tin = 0xFF) && within 1 500000 width.toNat)])
      { s with ports.tinPin := tin, ports.ppsPin := pps, ports.tbFlags := flags, ports.ppsWidth := width }
  | .castPin pin => put (firstStatus [(0x10, decide (pin.toNat ≤ 5))]) { s with cast.pinSel := pin.setWidth 3 }
  | .gpio dir filter bit =>
    put (firstStatus [
        (0x10, decide (dir.toNat ≤ 2 ∧ filter.toNat ≤ 15)),
        (0x302, bitsIn s (if dir = 0 then 1 else 2) bit.toNat 1)])
      { s with ports.gpio := Tab.upd {} s.ports.gpio inst fun g => { g with dir := dir, filter := filter, bit := bit } }
  | .userCrc addr count =>
    put (firstStatus [(0x10, within 1 1048576 count.toNat)]) (updCrc inst (fun c => { c with addr := addr, count := count }) s)
  | .empty | .malformed => (0, s)

/-- Whether a settings block is one of the feature with this code (R303). -/
def blockFits : Nat → Settings → Bool
  | 0x10, .fieldEth _ | 0x11, .plGroups _ | 0x11, .plNodes _ | 0x11, .plClear | 0x11, .plKind _ | 0x12, .rs485 _ | 0x13, .mbus _
  | 0x14, .can _ | 0x20, .timebase .. | 0x21, .castPin _ | 0x24, .empty | 0x25, .gpio .. | 0x26, .userCrc .. => true
  | 0x11, .empty => false
  | _, _ => false

/-- Codes and instances that the ports group refuses (R316). -/
def featureKnown (code inst : Nat) : Bool := decide (inst < featureCount code)
/-- Codes that FEATURE_CONFIG, FEATURE_ENABLE and FEATURE_DISABLE refuse besides (R316). -/
def featureFree (code : Nat) : Bool := decide (3 < code) && code ≠ 0x22 && code ≠ 0x23

/-- FEATURE_CONFIG (R316): a status and the new state. A run of USER_CRC is named before it is enabled (R428). [Log: DEDUCED, unsafe, entry 105; DEDUCED, unsafe, entry 108; DEDUCED, unsafe, entry 109.] -/
def applySettings (code inst : Nat) (st : Settings) (s : State) : BitVec 16 × State :=
  if featureCount code ≠ 0 ∧ featureFree code ∧ !blockFits code st then (0x01, s)
  else if !featureKnown code inst ∨ !featureFree code then (0x10, s)
  else
    let r := writeBlock inst st s
    if r.1 = 0x10 then (0x10, s)
    else if enabled s code inst then (0x11, s)
    else if r.1 ≠ 0 then (r.1, s)
    else (0, touchSettings r.2)

/-! ## What enabling and disabling does -/

/-- The serial port of a feature code and instance. -/
def serOfFeature (code inst : Nat) : Option Nat :=
  match code with
  | 0x12 => some inst | 0x13 => some (2 + inst) | 0x14 => some (4 + inst) | _ => none

/-- A feature instance has been enabled by command or at start-up (R411, R419, R421, R423, R428). -/
def afterEnable (code inst : Nat) (s : State) : State :=
  match code with
  | 0x11 => startPlainline s
  | 0x13 => updSer (2 + inst) (fun x => { x with busEn := true, overCur := false }) s
  | 0x14 => busRecover (4 + inst) s
  | 0x26 => startUserCrc inst s
  | _ => s

/-- A feature instance has been disabled: its work ends. Messages that wait are not sent (R225, R226). -/
def afterDisable (code inst : Nat) (s : State) : State :=
  match code with
  | 0x11 => stopPlainline s
  | 0x12 | 0x13 | 0x14 =>
    match serOfFeature code inst with
    | some q => updSer q (fun x =>
        let cur : List PortMsg := match x.job with | some (.message m) => [m] | _ => []
        { x with closing := x.closing ++ (cur ++ x.queue).map (fun m => (m, 3)), queue := [], job := none, due := [],
                 txQueue := [], busEn := false }) s
    | none => s
  | 0x20 => { s with ports.tinUp := false }
  | 0x25 => { s with ports.gpio := Tab.upd {} s.ports.gpio inst fun g => { g with run := 0, level := false, cand := false, out := false } }
  | 0x26 => updCrc inst (fun c => { c with busy := false }) s
  | _ => s

/-- Claim and enable a feature instance with what it starts; the contested resource when it is refused. An instance that is
enabled is left as it is (R32). [Log: DEDUCED, unsafe, entry 106; DEDUCED, unsafe, entry 107.] -/
def enableFeature (code inst : Nat) (s : State) : State × Option Nat :=
  if enabled s code inst then (s, none)
  else
    let r := claimFeature code inst s
    match r.2 with
    | some n => (r.1, some n)
    | none => (afterEnable code inst r.1, none)

/-- Disable a feature instance with what that ends. -/
def disableFeature (code inst : Nat) (s : State) : State :=
  if enabled s code inst then releaseFeature code inst (afterDisable code inst s) else s

/-- What the default enables start at start-up (R41). -/
def startEnabled (s : State) : State :=
  featureOrder.foldl (fun s f => if enabled s f.1 f.2 then afterEnable f.1 f.2 s else s) s

end Sys2Proof.Machine
end

