-- ==== Sys2Proof/Machine/LocalIo.lean ====
section
/-! DEFINITION. The barrier, the local inputs and outputs and the safety monitor (chapter 11, R439 to R471). -/

namespace Sys2Proof.Machine

/-- A map of eight or sixteen channels from a predicate. -/
def chanMap (w n : Nat) (p : Nat → Bool) : BitVec w := BitVec.ofNat w (bitMap n p)

/-! ## The I/O die -/

/-- Barrier versions of the module (R49). [Log: DEDUCED, unsafe, entry 101.] -/
def barrierRanges : List VerRange := [(1, 0, 1)]

/-- The I/O die commands its outputs: a changed channel's readback counts its slots anew, from 1 ms after the change (R457), and SHORT and
THERMAL of a channel that is commanded off clear. [Log: DEDUCED, unsafe, entry 98.] -/
def commandOutputs (out : Byte) (d : Iod) : Iod :=
  let diff := d.out ^^^ out
  { d with out := out, short := d.short &&& out, thermal := d.thermal &&& out,
           misRun := (List.range 8).foldl (fun t i => if diff.getLsbD i then Tab.set 0 t i 0 else t) d.misRun,
           changed := (List.range 8).foldl (fun t i => if diff.getLsbD i then Tab.set 0 t i (d.slot + 20) else t) d.changed }

/-- Step 3 of start-up (R54, R446): FEN and the I/O die adopt the highest barrier version in common; without one the
barrier is in management-only mode: outputs off, and both channels with the SILENCE cause. -/
def negotiateBarrier (s : State) : State :=
  if !s.iod.powered then s
  else match negotiate barrierRanges s.sys.env.iod with
    | some (a, b) =>
      let v := BitVec.ofNat 8 (16 * a + b)
      { s with dio.version := v, dio.mgmt := false, iod.ver := v }
    | none => { s with dio.version := 0, dio.mgmt := true, iod := { commandOutputs 0 s.iod with
        ver := 0, silent := true, ch1 := { s.iod.ch1 with silence := true }, ch2 := { s.iod.ch2 with silence := true } } }

/-- Whether a frame's VER has the negotiated major (R441); without one no frame is good (R50, R446). -/
def majorOk (negotiated ver : Byte) : Bool := negotiated ≠ 0 && field ver.toNat 7 4 = field negotiated.toNat 7 4

/-- A good down frame (R441). -/
def downGood (s : State) (b : List Byte) : Bool :=
  let f := downFields b
  barrierCrcOk b && f.type = 0x51 && majorOk s.iod.ver f.ver && s.iod.lastDown ≠ some f.seq

/-- The I/O die takes a down frame (R442, R443, R455 to R457). -/
def takeDown (b : List Byte) (s : State) : State :=
  let f := downFields b
  if !s.iod.powered then s
  else if !downGood s b then { s with iod.badDown := s.iod.badDown + 1 }
  else
    let d := s.iod
    let adopt := decide (d.candGen = f.cfgGen) && decide (d.cand = f.cfg) && decide (f.cfg ≠ d.cfg)
    { s with iod := { commandOutputs f.out d with
        lastDown := some f.seq, silent := false, reqs := f.req.setWidth 2,
        candGen := f.cfgGen, cand := f.cfg, cfg := if adopt then f.cfg else d.cfg, cfgGen := if adopt then f.cfgGen else d.cfgGen } }

/-- DOWN_FRAME_RX (R442). -/
def execDownFrameRx (b : List Byte) (s : State) : Host.Outcome State Fault Refusal := .next (takeDown b s)

/-- The die's sample period in slots (R449); barrier version 1.0 has a fixed one of 250 µs (R446). -/
def iodSample (d : Iod) : Nat := if field d.ver.toNat 3 0 = 0 then 5 else (d.cfg.getD 0 5).toNat
/-- FILTER of DIi. -/
def diFilter (d : Iod) (i : Nat) : Nat := field (d.cfg.getD (2 + i) 0).toNat 7 4

/-- One sample of the inputs (R453): a channel follows after FILTER + 1 samples that agree on the new state. -/
def sampleInputs (inp : BitVec 16) (d : Iod) : Iod :=
  (List.range 16).foldl (fun d i =>
    let v := inp.getLsbD i
    if v = d.filt.getLsbD i then { d with runs := Tab.set 0 d.runs i 0 }
    else
      let n := Tab.get 0 d.runs i + 1
      if n ≥ diFilter d i + 1 then
        { d with runs := Tab.set 0 d.runs i 0, filt := d.filt ^^^ BitVec.ofNat 16 (2 ^ i) }
      else { d with runs := Tab.set 0 d.runs i n }) d

/-- The readback of the outputs at a slot (R457): three consecutive slots that differ make a mismatch; slots within 1 ms
after a change of the command do not count. -/
def readBack (rb : Byte) (d : Iod) : Iod :=
  (List.range 8).foldl (fun d i =>
    if d.slot ≤ Tab.get 0 d.changed i then d
    else if rb.getLsbD i = d.out.getLsbD i then
      { d with misRun := Tab.set 0 d.misRun i 0, mismatch := d.mismatch &&& ~~~(BitVec.ofNat 8 (2 ^ i)) }
    else
      let n := Tab.get 0 d.misRun i + 1
      { d with misRun := Tab.set 0 d.misRun i n, mismatch := if n ≥ 3 then d.mismatch ||| BitVec.ofNat 8 (2 ^ i) else d.mismatch }) { d with rb := rb }

/-- The `SAF_FAULT` code that up frames carry (R440, R471). -/
def safCode (d : Iod) : Byte := match d.fault with | some (ch, c) => BitVec.ofNat 8 (ch.toNat * 16 + c.toNat) | none => 0

/-- The up frame that the I/O die sends (R440). -/
def upFrame (s : State) : UpFrame :=
  let d := s.iod
  { type := 0x52, ver := d.ver, seq := d.upSeq, inp := d.filt, rb := d.rb, short := d.short, thermal := d.thermal,
    mismatch := d.mismatch, ioFlags := BitVec.ofNat 8 (b01 d.vdoLow + bitAt d.silenceFlag 1), cfgGen := d.cfgGen,
    safStatus := safImage s, safSwitch := safSwitches d, safFault := safCode d, ack := d.lastDown.getD 0, badDown := d.badDown }

/-- Whether the slot s of the present tick is one of those with s mod (5 × SAMPLE) = 0 (R439, R451). -/
def sampleSlot (s : State) : Bool := decide (s.tsk.tick.toNat / 5 % max 1 (iodSample s.iod) = 0)

/-- The slot of the I/O die (R439, R451, R457): it samples when the sample period says so, reads back, and sends. -/
def iodSlot (inp : IodIn) (s : State) : State :=
  if !s.iod.powered then s
  else
    let d := { s.iod with slot := s.iod.slot + 1, upSeq := s.iod.upSeq + 1 }
    let d := if sampleSlot s then sampleInputs inp.inp d else d
    let s := { s with iod := readBack inp.rb d }
    emit (.up (upBytes (upFrame s))) s

/-- IOD_SLOT (R439). -/
def execIodSlot (inp : IodIn) (s : State) : Host.Outcome State Fault Refusal := .next (iodSlot inp s)

/-- BARRIER_SILENCE (R443). -/
def execBarrierSilence (s : State) : Host.Outcome State Fault Refusal :=
  .next (if !s.iod.powered then s else { s with iod := { commandOutputs 0 s.iod with
    silent := true, silenceFlag := true,
    ch1 := { s.iod.ch1 with silence := true }, ch2 := { s.iod.ch2 with silence := true } } })

/-- VDO_LOW (R455). -/
def execVdoLow (s : State) : Host.Outcome State Fault Refusal := .next { s with iod.vdoLow := true }
/-- VDO_RECOVERY (R455). -/
def execVdoRecovery (s : State) : Host.Outcome State Fault Refusal := .next { s with iod.vdoLow := false }
/-- DO_SHORT (R455): an output limits its current only while it is commanded on. -/
def execDoShort (ch : BitVec 3) (s : State) : Host.Outcome State Fault Refusal :=
  .next (if s.iod.out.getLsbD ch.toNat then { s with iod.short := s.iod.short ||| BitVec.ofNat 8 (2 ^ ch.toNat) } else s)
/-- DO_THERMAL (R455). -/
def execDoThermal (ch : BitVec 3) (s : State) : Host.Outcome State Fault Refusal :=
  .next (if s.iod.out.getLsbD ch.toNat then { s with iod.thermal := s.iod.thermal ||| BitVec.ofNat 8 (2 ^ ch.toNat) } else s)
/-- DO_THERMAL_RETRY (R455). -/
def execDoThermalRetry (ch : BitVec 3) (s : State) : Host.Outcome State Fault Refusal :=
  .next (if s.iod.out.getLsbD ch.toNat then { s with iod.thermal := s.iod.thermal &&& ~~~(BitVec.ofNat 8 (2 ^ ch.toNat)) } else s)

/-! ## The safety monitor -/

/-- The filter time in SAF cycles (R460). -/
def filterMs (sw : Byte) : Nat := match field sw.toNat 3 2 with | 0 => 1 | 1 => 3 | _ => 10

/-- A run length that goes on or starts again. -/
def runOf (go : Bool) (n : Nat) : Nat := if go then n + 1 else 0

/-- One SAF cycle of a demand input with comparators a and b (1 energised) and a filter time of n cycles (R462). A state
that has lasted n ms has been read in n + 1 cycles. [Log: DEDUCED, unsafe, entry 97.] -/
def sdiCycle (n : Nat) (a b : Bool) (d : Sdi) : Sdi :=
  let d := { d with offA := runOf (!a) d.offA, offB := runOf (!b) d.offB, bothOn := runOf (a && b) d.bothOn,
                    bothOff := runOf (!a && !b) d.bothOff, differ := runOf (a != b) d.differ }
  let demand := if decide (n < d.offA) || decide (n < d.offB) then true else if n < d.bothOn then false else d.demand
  let discrep := if demand && decide (n + 1 < d.differ) then true else if n < d.bothOff then false else d.discrep
  { d with demand := demand, discrep := discrep }

/-- One SAF cycle of a channel (R462, R463): `en` is its EN switch, `rst` says that a valid restart pulse ends. -/
def chanCycle (en manual rst demand discrep silent req : Bool) (c : SafCh) : SafCh :=
  let need := c.restart || (manual && (demand || discrep))
  let need := need && !(!demand && !discrep && rst)
  { c with demand := demand, discrep := discrep, silence := silent, req := req, disabled := !en, restart := need,
           on := en && !demand && !discrep && !silent && !req && !c.fault && !need }

/-- A channel that stays off whatever its causes, while the self-test has not passed (R57). -/
def heldOff (dead : Bool) (c : SafCh) : SafCh := { c with on := c.on && !dead }

/-- A FAULT cause of channel 1, 2 or both (3) with its code (R464, R471). -/
def safFaultOp (ch code : Nat) (d : Iod) : Iod :=
  { d with ch1 := if ch % 2 = 1 then { d.ch1 with fault := true, on := false } else d.ch1,
           ch2 := if 2 ≤ ch then { d.ch2 with fault := true, on := false } else d.ch2,
           fault := d.fault.or (some (BitVec.ofNat 2 ch, BitVec.ofNat 4 code)) }

/-- The comparison of an output with ON (R464): a difference of more than 1 ms is a fault. -/
def stoCheck (ch : Nat) (on level : Bool) (run : Nat) (d : Iod) : Iod :=
  if run < 3 then d
  else if !on && level then { safFaultOp ch 3 d with supplyCut := true }
  else safFaultOp ch 2 d

/-- A SAF cycle (R459, R462 to R464). -/
def safCycle (inp : SafIn) (d : Iod) : Iod :=
  let n := filterMs d.inForce
  let sdi1 := sdiCycle n (inp.sdi.getLsbD 0) (inp.sdi.getLsbD 1) d.sdi1
  let sdi2 := sdiCycle n (inp.sdi.getLsbD 2) (inp.sdi.getLsbD 3) d.sdi2
  let link := d.inForce.getLsbD 5
  let manual := d.inForce.getLsbD 4
  let pulse := d.rstIn && !inp.rst && decide (100 ≤ d.rstHigh ∧ d.rstHigh ≤ 5000)
  let d1 := sdi1.demand
  let d2 := sdi2.demand || (link && sdi1.demand)
  let x2 := sdi2.discrep || (link && sdi1.discrep)
  let run1 := runOf (d.ch1.on != inp.sto.getLsbD 0) d.rbDiff1
  let run2 := runOf (d.ch2.on != inp.sto.getLsbD 1) d.rbDiff2
  let d := stoCheck 2 d.ch2.on (inp.sto.getLsbD 1) run2 (stoCheck 1 d.ch1.on (inp.sto.getLsbD 0) run1 d)
  let begun := b01 (d1 && !d.ch1.demand) + b01 (d2 && !d.ch2.demand)
  let dead := d.selfFail || !d.selfDone
  { d with
    sdi1 := sdi1, sdi2 := sdi2, sdiNow := inp.sdi, rstIn := inp.rst, rstHigh := if inp.rst then d.rstHigh + 1 else 0,
    rbDiff1 := run1, rbDiff2 := run2, demands := d.demands + begun,
    ch1 := heldOff dead (chanCycle (d.inForce.getLsbD 0) manual pulse d1 sdi1.discrep d.silent (d.reqs.getLsbD 0) d.ch1),
    ch2 := heldOff dead (chanCycle (d.inForce.getLsbD 1) manual pulse d2 x2 d.silent (d.reqs.getLsbD 1) d.ch2) }

/-- SAF_CYCLE (R463). -/
def execSafCycle (inp : SafIn) (s : State) : Host.Outcome State Fault Refusal :=
  .next (if s.iod.powered then { s with iod := safCycle inp s.iod } else s)

/-- DARK_PULSE_TEST (R464). -/
def execDarkPulseTest (ch2 offSeen onSeen : Bool) (s : State) : Host.Outcome State Fault Refusal :=
  let on := if ch2 then s.iod.ch2.on else s.iod.ch1.on
  .next (if !s.iod.powered ∨ !on then s
    else if offSeen && onSeen then { s with iod.darkPass := s.iod.darkPass + 1 }
    else
      let d := safFaultOp (if ch2 then 2 else 1) 1 s.iod
      { s with iod := { d with supplyCut := d.supplyCut || !offSeen } })

/-- A reading of the switch bank (R461); the self-test reads its own, and until it ends none is in force (R469). -/
def readSwitches (sw : Byte) (d : Iod) : Iod :=
  let d := { d with now := sw }
  if d.testing then d
  else if (sw ^^^ d.inForce) &&& 0xBF#8 = 0 then d else { safFaultOp 3 5 d with cfgChanged := true }

/-- SWITCH_BANK_READ (R461). -/
def execSwitchBankRead (switches : Byte) (s : State) : Host.Outcome State Fault Refusal :=
  .next (if s.iod.powered then { s with iod := readSwitches switches s.iod } else s)

/-- A demand input whose comparators show a and b all through the self-test, which is longer than any filter time (R54, R462). -/
def sdiHeld (a b : Bool) : Sdi :=
  let run := fun (go : Bool) => if go then 11 else 0
  { offA := run (!a), offB := run (!b), bothOn := run (a && b), bothOff := run (!a && !b), differ := run (a != b),
    demand := !(a && b), discrep := a != b }

/-- The self-test of SAF (R57, R461 to R463): a failure stands until a power-on reset with a passing test. The demand
inputs show `sdi` while it runs. [Log: DEDUCED, unsafe, entry 100; DEDUCED, unsafe, entry 229.] -/
def safSelfTest (ok : Bool) (sw : Byte) (sdi : BitVec 4) (d : Iod) : Iod :=
  let pass := ok && decide (field sw.toNat 3 2 ≠ 3) && !sw.getLsbD 7 && !d.selfFail
  let ch : SafCh := { restart := sw.getLsbD 4 }
  let in1 := sdiHeld (sdi.getLsbD 0) (sdi.getLsbD 1)
  let in2 := sdiHeld (sdi.getLsbD 2) (sdi.getLsbD 3)
  let link := sw.getLsbD 5
  let ch1 : SafCh := { ch with disabled := !sw.getLsbD 0, silence := d.silent, demand := in1.demand, discrep := in1.discrep }
  let d2 := in2.demand || (link && in1.demand)
  let x2 := in2.discrep || (link && in1.discrep)
  let ch2 : SafCh := { ch with disabled := !sw.getLsbD 1, silence := d.silent, demand := d2, discrep := x2 }
  { d with ch1 := ch1, ch2 := ch2, demands := d.demands + (b01 (in1.demand && !d.ch1.demand) + b01 (d2 && !d.ch2.demand)),
           sdi1 := in1, sdi2 := in2, sdiNow := sdi, now := sw, inForce := sw, testing := false, selfFail := !pass, selfDone := pass, cfgChanged := false,
           fault := if pass then none else some (3, 4), rbDiff1 := 0, rbDiff2 := 0, supplyCut := false, rstHigh := 0 }

/-- SAF restarts with the outputs off and both channels in torque off until its self-test has passed (R444, R57, R469). -/
def safRestart (d : Iod) : Iod :=
  { commandOutputs 0 d with ch1 := { d.ch1 with on := false }, ch2 := { d.ch2 with on := false }, testing := true, selfDone := false,
                            cfgChanged := false, fault := none }

/-- The reset pattern (R444): outputs off, and SAF restarts with its self-test. -/
def resetPattern (ok : Bool) (sw : Byte) (sdi : BitVec 4) (d : Iod) : Iod := safSelfTest ok sw sdi (safRestart d)

/-- RESET_PATTERN (R444): the test's outcome, the switches and the demand inputs are those of the last start-up and readings. While the module is
held in reset for its supply, the self-test waits for step 4 of the start-up that ends it (R54, R61). -/
def execResetPattern (s : State) : Host.Outcome State Fault Refusal :=
  .next (if !s.iod.powered then s
    else if s.sys.boot = .off then { s with iod := safRestart s.iod }
    else { s with iod := resetPattern s.sys.env.safOk s.iod.now s.iod.sdiNow s.iod })

/-! ## The logic side -/

/-- Whether FEN's barrier engine runs: past the boot ROM and awake. -/
def barrierRuns (s : State) : Bool := supRuns s

/-- CFG of the down frame (R449). -/
def cfgBytes (c : DioCfg) : List Byte := [c.sample, c.silence] ++ c.di ++ [0, 0]

/-- Whether DO0 to DO7 are driven (R61, R367, R446, R449). -/
def doOn (s : State) : Bool := s.dio.cfg.flags.getLsbD 1 && s.dio.outOk && !standby s && !s.dio.mgmt

/-- The down frame of a slot (R440, R450, R458): DO and REQ as they stood after the commits of the edge before. -/
def downFrame (s : State) : DownFrame :=
  { type := 0x51, ver := s.dio.version, seq := s.dio.downSeq, out := if doOn s then s.dio.outBuf else 0,
    req := if s.dio.cfg.flags.getLsbD 1 then s.dio.reqOut.setWidth 8 else 0, cfgGen := s.dio.cfgGen, cfg := cfgBytes s.dio.cfg }

/-- A down frame is sent. -/
def sendDown (s : State) : State :=
  let s := { s with dio.downSeq := s.dio.downSeq + 1 }
  let f := downFrame s
  emit (.down (downBytes f)) { s with dio.outSent := f.out, dio.reqSent := f.req.setWidth 2 }

/-- BARRIER_SLOT (R439): a slot is a tick edge whose count modulo 5 is 0. -/
def execBarrierSlot (s : State) : Host.Outcome State Fault Refusal :=
  .next (if barrierRuns s ∧ s.tsk.tick.toNat % 5 = 0 then sendDown s else s)

/-- The buffers of the barrier engine at a tick edge, before its commits: what the edge before left, and settings that
wait (R449, R450). -/
def dioEdge (s : State) : State :=
  let s := match s.dio.cfgNext with
    | some c => { s with dio.cfg := c, dio.cfgNext := none, dio.cfgGen := s.dio.cfgGen + 1 }
    | none => s
  { s with dio.outBuf := chanMap 8 8 fun i => Tab.get false s.tsk.outBits (s.dio.cfg.outBase.toNat + i), dio.reqOut := s.dio.reqBuf }

/-- A bit point as the commits of its owner last gave it (R450). -/
def ownerBit (a : Nat) (s : State) : Bool := (Tab.get none s.tsk.hostOver a).getD (Tab.get false s.tsk.bits a)

/-- The commits of the tasks `done` give REQ where the owner of the output record is among them (R450, R465). -/
def reqCommit (done : List Nat) (s : State) : State :=
  let b := s.dio.cfg.outBase.toNat
  if s.dio.cfg.flags.getLsbD 1 && (ownersOf s.prog.bitReg 64 b 16).any (fun k => done.contains k) then
    { s with dio.reqBuf := chanMap 2 2 fun i => ownerBit (b + 8 + i) s }
  else s

/-- A good up frame (R441). -/
def upGood (s : State) (b : List Byte) : Bool :=
  let f := upFields b
  barrierCrcOk b && f.type = 0x52 && majorOk s.dio.version f.ver && s.dio.lastUp ≠ some f.seq

/-- An accession for each channel that a map newly shows. -/
def newBits (code : Nat) (was now : Byte) (s : State) : State :=
  (List.range 8).foldl (fun s i => if now.getLsbD i && !was.getLsbD i then accession 3 code 4 [BitVec.ofNat 8 i] s else s) s

/-- The number of channels that a map newly shows. -/
def newCount (was now : Byte) : Nat := ((List.range 8).filter fun i => now.getLsbD i && !was.getLsbD i).length

/-- Accessions of the safety monitor for what a new image shows (R57, R461, R464): a switch change has its own, and the FAULT that it
puts both channels in has none beside it. -/
def safNews (was now : W32) (s : State) : State :=
  let up := fun (i : Nat) => now.getLsbD i && !was.getLsbD i
  let s := if up 31 then accession 4 0x0B06 7 [] s else s
  let s := if up 29 then accession 4 0x0B07 6 [] s else s
  let s := (List.range 2).foldl (fun s k => if up (8 * k + 5) && !up 29 then accession 4 0x0B08 7 [BitVec.ofNat 8 (k + 1)] s else s) s
  let s := (List.range 2).foldl (fun s k => if up (8 * k + 4) then accession 4 0x0B09 5 [BitVec.ofNat 8 (k + 1)] s else s) s
  (List.range 2).foldl (fun s k =>
    if up (8 * k + 1) then accession 4 0x0B0A 3 [BitVec.ofNat 8 (k + 1)] { s with dio.lastDemand := BitVec.ofNat 32 (s.bkd.rtc.toNat / 32768) } else s) s

/-- SDI2_DEMAND of the input record: a demand of channel 2 that is not the one LINK gives it while both comparators of SDI2 show
energised (R448, R462). [Log: DEDUCED, unsafe, entry 230.] -/
def sdi2Demand (f : UpFrame) : Bool :=
  let st := f.safStatus
  st.getLsbD 9 && !(f.safSwitch.getLsbD 5 && st.getLsbD 1 && st.getLsbD 18 && st.getLsbD 19)

/-- The input record (R448). -/
def inputRecord (f : UpFrame) : List Bool :=
  let st := f.safStatus
  (List.range 16).map (fun i => f.inp.getLsbD i) ++ (List.range 8).map (fun i => f.rb.getLsbD i) ++
  [st.getLsbD 7, st.getLsbD 15, st.getLsbD 1, sdi2Demand f,
   st.getLsbD 5 || st.getLsbD 4 || st.getLsbD 13 || st.getLsbD 12 || st.getLsbD 31, true,
   f.short ≠ 0 || f.thermal ≠ 0 || f.mismatch ≠ 0 || f.ioFlags.getLsbD 0, st.getLsbD 6 || st.getLsbD 14]

/-- Local input edges as triggers (R78, R454). -/
def inputEdges (was now : BitVec 16) (s : State) : State :=
  (List.range 16).foldl (fun s i => if was.getLsbD i = now.getLsbD i then s else raiseTrigger 1 i (now.getLsbD i) s) s

/-- A standby takes the active partner's DI from the record (R454). -/
def ownInputs (f : UpFrame) (s : State) : State :=
  let s := inputEdges s.dio.inp f.inp s
  if !s.dio.cfg.flags.getLsbD 0 then s
  else
    let b := s.dio.cfg.inBase.toNat
    if standby s then putRaw (b + 16) ((inputRecord f).drop 16) s else putRaw b (inputRecord f) s

/-- FEN takes an up frame (R441, R443, R445, R454, R457, R468, R469). [Log: DEDUCED, unsafe, entry 99.] -/
def takeUp (b : List Byte) (s : State) : State :=
  let f := upFields b
  if !upGood s b then { s with dio.upErr := satInc s.dio.upErr }
  else
    let d := s.dio
    let s := ownInputs f s
    let m := { d with
      up := true, lastUp := some f.seq, cfgGenAck := f.cfgGen,
      inp := f.inp, rb := f.rb, supplyOk := !f.ioFlags.getLsbD 0, fSupply := f.ioFlags.getLsbD 0,
      fMismatch := f.mismatch, fThermal := f.thermal, fShort := f.short,
      downErr := satAdd d.downErr (f.badDown - d.downSeen).toNat, downSeen := f.badDown,
      rbCount := satAdd d.rbCount (newCount d.fMismatch f.mismatch),
      shortCount := satAdd d.shortCount (newCount d.fShort f.short + newCount d.fThermal f.thermal),
      safStatus := f.safStatus, safSwitch := f.safSwitch,
      safFault := if f.safFault = 0 then d.safFault else BitVec.ofNat 32 (2 ^ 31 + f.safFault.toNat),
      demandCount := satAdd d.demandCount s.iod.demands, darkCount := satAdd d.darkCount s.iod.darkPass }
    let s := { s with dio := m, iod.demands := 0, iod.darkPass := 0 }
    let s := newBits 0x0B05 d.fThermal f.thermal (newBits 0x0B04 d.fShort f.short (newBits 0x0B03 d.fMismatch f.mismatch s))
    let s := safNews d.safStatus f.safStatus s
    if f.ioFlags.getLsbD 1 then
      accession 3 0x0B01 5 [] { s with dio.silenceSeen := true, dio.silenceCount := satInc s.dio.silenceCount, iod.silenceFlag := false }
    else s

/-- UP_FRAME_RX (R454). -/
def execUpFrameRx (b : List Byte) (s : State) : Host.Outcome State Fault Refusal :=
  .next (if barrierRuns s then takeUp b s else s)

/-- BARRIER_LOST (R445). -/
def barrierLost (s : State) : State :=
  if !s.dio.up then s
  else
    let s := { s with dio.up := false }
    let s := if s.dio.cfg.flags.getLsbD 0 then putRaw (s.dio.cfg.inBase.toNat + 29) [false] s else s
    accession 3 0x0B02 5 [] s

/-- BARRIER_LOST (R445). -/
def execBarrierLost (s : State) : Host.Outcome State Fault Refusal := .next (if barrierRuns s then barrierLost s else s)

/-- The settings that a DIO_CONFIG block holds (R449). -/
def parseDio (b : List Byte) : DioCfg :=
  { flags := b.getD 0 0, inBase := BitVec.ofNat 22 (beNat ((b.drop 2).take 3)), outBase := BitVec.ofNat 22 (beNat ((b.drop 5).take 3)),
    sample := b.getD 8 0, silence := b.getD 9 0, di := (b.drop 10).take 16 }

/-- DIO_CONFIG (R449): a status and the new state. -/
def dioConfigOp (b : List Byte) (s : State) : BitVec 16 × State :=
  if b.length ≠ 26 then (0x01, s)
  else
    let c := parseDio b
    let inA := beNat ((b.drop 2).take 3)
    let outA := beNat ((b.drop 5).take 3)
    let owners := ownersOf s.prog.bitReg 64 outA 16
    if c.sample = 0 ∨ c.sample.toNat > 200 ∨ c.silence = 0 ∨ c.silence.toNat > 100 then (0x10, s)
    else if (c.flags.getLsbD 0 && !bitsIn s 1 inA 32) || (c.flags.getLsbD 1 && (!bitsIn s 2 outA 16 || owners.any (fun k => owners.head? ≠ some k))) then (0x302, s)
    else (0, touchSettings { s with dio.cfgNext := some c })

end Sys2Proof.Machine
end

