-- ==== Sys2Proof/Machine/Prog.lean ====
section
/-! DEFINITION. Program images and change sets: framing (R250, R251, R309, R620), the loader (R124, R252), the rules that a
program meets (R68, R76, R77, R118, R256), and bank digests (R249). -/

namespace Sys2Proof.Machine

/-! ## Bank digests (R249) -/

/-- Multiply in GF(2)[x] modulo the polynomial of CRC-64/XZ: bits `n - 1` down to 0 of `b`. -/
def gfMul (a b : Nat) : Nat → Nat → Nat
  | 0, r => r
  | n + 1, r =>
    let d := r * 2 % 2 ^ 64
    let d := if r / 2 ^ 63 % 2 = 1 then d ^^^ 0x42F0E1EBA9EA3693 else d
    gfMul a b n (if b / 2 ^ n % 2 = 1 then d ^^^ a else d)

/-- x^(8n) modulo the polynomial, by squaring; `fuel` bounds the binary digits of `n`. -/
def gfShift : Nat → Nat → Nat → Nat → Nat
  | 0, _, _, r => r
  | fuel + 1, n, sq, r =>
    if n = 0 then r
    else gfShift fuel (n / 2) (gfMul sq sq 64 0) (if n % 2 = 1 then gfMul r sq 64 0 else r)

/-- The CRC-64/XZ register after `n` zero bytes. -/
def crcZeros (n reg : Nat) : Nat := gfMul reg (gfShift 40 n 256 1) 64 0

/-- CRC-64/XZ (R426). -/
def crc64Params : CrcParams := ⟨64, 0x42F0E1EBA9EA3693, 0xFFFFFFFFFFFFFFFF, true, true, 0xFFFFFFFFFFFFFFFF⟩

/-- Take the items of a table of `count` items of `width` bytes into the register; unlisted items are zero bytes. -/
def crcItems {α : Type} (width count : Nat) (enc : α → Nat) : Nat → Nat → Tab α → Nat
  | pos, reg, [] => crcZeros ((count - pos) * width) reg
  | pos, reg, (k, v) :: t =>
    crcItems width count enc (k + 1) ((beBytes width (enc v)).foldl (crcByte crc64Params) (crcZeros ((k - pos) * width) reg)) t

/-- The item of a task definition: its eight words (R251). [Log: DEDUCED, unsafe, entry 66.] -/
def taskItem (d : TaskDef) : Nat :=
  [d.cfg, d.period, d.deadline, d.trig, d.trap, d.fbase, d.flen, d.quota].foldl (fun a w => a * 2 ^ 32 + w.toNat) 0

/-- The item of a segment: REVOKED and RERUN taken as 0 (R249). -/
def segItem (w : W32) : Nat := if segPresent w then (w &&& 0xB7FFFFFF#32).toNat else 0

/-- The digest of a bank (R249). -/
def bankDigest (b : Bank) : BitVec 64 :=
  let r := crcItems 4 16384 segItem 0 crc64Params.init b.segs
  let r := crcItems 3 2097152 (fun w : W24 => w.toNat) 0 r b.parcels
  let r := crcItems 8 6144 (fun w : BitVec 64 => w.toNat) 0 r b.cats
  let r := crcItems 4 16 (fun w : W32 => w.toNat) 0 r b.decs
  let r := crcItems 4 1024 (fun w : W32 => w.toNat) 0 r b.ucode
  let r := crcItems 32 32 taskItem 0 r b.tasks
  BitVec.ofNat 64 (crcFinish crc64Params r)

/-! ## Framing (R250, R251, R620) -/

/-- A record of a change set or program image, with its byte offset. -/
structure Rec where
  ofs   : Nat
  type  : Nat
  index : Nat
  body  : List Byte
  deriving DecidableEq, Repr

/-- The records that bytes hold, one after another from offset `ofs`. -/
def parseRecs : Nat → Nat → List Byte → Option (List Rec)
  | 0, _, bs => if bs.isEmpty then some [] else none
  | fuel + 1, ofs, bs =>
    if bs.isEmpty then some []
    else
      let n := beNat ((bs.drop 4).take 4)
      if bs.length < 8 ∨ bs.length < 8 + n then none
      else (parseRecs fuel (ofs + 8 + n) (bs.drop (8 + n))).map fun l =>
        { ofs := ofs, type := beNat (bs.take 1), index := beNat ((bs.drop 2).take 2), body := (bs.drop 8).take n } :: l

/-- The number in bytes [a, a + n) of a body. -/
def num (b : List Byte) (a n : Nat) : Nat := beNat ((b.drop a).take n)

/-- TYPE, INDEX and BODY_LEN of a record (R251, R620); `load` admits LAYOUT (R309). -/
def recOk (load : Bool) (r : Rec) : Bool :=
  let n := r.body.length
  let owner := decide (r.index < 32) || decide (r.index = 0xFFFF)
  match r.type with
  | 0x01 => decide (r.index < 32) && decide (n = 32)
  | 0x02 => decide (r.index < 32) && decide (n = 0)
  | 0x10 => decide (r.index < 16384) && decide (n = 4)
  | 0x11 => decide (r.index < 16384) && decide (n = 0)
  | 0x12 => decide (r.index = 0) && decide (3 ≤ n) && decide (n % 3 = 0)
  | 0x20 => decide (r.index < 6144) && decide (n = 8)
  | 0x30 => decide (r.index < 16) && decide (n = 4)
  | 0x31 => decide (r.index = 0) && decide (2 ≤ n) && decide (n % 4 = 2)
  | 0x40 => owner && decide (6 ≤ n) && decide (n = 6 + 3 * num r.body 3 3)
  | 0x41 => owner && decide (6 ≤ n) && decide (n = 6 + (num r.body 3 3 + 7) / 8)
  | 0x50 => owner && decide (n = 12)
  | 0x60 => load && decide (r.index < 128) && decide (n = 8)
  | _ => false

/-- The first `n` bytes of a buffer, when all of them have been received. -/
def received (buf : Tab (Option Byte)) (n : Nat) : Option (List Byte) :=
  let l := buf.take n
  if l.length = n ∧ (l.zipIdx.all fun e => decide (e.1.1 = e.2)) then some (l.map fun e => e.2.getD 0) else none

/-- A framed change set or image: BASE_GEN, BASE_DIGEST and the records. -/
structure Framed where
  gen    : Nat
  digest : Nat
  recs   : List Rec

/-- The checks 1 to 4 of R255, which are the checks 2 to 5 of R309; a status when one fails. -/
def takeFramed (load : Bool) (magic limit : Nat) (buf : Tab (Option Byte)) : BitVec 16 ⊕ Framed :=
  match received buf 24 with
  | none => .inl 0x0012
  | some h =>
    let len := num h 20 4
    if num h 0 2 ≠ magic ∨ num h 2 2 ≠ 0x0100 ∨ len < 28 ∨ limit < len then .inl 0x0305
    else match received buf len with
    | none => .inl 0x0012
    | some bs =>
      let main := bs.take (len - 4)
      if crc32c main ≠ num bs (len - 4) 4 then .inl 0x0305
      else match parseRecs len 24 (main.drop 24) with
      | none => .inl 0x0305
      | some rs =>
        if rs.length ≠ num h 16 4 ∨ !(rs.all (recOk load)) then .inl 0x0305
        else .inr { gen := num h 4 4, digest := num h 8 8, recs := rs }

/-! ## Applying records (R252) -/

/-- The definition that a TASK_DEF body gives; reserved bits are taken as 0 (R15, R251). -/
def defOf (b : List Byte) : TaskDef :=
  let w := fun (i m : Nat) => BitVec.ofNat 32 (num b (4 * i) 4 &&& m)
  { cfg := w 0 0xFFFF001F ||| 0x80000000#32, period := w 1 0xFFFFF, deadline := w 2 0xFFFFF, trig := w 3 0xFFFFFFFF,
    trap := w 4 0xF01FFFFF, fbase := w 5 0x1FFFFF, flen := w 6 0x1FFFF, quota := w 7 0xFFFF }

/-- The directive of a DATA_INIT, BIT_INIT or TIMER_RULE record. -/
def directiveOf (r : Rec) : Option Directive :=
  let own := if r.index = 0xFFFF then none else some r.index
  let a := BitVec.ofNat 24 (num r.body 0 3)
  match r.type with
  | 0x40 => some { owner := own, body := .words a (words3 (r.body.drop 6)) }
  | 0x41 => some { owner := own, body := .bits a ((unpackBits (r.body.drop 6)).take (num r.body 3 3)) }
  | 0x50 => some { owner := own, body := .timer a (r.body.getD 3 0) (r.body.getD 4 0) (r.body.getD 5 0) (BitVec.ofNat 48 (num r.body 6 6)) }
  | _ => none

/-- Write words from `a`, wrapping modulo `m` (R176, R245). -/
def setWrap {α : Type} [DecidableEq α] (d : α) (m : Nat) (t : Tab α) (a : Nat) (vs : List α) : Tab α :=
  vs.zipIdx.foldl (fun t v => Tab.set d t ((a + v.2) % m) v.1) t

/-- Apply one record to a bank. -/
def applyRec (b : Bank) (r : Rec) : Bank :=
  match r.type with
  | 0x01 => { b with tasks := Tab.set {} b.tasks r.index (defOf r.body) }
  | 0x02 => { b with tasks := Tab.set {} b.tasks r.index {} }
  | 0x10 =>
    let w := BitVec.ofNat 32 (num r.body 0 4)
    { b with segs := Tab.set 0 b.segs r.index ((w &&& 0x83FFFFFF#32) ||| 0x04000000#32),
             declared := Tab.set false b.declared r.index (w.getLsbD 31) }
  | 0x11 => { b with segs := Tab.set 0 b.segs r.index 0, declared := Tab.set false b.declared r.index false }
  | 0x12 => { b with parcels := setWrap 0 2097152 b.parcels (num r.body 0 3) (words3 (r.body.drop 3)) }
  | 0x20 =>
    let v := BitVec.ofNat 64 (num r.body 0 8)
    { b with cats := Tab.set 0 b.cats r.index (if v.getLsbD 63 then v else 0) }
  | 0x30 =>
    let v := BitVec.ofNat 32 (num r.body 0 4)
    { b with decs := Tab.set 0 b.decs r.index (if v.getLsbD 31 then v &&& 0xFFCFFC00#32 else 0) }
  | 0x31 => { b with ucode := setWrap 0 1024 b.ucode (num r.body 0 2) (words4 (r.body.drop 2)) }
  | _ => b

/-! ## The loader (R124, R240) -/

/-- What the loader finds in a segment: ALWAYS, SERIAL, the parcels decoded, the customer opcodes seen. -/
structure Found where
  always : Bool := false
  serial : Bool := false
  len    : Nat := 0
  custom : List Nat := []

/-- Decode from `pc` up to the first SEGEND (R124); `fuel` bounds the instructions, of which program space holds no
more. -/
def scanSeg (b : Bank) : Nat → BitVec 21 → Found → Found
  | 0, _, f => f
  | fuel + 1, pc, f =>
    let i := decodeIns (fun a => Tab.get 0 b.parcels a) pc
    let f : Found := { always := f.always || alwaysOp (fun k => (Tab.get 0 b.decs k).getLsbD 31) i,
                       serial := f.serial || serialOp i.op, len := f.len + insLen (Tab.get 0 b.parcels pc.toNat),
                       custom := if customerOp i.op then (i.op - 0xE0) :: f.custom else f.custom }
    if i.op = 0x85 ∨ f.len ≥ 2097152 then f else scanSeg b fuel i.next f

/-- Whether a CODE record writes a parcel of a decoded range. -/
def codeTouches (start len : Nat) (r : Rec) : Bool :=
  let k := (r.body.length - 3) / 3
  let first := num r.body 0 3 % 2097152
  decide (r.type = 0x12) && decide (0 < k) &&
  (decide ((first + 2097152 - start) % 2097152 < len) || decide ((start + 2097152 - first) % 2097152 < k))

/-- The loader's result in the entry of segment g (R124). -/
def loadSeg (b : Bank) (g : Nat) (f : Found) : Bank :=
  let w := segEntry b g &&& 0x4FFFFFFF#32
  let p := Tab.get false b.declared g && !f.always
  let w := w ||| BitVec.ofNat 32 (bitAt p 31 + bitAt f.always 29 + bitAt f.serial 28)
  { b with segs := Tab.set 0 b.segs g w }

/-- Run the loader on the segments that `recs` touch, or on all of them (R124, R252, R256): the bank, and the
segments whose PURE it dropped. -/
def runLoader (all : Bool) (recs : List Rec) (old b : Bank) : Bank × List Nat :=
  let dec := (List.range 16).filter fun k => (Tab.get 0 old.decs k).getLsbD 31 != (Tab.get 0 b.decs k).getLsbD 31
  (b.segs.map (·.1)).foldl (fun (x : Bank × List Nat) g =>
    let start := segStart (segEntry x.1 g)
    let f := scanSeg x.1 2097152 start {}
    if all || (recs.any fun r => (r.type = 0x10 && r.index = g) || codeTouches start.toNat f.len r) ||
       (f.custom.any fun k => dec.contains k) then
      (loadSeg x.1 g f, if Tab.get false x.1.declared g && f.always then x.2 ++ [g] else x.2)
    else x) (b, [])

/-! ## The rules that a program meets -/

/-- The task fields lie within R76, R77 and R118. -/
def taskOk (d : TaskDef) : Bool :=
  let src := field d.trig.toNat 31 28
  let edge := field d.trig.toNat 27 26
  let idx := field d.trig.toNat 25 20
  let dl := deadlineOf d
  match kindOf d with
  | 0 => decide (10 ≤ periodOf d ∧ periodOf d ≤ 1000000 ∧ 3 ≤ dl ∧ dl ≤ periodOf d ∧ phaseOf d < periodOf d ∧
           src = 0 ∧ edge = 0 ∧ idx = 0)
  | 1 => decide (periodOf d = 0 ∧ phaseOf d = 0 ∧ 3 ≤ dl ∧ dl ≤ 1000000) &&
         (match src with
          | 0 => decide (edge = 0 ∧ idx = 0)
          | 1 => decide (edge ≠ 0 ∧ idx < 16)
          | 2 => decide (edge ≠ 0 ∧ idx < 32)
          | 3 => decide (edge = 0)
          | _ => false)
  | 2 => decide (periodOf d = 0 ∧ dl = 0 ∧ d.trig = 0)
  | _ => false

/-- The frame of a task lies within data memory (R190). -/
def frameOk (d : TaskDef) : Bool :=
  decide (1 ≤ d.flen.toNat ∧ d.flen.toNat ≤ 65536 ∧ 2 ^ 20 ≤ d.fbase.toNat ∧ d.fbase.toNat + d.flen.toNat ≤ 2 ^ 21)

/-- A catchment entry lies within R145. -/
def catOk (w : BitVec 64) : Bool :=
  let v := w.toNat
  let last := if field v 62 62 = 1 then 131071 else 65535
  decide (field v 61 45 + field v 44 28 ≤ last) && decide (field v 27 14 ≤ field v 13 0)

/-- Whether a directive touches an INPUT point of the regions (R256); TIMER_RULE names the words of its record. -/
def touchesInput (bitReg wordReg : List Region) (d : Directive) : Bool :=
  let word := fun (a : Nat) => decide (a < 2 ^ 20) && isInput (regionAt wordReg (a / 8))
  match d.body with
  | .words a vs => (List.range vs.length).any fun i => word ((a.toNat + i) % 2 ^ 21)
  | .bits a vs => (List.range vs.length).any fun i => isInput (regionAt bitReg ((a.toNat + i) % 2 ^ 22 / 64))
  | .timer a kind _ _ _ =>
    (List.range (match kind.toNat with | 0 => 3 | 1 => 5 | 2 => 2 | _ => 1)).any fun i => word ((a.toNat + i) % 2 ^ 21)

/-- The records that no later one of the same target replaces (R252). -/
def inEffect (rs : List Rec) (r : Rec) : Bool :=
  let cls := fun (t : Nat) => if t = 0x02 then 0x01 else if t = 0x11 then 0x10 else t
  !(rs.any fun q => decide (r.ofs < q.ofs) && decide (cls q.type = cls r.type) && decide (q.index = r.index))

/-- The quota of a task in a bank, and the larger of two. -/
def quotaIn (b : Bank) (n : Nat) : Nat := quotaOf (Tab.get {} b.tasks n)
/-- The sum over tasks of the larger of the old and the new quota. -/
def quotaSum (old b : Bank) : Nat := ((List.range 32).map fun n => max (quotaIn old n) (quotaIn b n)).sum

/-- The TASK_DEF record at which the quotas in record order pass the limit (R256). -/
def quotaRec (old b : Bank) (rs : List Rec) : Option Rec :=
  let step := fun (x : Nat × Option Rec) (r : Rec) =>
    let t := x.1 + (quotaIn b r.index - quotaIn old r.index)
    (t, if x.2.isNone && decide (t > 65536) then some r else x.2)
  ((rs.filter fun r => r.type = 0x01 && inEffect rs r).foldl step (((List.range 32).map (quotaIn old)).sum, none)).2

/-- A background task that a change set adds or enables (R83, R256). -/
def addsBackground (old b : Bank) (n : Nat) : Bool :=
  let d := Tab.get {} b.tasks n
  let o := Tab.get {} old.tasks n
  present d && kindOf d = 2 && (!present o || kindOf o ≠ 2 || (d.cfg.getLsbD 28 && !o.cfg.getLsbD 28))

/-- The first rule of R256 that a new bank breaks, and the record of the lowest offset that breaks it. [Log: DEDUCED, unsafe, entry 65.] -/
def firstFault (simplex ecc : Bool) (bitReg wordReg : List Region) (old b : Bank) (rs : List Rec) :
    Option (BitVec 16 × Option Rec) :=
  let defd := fun (n : Nat) => present (Tab.get {} b.tasks n)
  let eff := rs.filter (inEffect rs)
  let bad := fun (st : BitVec 16) (p : Rec → Bool) => (eff.find? p).map fun r => (st, some r)
  let isDef := fun (r : Rec) => decide (r.type = 0x01)
  let dir := fun (p : Directive → Bool) (r : Rec) => match directiveOf r with | some d => p d | none => false
  let owned := fun (n : Nat) => (bitReg ++ wordReg).any fun r => r.cls = 2 && decide (r.owner.toNat = n)
  let orphan := fun (r : Rec) => (r.type = 0x10 && !defd (segTask (segEntry b r.index))) ||
    (r.type = 0x02 && b.segs.any fun e => segPresent e.2 && decide (segTask e.2 = r.index))
  (bad 0x10 fun r => isDef r && !taskOk (defOf r.body)).orElse fun _ =>
  (if simplex then none else bad 0x304 fun r => isDef r && addsBackground old b r.index).orElse fun _ =>
  (if quotaSum old b > 65536 then some (0x10, quotaRec old b rs) else none).orElse fun _ =>
  (bad 0x303 fun r => r.type = 0x20 && (Tab.get 0 b.cats r.index).getLsbD 63 && !catOk (Tab.get 0 b.cats r.index)).orElse fun _ =>
  (bad 0x302 fun r => isDef r && !frameOk (defOf r.body)).orElse fun _ =>
  (bad 0x302 fun r => (r.type = 0x02 && owned r.index) ||
     (isDef r && owned r.index && present (Tab.get {} old.tasks r.index) &&
      kindOf (Tab.get {} old.tasks r.index) ≠ kindOf (defOf r.body))).orElse fun _ =>
  (bad 0x10 orphan).orElse fun _ =>
  ((rs.find? (dir (touchesInput bitReg wordReg))).map fun r => (0x10#16, some r)).orElse fun _ =>
  ((rs.find? (dir fun d => match d.owner with | some n => !defd n | none => false)).map fun r => (0x10#16, some r)).orElse fun _ =>
  if ecc then some (0x307, none) else none

/-- The owner bit of every task of a bank (R66, R116). -/
def markOwners (bitReg wordReg : List Region) (b : Bank) : Bank :=
  { b with tasks := b.tasks.map fun e =>
      let own := (bitReg ++ wordReg).any fun r => r.cls = 2 && decide (r.owner.toNat = e.1)
      (e.1, { e.2 with cfg := (e.2.cfg &&& 0xFEFFFFFF#32) ||| (if own then 0x01000000#32 else 0#32) }) }

/-! ## The layout (R67, R68, R309) -/

/-- The region that a LAYOUT record describes. -/
def regionOf (r : Rec) : Region :=
  let cls := num r.body 6 1
  { start := BitVec.ofNat 17 (num r.body 0 3), count := BitVec.ofNat 18 (num r.body 3 3), cls := BitVec.ofNat 2 cls,
    owner := if cls = 2 then BitVec.ofNat 5 (num r.body 7 1) else 0 }

/-- Whether LAYOUT records of one image are within R67 and R68. -/
def layoutOk (b : Bank) (grains : Nat) (rs : List Rec) : Bool :=
  let s := fun (r : Rec) => num r.body 0 3
  let c := fun (r : Rec) => num r.body 3 3
  (rs.all fun r => decide (1 ≤ c r ∧ s r + c r ≤ grains ∧ num r.body 6 1 ≤ 2) &&
    (decide (num r.body 6 1 ≠ 2) || (decide (num r.body 7 1 < 32) && present (Tab.get {} b.tasks (num r.body 7 1))))) &&
  rs.all fun r => rs.all fun q => decide (r.index = q.index ∨ s r + c r ≤ s q ∨ s q + c q ≤ s r)

/-- The regions of a layout in index order. -/
def regionsOf (lo : Nat) (rs : List Rec) : List Region :=
  (List.range 64).filterMap fun i => (rs.find? fun r => decide (r.index = lo + i)).map regionOf

/-- A program ready to be installed. -/
structure Loaded where
  bank    : Bank
  bitReg  : List Region
  wordReg : List Region
  dirs    : List Directive
  dropped : List Nat

/-- The checks 6 and 7 of R309 and the load of an image's records. [Log: DEDUCED, unsafe, entry 103.] -/
def loadImage (simplex : Bool) (rs : List Rec) : BitVec 16 ⊕ Loaded :=
  let b := rs.foldl applyRec ({} : Bank)
  let lay := rs.filter fun r => r.type = 0x60 && inEffect rs r
  let lb := lay.filter fun r => decide (r.index < 64)
  let lw := lay.filter fun r => decide (64 ≤ r.index)
  if !(layoutOk b 65536 lb && layoutOk b 131072 lw) then .inl 0x302
  else
    let bitReg := regionsOf 0 lb
    let wordReg := regionsOf 64 lw
    let (b, dropped) := runLoader true rs {} b
    match firstFault simplex false bitReg wordReg {} b rs with
    | some f => .inl f.1
    | none =>
      let b := markOwners bitReg wordReg b
      .inr { bank := { b with digest := bankDigest b }, bitReg := bitReg, wordReg := wordReg,
             dirs := rs.filterMap directiveOf, dropped := dropped }

end Sys2Proof.Machine
end

