-- ==== Sys2Proof/Machine/Edit.lean ====
section
/-! DEFINITION. Program loads and online edits (R70, R247 to R271, R308, R309): installing a program, the edit's states, the
build, the switch at the edit tick, draining, storing. -/

namespace Sys2Proof.Machine

/-! ## Banks -/

/-- Replace the active bank. -/
def setActive (b : Bank) (s : State) : State := updBank s.prog.active (fun _ => b) s
/-- Replace the shadow bank; an empty one with digest 0 stands for no bank (R247). -/
def setShadow (b : Bank) (s : State) : State := updBank (!s.prog.active) (fun _ => b) s
/-- The shadow bank holds no bank (R247). -/
def dropShadow (s : State) : State := { setShadow {} s with prog.held := false }

/-- The digest of the shadow bank, 0 where there is none (R249, R274). -/
def shadowDigest (s : State) : BitVec 64 := if s.prog.held then (shadowBank s).digest else 0

/-- RERUN of every segment of a bank cleared. -/
def clearRerun (b : Bank) : Bank := { b with segs := b.segs.map fun e => (e.1, e.2 &&& 0xF7FFFFFF#32) }
/-- REVOKED and RERUN of every segment cleared (R123). -/
def clearMarks (b : Bank) : Bank := { b with segs := b.segs.map fun e => (e.1, e.2 &&& 0xB7FFFFFF#32) }

/-- A PURE_DROPPED accession for each segment of a list (R124). -/
def noteDropped (gs : List Nat) (s : State) : State :=
  gs.foldl (fun s g => accession 0 0x0302 2 (beBytes 2 g) s) s

/-- A task at the start of a program: DISABLED or IDLE (R105), its next release a full scan (R151), its accumulated status 0 (R182).
[Log: DESIGN CHOICE, unsafe, entry 220.] -/
def freshTask (d : TaskDef) : Task :=
  if present d then { st := if d.cfg.getLsbD 28 then .idle else .disabled, fullK := true } else {}

/-- The tasks of the active bank, all fresh. -/
def freshTasks (b : Bank) : Tab Task :=
  (List.range 32).foldl (fun t n => Tab.set {} t n (freshTask (Tab.get {} b.tasks n))) []

/-! ## Program load (R70, R248, R263, R309) -/

/-- Load a program that has passed its checks: the image and data memory are cleared, the data directives applied, any
edit discarded. A mapping that the new layout does not hold stays. [Log: DESIGN CHOICE, unsafe, entry 182.] -/
def installProgram (l : Loaded) (s : State) : State :=
  let s := abandonAll s
  let s := releaseFeature 0x22 0 s
  let s := dropShadow (setActive (clearMarks l.bank) s)
  let s := { s with
    prog.bitReg := l.bitReg, prog.wordReg := l.wordReg, prog.inits := l.dirs, prog.gen := 0, prog.edit := .none,
    prog.undoAvail := false, prog.undone := false, prog.armUndo := false, prog.dirs := [], prog.owned := [], prog.puts := [],
    prog.editBuf := [], prog.emulSeen := [],
    tsk.bits := [], tsk.words := [], tsk.hostOver := [], tsk.tasks := freshTasks l.bank, tsk.triggers := [], tsk.steps := [],
    tsk.disables := [], tsk.enables := [], tsk.restarts := [], scan.tags := [], scan.chk := [], dio.reqBuf := 0 }
  let s := l.dirs.foldl (fun s d => applyDirective d s) s
  noteDropped l.dropped (outputCopy (fullAll s))

/-- The stored program is loaded under R70 (R54, R58, R387). With none the module has no program. -/
def loadStored (s : State) : State :=
  match storedPrg s with
  | none => s
  | some p =>
    let dropped := (p.bank.segs.filter fun e => Tab.get false p.bank.declared e.1 && e.2.getLsbD 29).map (·.1)
    installProgram { bank := p.bank, bitReg := p.bitReg, wordReg := p.wordReg, dirs := p.inits, dropped := dropped } s

/-- The store of the active bank to the archive flash begins, or begins again (R268). [Log: DEDUCED, unsafe, entry 68.] -/
def startStore (s : State) : State := { s with prog.storing := true }

/-- PRG_LOAD_CLOSE (R309): a status, and the new state. -/
def loadClose (s : State) : BitVec 16 × State :=
  if s.tsk.mode ≠ .stop then (0x301, s)
  else if !s.prog.loadOpen then (0x12, s)
  else match takeFramed true 0x5E7D 8388608 s.prog.loadBuf with
  | .inl st => (st, s)
  | .inr f =>
    match loadImage (s.red.role = 0) f.recs with
    | .inl st => (st, s)
    | .inr l => (0, startStore (installProgram l { s with prog.loadOpen := false, prog.loadBuf := [] }))

/-! ## Opening and sending (R254, R255) -/

/-- A block of a buffer at a byte offset. -/
def putBlock (buf : Tab (Option Byte)) (offset : Nat) (data : List Byte) : Tab (Option Byte) :=
  Tab.setRange none buf offset (data.map some)

/-- EDIT_OPEN (R254): the claim, the shadow bank and UNDO_AVAIL; a status and the bytes of R32. [Log: DEDUCED, unsafe, entry 131.] -/
def editOpenOp (s : State) : BitVec 16 × List Byte × State :=
  if s.prog.edit ≠ .none ∧ s.prog.edit ≠ .failed then (0x11, [], s)
  else match claimFeature 0x22 0 s with
    | (s, some n) =>
      let h := claimAt s n
      (0x13, [BitVec.ofNat 8 n, h.code, h.inst, 0], s)
    | (s, none) => (0, [], { dropShadow s with prog.undoAvail := false, prog.editBuf := [], prog.dirs := [], prog.edit := .opened })

/-- EDIT_CLOSE (R255). -/
def editCloseOp (s : State) : BitVec 16 × State :=
  if s.prog.edit ≠ .opened then (0x12, s)
  else match takeFramed false 0x5E7C 2097152 s.prog.editBuf with
  | .inl st => (st, s)
  | .inr f =>
    if f.gen ≠ s.prog.gen.toNat ∨ f.digest ≠ (activeBank s).digest.toNat then (0x306, s)
    else (0, { s with prog.edit := .building, prog.shadowEcc := false, red.builtDig := none })

/-- EDIT_ABORT (R266) at the edge on which it completes into FEN: a status and the new state. -/
def editAbortOp (s : State) : BitVec 16 × State :=
  match s.prog.edit with
  | .none => (0, s)
  | .draining => (0x308, s)
  | .armed =>
    if s.prog.armUndo then (0, { s with prog.edit := .none, prog.armUndo := false, prog.undoAvail := true })
    else (0, { s with prog.edit := .built })
  | _ => (0, { releaseFeature 0x22 0 (dropShadow s) with
      prog.edit := .none, prog.undoAvail := false, prog.editBuf := [], prog.dirs := [] })

/-- A tick that an edit or undo may be armed for (R258); none when it is out of range. -/
def leadTick (s : State) (e : Tick) : Option Tick :=
  let now := s.tsk.tick
  if 100 ≤ (e - now).toNat ∧ (e - now).toNat ≤ 16777215 then some e else none

/-- Arm the edit or the undo for a tick (R258, R267). -/
def arm (undo : Bool) (e : Tick) (s : State) : State :=
  { s with prog.edit := .armed, prog.armTick := e, prog.armUndo := undo,
           prog.undoAvail := if undo then false else s.prog.undoAvail }

/-! ## Building (R256, R257) -/

/-- A standby reports its shadow digest after a build, 0 for a build that failed (R270, R374): sync link version 1.0 has no
BUILT. [Log: DESIGN CHOICE, safe, entry 203.] -/
def sendBuilt (d : BitVec 64) (s : State) : State :=
  if standby s ∧ 0x11 ≤ s.red.syncVer.toNat then sendControl 0x07 (beBytes 8 d.toNat) s else s

/-- The build fails (R256). -/
def buildFailed (st : BitVec 16) (r : Option Rec) (s : State) : State :=
  sendBuilt 0 (accession 0 0x0306 4 []
    { dropShadow s with
      prog.edit := .failed, prog.editErr := st, prog.errType := BitVec.ofNat 8 ((r.map (·.type)).getD 0),
      prog.errOfs := BitVec.ofNat 21 ((r.map (·.ofs)).getD 0) })

/-- The segments whose entry a change set replaces (R123, R252). -/
def replacedSegs (rs : List Rec) : List (BitVec 14) :=
  rs.filterMap fun r => if r.type = 0x10 ∨ r.type = 0x11 then some (BitVec.ofNat 14 r.index) else none

/-- The build ends (R256, R257); `ecc` says that the shadow bank met an uncorrectable SRAM error. [Log: DESIGN CHOICE, unsafe, entry 64.] -/
def buildDone (ecc : Bool) (s : State) : State :=
  match takeFramed false 0x5E7C 2097152 s.prog.editBuf with
  | .inl st => buildFailed st none s
  | .inr f =>
    let ecc := ecc || s.prog.shadowEcc
    let old := activeBank s
    let b := f.recs.foldl applyRec old
    let (b, dropped) := runLoader false f.recs old b
    match firstFault (s.red.role = 0) ecc s.prog.bitReg s.prog.wordReg old b f.recs with
    | some e => buildFailed e.1 e.2 s
    | none =>
      let b := markOwners s.prog.bitReg s.prog.wordReg b
      let b := { b with digest := bankDigest b }
      sendBuilt b.digest (noteDropped dropped { setShadow b s with
        prog.held := true, prog.edit := .built, prog.dirs := f.recs.filterMap directiveOf, prog.puts := replacedSegs f.recs, prog.editBuf := [] })

/-- EDIT_BUILD_DONE (R256, R257). -/
def execEditBuildDone (ecc : Bool) (s : State) : Host.Outcome State Fault Refusal :=
  .next (if s.prog.edit = .building then buildDone ecc s else s)

/-! ## The switch (R259 to R262, R267) -/

/-- Task n passes from one bank's definition to the other's (R262). -/
def passTask (old new : Bank) (n : Nat) (t : Task) : Task :=
  let o := Tab.get {} old.tasks n
  let d := Tab.get {} new.tasks n
  if !present d then (if released t then { t with evtPend := false } else { peak := t.peak })
  else if t.st = .absent ∨ !present o then (if released t then t else { freshTask d with peak := t.peak })
  else { t with evtPend := t.evtPend && kindOf o = kindOf d, execMax := if o = d then t.execMax else 0, fullK := true }

/-- A segment that the change set does not replace stays revoked from one bank to the other (R123, R154). -/
def carryRevoked (puts : List (BitVec 14)) (old new : Bank) : Bank :=
  { new with segs := new.segs.map fun e =>
      if segRevoked (segEntry old e.1) && segPresent e.2 && !puts.contains (BitVec.ofNat 14 e.1) then (e.1, e.2 ||| 0x40000000#32) else e }

/-- The edit or undo is applied (R248, R259, R262, R267, R268). [Log: DESIGN CHOICE, unsafe, entry 26; DEDUCED, unsafe, entry 67.] -/
def switchBanks (s : State) : State :=
  let old := activeBank s
  let new := carryRevoked s.prog.puts old (clearRerun (shadowBank s))
  let tasks := (List.range 32).foldl (fun t n => Tab.set {} t n (passTask old new n (task s n))) []
  let s := setShadow new s
  let s := { s with prog.active := !s.prog.active, prog.gen := s.prog.gen + 1, prog.edit := .draining,
                    prog.undone := s.prog.armUndo, prog.editCount := satInc s.prog.editCount,
                    prog.owned := if s.prog.armUndo then s.prog.owned else s.prog.owned ++ s.prog.dirs.map fun d => { d with edit := s.prog.armTick },
                    prog.dirs := [], red.builtDig := if s.red.builtDig = some new.digest then some old.digest else none,
                    tsk.tasks := tasks, scan.tags := [] }
  accession 0 0x0307 3 (beBytes 4 s.prog.gen.toNat ++ beBytes 8 new.digest.toNat ++ beBytes 8 old.digest.toNat)
    (startStore (fullAll s))

/-- The armed edit or undo whose tick is `t` is applied. -/
def editAt (t : Tick) (s : State) : State :=
  if s.prog.edit = .armed ∧ s.prog.armTick = t then switchBanks s else s

/-- A removed task enters ABSENT at the end of its release (R262); PEAK stays until a program load (R165). -/
def settleRemoved (s : State) : State :=
  { s with tsk.tasks := (s.tsk.tasks.map fun e =>
      if released e.2 || present (taskDef s e.1) then e else (e.1, { peak := e.2.peak })).filter fun e => e.2 ≠ {} }

/-- Whether a release runs on the previous bank (R260). -/
def draining (s : State) : Bool := s.tsk.tasks.any fun e => released e.2 && e.2.bank != s.prog.active

/-- The end of a drain (R260, R267). -/
def drainEnd (s : State) : State :=
  let s := settleRemoved s
  if s.prog.edit = .draining ∧ !draining s then
    { releaseFeature 0x22 0 s with prog.edit := .none, prog.undoAvail := !s.prog.undone, prog.armUndo := false }
  else s

/-- EDIT_TICK (R259): at the armed tick, in the first step of its tick edge. -/
def execEditTick (s : State) : Host.Outcome State Fault Refusal := .next (editAt (s.tsk.tick + 1) s)

/-- EDIT_DRAIN_END (R260). -/
def execEditDrainEnd (s : State) : Host.Outcome State Fault Refusal := .next (drainEnd s)

/-- The directives that the host write step of the present tick applies, from the E of their edit on: those of no owner or of a
task released at this tick, and at E itself those of an owner that will not be released (R264). -/
def applyDirectives (rel : List Nat) (s : State) : State :=
  let due := fun (d : Directive) => reached d.edit.toNat s.tsk.tick.toNat && match d.owner with
    | none => true
    | some k => rel.contains k || (d.edit = s.tsk.tick && (s.tsk.mode ≠ .run ||
        ((task s k).st = .absent || (task s k).st = .disabled || (task s k).st = .faulted)))
  let now := s.prog.owned.filter due
  now.foldl (fun s d => applyDirective d s) { s with prog.owned := s.prog.owned.filter fun d => !due d }

/-- EDIT_STORED (R268): the store fills the slot that the selector does not name, and one twin record write switches it. -/
def execEditStored (s : State) : Host.Outcome State Fault Refusal :=
  .next (if s.prog.storing then
    let p : Stored := { bank := clearMarks (activeBank s), bitReg := s.prog.bitReg, wordReg := s.prog.wordReg, inits := s.prog.inits }
    let b := storedSlot s = some false
    let s := { s with prog.storing := false }
    let s := if b then { s with prog.storedB := some p } else { s with prog.storedA := some p }
    accession 0 0x0309 2 [] (twinWrite 2 (.program true b) s)
  else s)

end Sys2Proof.Machine
end

