-- ==== Sys2Proof/Machine/PairSync.lean ====
section
/-! DEFINITION. What a pair does at the tick edge and between its frames: the standby's releases, adoptions and presumptions (R377
to R379), the copies of a resynchronisation (R393, R394), and the switchover (R390). -/

namespace Sys2Proof.Machine

/-! ## Releases of the standby (R377) -/

/-- The task takes part in the step from this release on (R393): its first release is a full scan. [Log: DEDUCED, unsafe, entry 87.] -/
def joinTask (n : Nat) (s : State) : State :=
  if s.red.role = 2 ∧ !s.red.resync.joined.contains n then
    updTask n (fun t => { t with fullK := true }) { s with red.resync := { s.red.resync with joined := s.red.resync.joined ++ [n] } }
  else s

/-- The releases of the present tick in a standby, by the active partner's decisions (R375, R377): `evt` marks the event tasks
that it released, with a trigger that it took or had stored (R80). -/
def followRelease (evt : W32) (s : State) : State :=
  if s.tsk.mode ≠ .run then s
  else (byPrio s).foldl (fun s n =>
    let s := if evt.getLsbD n then updTask n (fun t => { t with evtPend := false }) s else s
    if (cyclicDue s n || evt.getLsbD n) && (task s n).st = .idle then releaseTask n (joinTask n s) else s) s

/-- The releases of tick t that wait for supplements are held back (R377). -/
def holdReleases (t : Nat) (on : Bool) (s : State) : State :=
  { s with tsk.tasks := s.tsk.tasks.map fun e => if released e.2 && e.2.lt.toNat = t then (e.1, { e.2 with held := on }) else e }

/-- Nothing is held back. -/
def unholdAll (s : State) : State :=
  { s with tsk.tasks := s.tsk.tasks.map fun e => (e.1, { e.2 with held := false }), red.waits := [] }

/-- The releases of tick t go on when every supplement of t has come or has been presumed (R377, R378). -/
def settleWaits (t : Nat) (s : State) : State :=
  if s.red.waits.any fun w => w.1 = t then s else giveCluster (holdReleases t false s)

/-- Points of a source take the active partner's values in the views of the releases of tick t, and in the committed image
while that tick lasts (R377). A latch after tick t that differs from the adopted one changes its grains for every task (R146); while
the tick lasts, the releases held back see the change in their view alone. [Log: DEDUCED, unsafe, entry 223.] -/
def adoptPoints (t k : Nat) (data : List Byte) (s : State) : State :=
  let p := sourcePoints s k data
  let now := s.tsk.tick.toNat = t
  let mine := fun (x : Task) => x.held && decide (x.lt.toNat = t)
  let chg := s.tsk.tasks.map fun e => (e.1, e.2.chg)
  let gs := ((p.1.filter fun b => Tab.get false s.tsk.bits b.1 != b.2).map fun b => bitGrain b.1) ++
    (p.2.filter fun w => Tab.get 0 s.tsk.words w.1 != w.2).map fun w => wordGrain w.1
  let s := if now then p.2.foldl (fun s e => setWord none e.1 e.2 s) (p.1.foldl (fun s e => setBit none e.1 e.2 s) s)
    else gs.foldl (fun s g => grainChanged none g s) s
  let keep := fun (e : Nat × Task) => if mine e.2 then (e.1, { e.2 with chg := Tab.get {} chg e.1 }) else e
  let s := if now then { s with tsk.tasks := s.tsk.tasks.map keep } else s
  { s with tsk.tasks := s.tsk.tasks.map fun e =>
      if !mine e.2 then e
      else
        let bs := p.1.filter fun b => Tab.get false e.2.snapBits b.1 != b.2
        let ws := p.2.filter fun w => Tab.get 0 e.2.snapWords w.1 != w.2
        let g := (bs.map fun b => bitGrain b.1) ++ ws.map fun w => wordGrain w.1
        (e.1, { e.2 with
          snapBits := bs.foldl (fun m b => Tab.set false m b.1 b.2) e.2.snapBits,
          snapWords := ws.foldl (fun m w => Tab.set 0 m w.1 w.2) e.2.snapWords, dirty := g.foldl Grains.add e.2.dirty }) }

/-- INPUT_ADOPTED, at most once per second and source (R377). -/
def noteAdopted (k : Nat) (s : State) : State :=
  let s := { s with red.adopt := satInc s.red.adopt }
  let last := Tab.get 0 s.red.adoptedAt k
  if last ≠ 0 ∧ s.sys.upTicks + 1 < last + 100000 then s
  else accession 0 0x0903 1 [BitVec.ofNat 8 k] { s with red.adoptedAt := Tab.set 0 s.red.adoptedAt k (s.sys.upTicks + 1) }

/-! ## Presumptions (R378) -/

/-- A presumption of the standby (R378). -/
def presume (s : State) : State := { s with red.presuming := true, red.presumed := satInc s.red.presumed }

/-- GPIO inputs of the record, or of the own latch that stands for a missing one (R375, R378, R431). -/
def followGpio (levels : Byte) (s : State) : State :=
  (List.range 6).foldl (fun s p =>
    if enabled s 0x25 p && (gpio s p).dir = 0 then
      let a := (gpio s p).bit.toNat
      let v := levels.getLsbD p
      let s := putRaw a [v] s
      if isInput (bitRegion s a) then setBit none a v s else s
    else s) s

/-- Local inputs of the record, or of the own latch that stands for a missing one (R376, R378, R454). -/
def followInputs (di : BitVec 16) (s : State) : State :=
  if !s.dio.cfg.flags.getLsbD 0 then s
  else
    let b := s.dio.cfg.inBase.toNat
    (List.range 16).foldl (fun s i =>
      let s := putRaw (b + i) [di.getLsbD i] s
      if isInput (bitRegion s (b + i)) then setBit none (b + i) (di.getLsbD i) s else s) s

/-- A standby notes its own local inputs and GPIO levels of the latch of the present tick, which stand for those of a record that does
not come (R378). -/
def noteOwnLatch (s : State) : State :=
  { s with red.latchDi := s.dio.inp,
           red.latchGpio := BitVec.ofNat 8 (bitMap 6 fun p => enabled s 0x25 p && (gpio s p).dir = 0 && (gpio s p).level) }

/-- A supplement is missing: the own latch of the source stands (R378). -/
def presumeSupplement (t k : Nat) (s : State) : State :=
  if s.red.waits.any fun w => w.1 = t && w.2.1 = k then
    settleWaits t (presume { s with red.waits := s.red.waits.filter fun w => !(w.1 = t && w.2.1 = k) })
  else s

/-- A supplement is due 8 ticks after its record (R378). -/
def supplementLate (s : State) (w : Nat × Nat × List Byte) : Bool := reached (addTicks w.1 8) (addTicks s.tsk.tick.toNat 1)

/-- A verdict that has not come by the deadline edge (R378). -/
def presumeVerdict (n : Nat) (s : State) : State :=
  let t := task s n
  if follows s n && released t && t.verdict.isNone && decide (t.due = addTicks s.tsk.tick.toNat 1) then
    updTask n (fun t => { t with guarded := true, verdict := some (decide (t.st = .done)) }) (presume s)
  else s

/-- The delay of a release of the standby after its tick edge, in ns: it is not given, and R395 bounds it (R397). [Log: DEDUCED, unsafe, entry 162.] -/
def noteLag (limit : Nat) (s : State) : State :=
  let (w, s) := drawWord s
  let d := w.toNat % (limit + 1)
  { s with red.lagMax := if s.red.lagMax.toNat < d then BitVec.ofNat 24 d else s.red.lagMax }

/-! ## Copies (R393) -/

/-- The contents of a marked 4 KiB block. -/
def blockData (s : State) (b : Nat) : ResyncData :=
  if b < 128 then .bits (BitVec.ofNat 22 (32768 * b)) (Tab.range false s.tsk.bits (32768 * b) 32768)
  else
    let lo := ((b - 128) * 4096 + 2) / 3
    let hi := min (2 ^ 21) (((b - 128) * 4096 + 4096 + 2) / 3)
    .words (BitVec.ofNat 21 lo) (Tab.range 0 s.tsk.words lo (hi - lo))

/-- STATE frames of a list of data (R373). [Log: DESIGN CHOICE, unsafe, entry 80; DEDUCED, unsafe, entry 81.] -/
def sendStates (l : List ResyncData) (s : State) : State := l.foldl (fun s d => sendState d s) s

/-- A block enters a list once. -/
def addBlock (l : List Nat) (b : Nat) : List Nat := if l.contains b then l else l ++ [b]

/-- The blocks that hold a point other than 0. -/
def usedBlocks (s : State) : List Nat :=
  s.tsk.words.foldl (fun l e => addBlock l (wordBlock e.1)) (s.tsk.bits.foldl (fun l e => addBlock l (bitBlock e.1)) [])

/-- The state of every task (R393). -/
def taskStates (s : State) : List ResyncData :=
  (List.range 32).map fun n =>
    let t := task s n
    .taskState (BitVec.ofNat 5 n) (BitVec.ofNat 4 (tstateCode t.st)) t.evtPend t.evtLost t.lt t.ovrTotal t.ovrConsec t.sticky

/-- The marked blocks go to the standby, and the marks start again. -/
def sendMarked (s : State) : State :=
  let m := s.red.resync.marked
  sendStates (m.map (blockData s)) { s with red.resync := { s.red.resync with marked := [] } }

/-- The run mode and a RUN that waits (R110, R393). -/
def runData (s : State) : ResyncData := .run (BitVec.ofNat 2 (modeCode s.tsk.mode)) s.prog.gen s.tsk.runAt

/-- The edit of the active partner, which takes the place of the standby's (R71, R270): one that is built, armed or drained. -/
def editData (s : State) : ResyncData :=
  .edit (BitVec.ofNat 3 (editCode s.prog.edit)) s.prog.armTick s.prog.armUndo s.prog.undone s.prog.undoAvail s.prog.dirs s.prog.owned s.prog.puts

/-- What the owners' commits gave the OUTPUT bits that a host write changed since (R450), which the standby's REQ follows too.
[Log: DEDUCED, unsafe, entry 231.] -/
def ownerData (s : State) : ResyncData :=
  .ownerBits (s.tsk.hostOver.filterMap fun e => e.2.map fun v => (BitVec.ofNat 22 e.1, v))

/-- What the active partner has accepted and not made by its switchover tick goes to the other, which decides from then on (R110,
R390). [Log: DESIGN CHOICE, unsafe, entry 254.] -/
def handOver (s : State) : State :=
  if !handsOver s.tsk.tick s then s
  else
    let no := fun (l : List Nat) (f : BitVec 5 → RunEffect) => l.map fun n => f (BitVec.ofNat 5 n)
    let es := (if s.tsk.stopReq then [RunEffect.stop] else []) ++ no s.tsk.enables .enable ++ no s.tsk.restarts .restart ++
      no s.tsk.disables .disable ++ no (s.tsk.triggers ++ (List.range 32).filter fun n => (task s n).evtPend) .trigger ++
      (match s.tsk.runAt with | some r => [.start r] | none => [])
    let ds := s.red.items.filterMap fun i => match i with | .settings d => some d | .editTick _ => some (editData s) | .undoTick _ => some (editData s) | _ => none
    sendStates (.pending es (s.tsk.writes.map fun w => (w.word, w.addr, w.vals)) :: ds)
      { s with tsk.stopReq := false, tsk.enables := [], tsk.restarts := [], tsk.disables := [], tsk.triggers := [], tsk.writes := [], red.items := [] }

/-- The copy that ends at the join tick: the blocks marked up to its commits, the states of the tasks, the run mode, and the directives
that still wait after an edit tick (R264, R393). -/
def finalCopy (s : State) : State :=
  if s.red.role = 1 ∧ s.red.resync.join = some s.tsk.tick.toNat then
    sendStates (taskStates s ++ [runData s, ownerData s] ++ (if s.prog.edit = .none ∨ s.prog.edit = .draining then [editData s] else [])) (sendMarked s)
  else s

/-! ## Joining (R393, R394) -/

/-- At the join tick the tasks with no release pending join (R393). -/
def joinIdle (s : State) : State :=
  match s.red.resync.join with
  | none => s
  | some j =>
    if s.red.role ≠ 2 ∨ !reached j s.tsk.tick.toNat then s
    else (List.range 32).foldl (fun s n => if s.red.resync.busy.contains n then s else joinTask n s) s

/-- The standby is in step once every task has joined (R394). -/
def finishJoin (s : State) : State :=
  match s.red.resync.join with
  | none => s
  | some j =>
    if s.red.role = 2 ∧ (List.range 32).all (fun n => s.red.resync.joined.contains n) then
      accession 0 0x090D 3 (beBytes 6 j ++ beBytes 6 (s.sys.upTicks - s.red.resync.start))
        { s with red.role := 3, red.resync := {} }
    else s

/-! ## Switchover (R390) -/

/-- The switchover tick has come. -/
def switchDue (s : State) : Bool := match s.red.switchAt with | some t => reached t s.tsk.tick.toNat | none => false

/-- What a new active partner's outputs begin with: its local outputs stay off until its first commit (R392), and the nodes
that no CFG response has put in operation are asked again (R391, R411). -/
def beginOutputs (s : State) : State := askNodes { s with dio.outOk := false }

/-- Both partners change roles at S: the standby claims, the active partner releases ACT_N, goes on in step and reports its shadow
bank, unless it still builds it (R270, R374). -/
def switchoverNow (s : State) : State :=
  if !switchDue s then s
  else
    let s := { s with red.switchAt := none }
    if s.red.role = 3 then
      beginOutputs (roleChange 1 5 (setEpoch (s.red.epoch + 1) (driveAct { unholdAll s with red.presuming := false, red.peerRole := 3, red.builtDig := none, red.infoTag := none })))
    else if s.red.role = 1 then
      let s := roleChange 3 3 (releaseAct { s with red.peerRole := 1, red.recTick := (s.tsk.tick - 1).toNat })
      let s := if s.prog.edit = .building then s else sendBuilt (shadowDigest s) s
      (List.range 32).foldl (fun s n =>
        if (task s n).st = .done ∧ !(task s n).guarded then sendSync false 0x06 s.tsk.tick.toNat (taskBytes n (task s n).lt) s else s) s
    else s

/-- Do what belongs to tick t, with the stamps of that tick, before its tick edge has been taken. -/
def atTick (t : Tick) (f : State → State) (s : State) : State :=
  let now := s.tsk.tick
  let s := f { s with tsk.tick := t }
  { s with tsk.tick := now }

end Sys2Proof.Machine
end

