-- ==== Sys2Proof/Machine/Tick.lean ====
section
/-! DEFINITION. The tick edge (R84): run control and edits, guards and verdicts (R85, R94, R380), commits, host writes, the
input latch, releases. -/

namespace Sys2Proof.Machine

/-- Whether the tick counter advances: the control die is powered and awake (R71, R483). -/
def ticks (s : State) : Bool := !s.sys.asleep && s.sys.boot != .off && s.sys.boot != .reset

/-! ## Guards and verdicts -/

/-- Task numbers, highest priority first by the definitions of their releases (R86). -/
def byPrioRel (s : State) : List Nat :=
  (List.range 33).flatMap fun p => (List.range 32).filter fun n => prioOf (relDef s n) = p

/-- The tasks whose guard edge is the present tick and is not decided yet (R84, R85). -/
def guardTasks (s : State) : List Nat :=
  (byPrioRel s).filter fun n =>
    let t := task s n
    released t && kindOf (relDef s n) != 2 && !t.guarded && t.due = addTicks s.tsk.tick.toNat 2

/-- The active partner's verdict on task n (R380): true is COMMIT. -/
def verdictFor (n : Nat) (s : State) : Bool × State :=
  let t := task s n
  if t.st ≠ .done then (false, s)
  else if t.peerDone then (true, s)
  else if ticksSince s.red.peerFrame s.tsk.tick.toNat ≤ 3 then
    (false, accession 0 0x0904 4 (beBytes 1 n) { s with red.peerOvr := satInc s.red.peerOvr })
  else (true, dropStandby 2 s)

/-- Decide one task at its guard edge: with the partner, by the standby's wait for the verdict, or alone (R85, R94). [Log: DESIGN CHOICE, unsafe, entry 29.] -/
def guardOne (n : Nat) (x : State × List (Nat × Tick × Bool)) : State × List (Nat × Tick × Bool) :=
  let (s, es) := x
  if follows s n then (updTask n (fun t => { t with guarded := true }) s, es)
  else if agrees s n then
    let lt := (task s n).lt
    let (v, s) := verdictFor n s
    (updTask n (fun t => { t with guarded := true, verdict := some v }) s, es ++ [(n, lt, v)])
  else if (task s n).st = .done then (updTask n (fun t => { t with guarded := true }) s, es)
  else (overrun n s, es)

/-- The guard edge of the present tick: every task whose guard edge it is, and one VERDICT (R84, R85, R380). -/
def guardAll (s : State) : State :=
  let (s, es) := (guardTasks s).foldl (fun x n => guardOne n x) (s, [])
  if es.isEmpty then s else sendSync false 0x07 s.tsk.tick.toNat (verdictBytes es) s

/-! ## Commits -/

/-- The deadline edge of task n: the agreed or own decision (R86, R94, R378, R380). -/
def deadlineOne (n : Nat) (x : State × Edge) : State × Edge :=
  let (s, ed) := x
  let t := task s n
  let own := fun (s : State) => if t.st = .done then commitTask n (s, ed) else (overrun n s, ed)
  match t.verdict with
  | some true => if t.st = .done then commitTask n (s, ed) else (abandon n s, ed)
  | some false => (overrun n s, ed)
  | none => if follows s n then own (presume s) else own s

/-- The tasks whose deadline is the present tick, lowest priority first and the higher number first (R86). -/
def deadlineTasks (s : State) : List Nat :=
  (byPrioRel s).reverse.filter fun n =>
    released (task s n) && kindOf (relDef s n) != 2 && reached (task s n).due s.tsk.tick.toNat

/-- The background tasks that finished before the present tick, ascending (R84). -/
def backgroundDone (s : State) : List Nat :=
  (List.range 32).filter fun n => (task s n).st = .done && kindOf (relDef s n) = 2

/-! ## Releases -/

/-- The releases of the present tick by this module's own decision: none in a standby role (R366, R377). A STEP that was
accepted in STOP releases its task at this edge also where a RUN takes effect at it (R106, R109). -/
def ownReleases (bgDone : Bool) (s : State) : State :=
  if standby s then { s with tsk.triggers := [], tsk.steps := [] }
  else if s.tsk.mode = .step then releaseSteps { s with tsk.triggers := [] }
  else releaseDue bgDone (if s.tsk.mode = .run then releaseSteps s else { s with tsk.steps := [] })

/-- The tasks that `f` releases at the present tick. -/
def releasedBy (f : State → State) (s : State) : List Nat :=
  let s' := f s
  (List.range 32).filter fun n => released (task s' n) && !released (task s n)

/-! ## Run control -/

/-- A write of `TSK_TB_CTRL` takes effect, and the source in use is the first available one (R72, R114). -/
def timebaseEdge (s : State) : State :=
  retime (match s.tsk.tbNext with
    | some w => { s with tsk.tbCtrl := w, tsk.tbNext := none }
    | none => s)

/-- Whether a RUN has met its start tick at tick t. -/
def runDue (t : Tick) (s : State) : Bool := match s.tsk.runAt with | some r => reached r.toNat t.toNat | none => false

/-- Whether this module decides at tick t: a standby takes the decisions from its record, and at a switchover tick the new active
partner makes them (R110, R375, R390). -/
def decides (t : Tick) (s : State) : Bool :=
  match s.red.switchAt with
  | some u => if reached u t.toNat then s.red.role = 3 || s.red.role = 0 else !standby s
  | none => !standby s

/-- The modes and task states that change at the present tick (R84, R105 to R109, R114, R263): the edit or undo
first; a STOP, then a RUN whose start tick has come, or a STEP in STOP. The items are what the record says of it (R375); a RUN that
waits stands in every record, so that both partners hold it. [Log: DESIGN CHOICE, unsafe, entry 177.] -/
def firstStep (s : State) : State × List RecItem :=
  let t := s.tsk.tick
  let s := timebaseEdge (editAt t s)
  let stop := stopsAt t s
  let items : List RecItem :=
    (if stop then [.runControl .stop] else []) ++
    (s.tsk.enables.map fun n => .runControl (.enable (BitVec.ofNat 5 n))) ++
    (s.tsk.restarts.map fun n => .runControl (.restart (BitVec.ofNat 5 n))) ++
    (s.tsk.disables.map fun n => .runControl (.disable (BitVec.ofNat 5 n)))
  let s := if stop then enterStop s else s
  let s := applyTaskControl s
  let wait : List RecItem := match s.tsk.runAt with | some r => [.runControl (.start r)] | none => []
  if runDue t s && decides t s then (enterRun s, items ++ [.runControl .run])
  else if s.tsk.mode = .stop ∧ s.tsk.steps ≠ [] then ({ fullAll s with tsk.mode := .step }, items ++ wait)
  else (s, items ++ wait)

/-! ## The edge -/

/-- The record's item of a host write (R375). -/
def writeItem (w : HostWrite) : RecItem := .hostWrite w.word w.addr w.vals

/-- The commits of the present tick with what they send (R86, R87, R350, R408, R417, R423, R490). -/
def commitPart (stopped : Bool) (s : State) : State × Edge :=
  if stopped then (s, {})
  else
    let s := guardAll s
    let x := (backgroundDone s).foldl (fun x n => commitTask n x) (s, ({} : Edge))
    let x := (deadlineTasks x.1).foldl (fun x n => deadlineOne n x) x
    let s := reqCommit x.2.done x.1
    ({ s with dio.outOk := s.dio.outOk || (decide (s.tsk.mode = .run) && !x.2.done.isEmpty) }, x.2)

/-- What the commits of an edge send and check in: the output copy, the CHK records of the committing tasks, the sends of
Plainline, Modbus RTU and CAN FD. -/
def afterCommits (ed : Edge) (s : State) : State :=
  let s := outputCopy s
  let s := if ed.done.isEmpty then s else checkIns ed.checks s
  commitDue ed.done (commitSends ed.done s)

/-- Whether a standby leaves the commits of the present tick to the record of the tick, which says whether a STOP takes
effect at it (R110, R375). [Log: DEDUCED, unsafe, entry 204.] -/
def owesCommits (stopped : Bool) (s : State) : Bool :=
  (s.red.role = 3 || (s.red.role = 2 && s.red.resync.joined ≠ [])) && s.tsk.mode = .run && !stopped && !switchDue s

/-- Whether a standby takes the decisions of the present tick from its record: one in step, or one that joins (R264, R377, R393). -/
def awaitsRecord (s : State) : Bool := s.red.role = 3 || (s.red.role = 2 && joinedBy s.tsk.tick.toNat s)

/-- The commits and the directives of the present tick that a standby has left to the record, with the host writes of the tick;
`f` makes its releases (R84, R264). -/
def settleOwed (stopped : Bool) (ws : List HostWrite) (f : State → State) (s : State) : State :=
  let owed := s.red.owed
  let (s, ed) := if owed then commitPart stopped { s with red.owed := false } else (s, {})
  let s := ws.foldl (fun s w => applyWrite false w s) s
  let s := if s.red.dirsOwed then outputCopy (applyDirectives (releasedBy f s) { s with red.dirsOwed := false }) else s
  if owed then compareDigests (drainEnd (giveCluster (afterCommits ed s))) else s

/-- The record of the present tick is missing: own latch, no items (R378); a RUN that an earlier record named has met its tick. -/
def presumeRecord (s : State) : State :=
  if s.red.role ≠ 3 ∨ s.tsk.tick.toNat = s.red.recTick then s
  else
    let s := if runDue s.tsk.tick s then enterRun s else s
    let s := settleOwed false [] (followRelease 0) { presume s with red.recTick := s.tsk.tick.toNat }
    let s := followGpio s.red.latchGpio (followInputs s.red.latchDi s)
    giveCluster (followRelease 0 (noteLag 80000 s))

/-- What is due at the coming tick edge and has not come (R378). -/
def presumeDue (s : State) : State :=
  if s.red.role ≠ 3 then settleOwed false [] id s
  else
    let s := presumeRecord s
    let s := (s.red.waits.filter (supplementLate s)).foldl (fun s w => presumeSupplement w.1 w.2.1 s) s
    (List.range 32).foldl (fun s n => presumeVerdict n s) s

/-- Everything of a tick edge but the counter (R84). -/
def edgeBody (inp : TickIn) (s : State) : State :=
  let s := handOver s
  let wasStop := stopsAt s.tsk.tick s
  let (s, items) := firstStep (dioEdge s)
  let owes := owesCommits wasStop s
  let (s, ed) := if owes then ({ s with red.owed := true }, {}) else commitPart wasStop s
  let s := switchoverNow s
  let bg := ed.done.any fun n => kindOf (taskDef s n) = 2
  let rel := ownReleases bg
  let ws := s.tsk.writes
  let s := ws.foldl (fun s w => applyWrite false w s) { s with tsk.writes := [] }
  let s := if awaitsRecord s then { s with red.dirsOwed := true } else applyDirectives (releasedBy rel s) s
  let s := if s.red.role = 3 then noteOwnLatch s else s
  let s := gpioTick inp.mfp (gpioLatch s)
  let s := finalCopy (afterCommits ed s)
  let s := ringLatch (flushClosing s)
  let s := latchTime inp.srcTime s
  let s := latchInputs s
  let s := ws.foldl (fun s w => applyWrite true w s) s
  let s := rel s
  let s := sendRecord (s.red.items ++ items ++ ws.map writeItem) s
  let s := sendEvents ed.events s
  let s := drainEnd (giveCluster s)
  if owes then s else compareDigests s

/-- The tick edge (R71, R84). The replies that wait for it are sent after it. [Log: DESIGN CHOICE, safe, entry 28; DEDUCED, unsafe, entry 56; DEDUCED, unsafe, entry 70.] -/
def tickEdge (inp : TickIn) (s : State) : State :=
  if ticks s then
    let s := presumeDue s
    let s := { s with tsk.tick := s.tsk.tick + 1, sys.upTicks := s.sys.upTicks + 1 }
    if supRuns s then edgeBody inp s else s
  else s

/-- GUARD_EDGE (R85, R94, R380): the guard edge of the coming tick, at which no stop or disable takes effect, when it is
that of the task. -/
def execGuardEdge (n : BitVec 5) (s : State) : Host.Outcome State Fault Refusal :=
  .next (if ticks s ∧ !stopsAt (s.tsk.tick + 1) s ∧ (s.tsk.disables = [] ∨ handsOver (s.tsk.tick + 1) s) then
    atTick (s.tsk.tick + 1) (fun s => if (guardTasks s).contains n.toNat then guardAll s else s) s
  else s)

/-- RUN_START_TICK (R107): at the start tick, in the first step of its tick edge, which meets the RUN and records it (R375). -/
def execRunStartTick (s : State) : Host.Outcome State Fault Refusal :=
  .next (match s.tsk.runAt with
    | some r => if r = s.tsk.tick + 1 ∧ !stopsAt r s ∧ decides r s then runMode s else s
    | none => s)

end Sys2Proof.Machine
end

