-- ==== Sys2Proof/Machine/Boot.lean ====
section
/-! DEFINITION. Resets and start-up (R51 to R61, R41, R369, R488, R489, R508, R511, R525, R556 to R561, R584, R585, R621). -/

namespace Sys2Proof.Machine

/-! ## Stored settings (R623) -/

/-- The stored fields as they stand in the module; of a basin table, what its accepted writes have given.
[Log: DEDUCED, unsafe, entry 121.] -/
def collectStores (s : State) : Stores :=
  { startMode := s.sys.startMode, stopOut := s.tsk.stopOut, pairEn := s.red.pairNext, warmTake := s.red.warmTake, autoResync := s.red.autoResync,
    enables := s.res.enabled.filter fun e => enableStored e.1.toNat, castPin := s.cast.pinSel, tinPin := s.ports.tinPin,
    ppsPin := s.ports.ppsPin, tbFlags := s.ports.tbFlags, ppsWidth := s.ports.ppsWidth,
    updCfg := BitVec.ofNat 32 (bitAt s.upd.mode 31 + s.upd.confirm.toNat), encReq := s.upd.encReq, dio := s.dio.cfgNext.getD s.dio.cfg,
    pubs := s.pas.pubSet, subs := s.pas.subSet, evts := s.pas.evtSet, hostAddr := s.host.hostAddr, udpPort := s.host.udpPort, gpio := s.ports.gpio, ser := s.ports.ser, meters := s.ports.meters,
    groups := s.ports.fld.groups, nodes := s.ports.fld.nodes, fports := s.ports.fld.ports, spiHost := s.host.spiHost,
    wdtPeriod := s.bkd.period, wdtWopen := s.bkd.wopen, wdtSlots := s.bkd.slotEn, wdtRst := s.bkd.rstEn, wdtAct := s.bkd.slotAct, wdtLock := s.bkd.wdtLock }

/-- A node of the stored table, and a field port and a serial port with their stored settings, before they run. -/
def restNode (n : Node) : Node := { entry := n.entry, owner := n.owner, st := if n.entry.isSome then .cfg else .unused }
/-- A field port at rest. -/
def restPort (f : FPort) : FPort :=
  { prio1 := f.prio1,
    gatesNext := f.gatesNext.or (if f.gates.isEmpty then none else some (f.gates, f.cycleNs, f.gateTick)) }
/-- A serial port at rest. -/
def restSer (x : Ser) : Ser := { rs485 := x.rs485, mbus := x.mbus, can := x.can, mbox := x.mbox }
/-- A GPIO instance at rest. -/
def restGpio (g : Gpio) : Gpio := { dir := g.dir, filter := g.filter, bit := g.bit }

/-- A table of settings with each entry at rest. -/
def restTab {α : Type} [DecidableEq α] (d : α) (f : α → α) (t : Tab α) : Tab α :=
  t.foldl (fun u e => Tab.set d u e.1 (f e.2)) []

/-- The stored fields are loaded (R41, R399); STOP_OUT and the watchdog's follow at step 7. [Log: DEDUCED, unsafe, entry 54.] -/
def loadStores (g : Stores) (s : State) : State :=
  { s with
    sys.startMode := g.startMode, red.pairEn := g.pairEn, red.pairNext := g.pairEn, red.warmTake := g.warmTake,
    red.autoResync := g.autoResync, cast.pinSel := g.castPin, ports.tinPin := g.tinPin, ports.ppsPin := g.ppsPin,
    ports.tbFlags := g.tbFlags, ports.ppsWidth := g.ppsWidth, upd.mode := g.updCfg.getLsbD 31, upd.confirm := g.updCfg.setWidth 6,
    upd.encReq := g.encReq, dio.cfg := g.dio, pas.pubs := restTab {} (fun p => { p with susp := false }) g.pubs,
    pas.subs := restTab {} (fun b => { b with fresh := false, rx := [], latest := none }) g.subs, pas.evts := g.evts,
    pas.pubSet := g.pubs, pas.subSet := g.subs, pas.evtSet := g.evts,
    ports.gpio := restTab {} restGpio g.gpio, ports.ser := restTab {} restSer g.ser, ports.meters := g.meters,
    ports.fld.groups := g.groups, ports.fld.nodes := restTab {} restNode g.nodes, ports.fld.ports := restTab {} restPort g.fports,
    host.spiHost := g.spiHost, host.hostAddr := g.hostAddr, host.udpPort := g.udpPort }

/-- The watchdog's stored configuration with one valid service (R489); a field that was written in start-up stands as written (R623). -/
def loadWatchdog (g : Stores) (s : State) : State :=
  let kept := fun (k : Nat) => s.upd.early.getLsbD k
  openWindow { s with
    bkd.period := if kept 2 then s.bkd.period else g.wdtPeriod, bkd.wopen := if kept 3 then s.bkd.wopen else g.wdtWopen,
    bkd.slotEn := if kept 4 then s.bkd.slotEn else g.wdtSlots, bkd.rstEn := if kept 0 then s.bkd.rstEn else g.wdtRst,
    bkd.slotAct := if kept 0 then s.bkd.slotAct else g.wdtAct, bkd.wdtLock := if kept 1 then s.bkd.wdtLock else g.wdtLock,
    bkd.lastSvc := s.bkd.rtc }

/-- The settings generation in force and its format (R561); the default of an absent record is the factory's. -/
def settingsSel (s : State) : Bool × BitVec 16 := match twinNow s 4 with | some (.settings g f) => (g, f) | _ => (false, 0)
/-- The settings of a generation. -/
def generation (s : State) (g : Bool) : Stores := if g then s.upd.gen1 else s.upd.gen0
/-- The settings format of a SUP firmware; the factory's is numbered 0. [Log: DESIGN CHOICE, unsafe, entry 110.] -/
def formatOf (v : BitVec 24) : BitVec 16 := if v = Config.factoryVersion 0 then 0 else Config.settingsFormat v

/-- The first page of a settings generation (R503). -/
def generationPage (g : Bool) : Nat := if g then 160 else 64

/-- Settings go into the area of the generation that is not in force (R561, R623): its 96 pages are written as the firmware's page
writes. [Log: DESIGN CHOICE, unsafe, entry 96.] -/
def beginStoring (g : Bool) (x : Stores) (s : State) : State :=
  if s.depot.pfail then s
  else (List.range 96).foldl (fun s i => firmwareWrite (generationPage g + i) (nextFirmware s (generationPage g + i)) s)
    { s with upd.storing := some (g, x) }

/-- The last of the 96 pages is written: the area holds the settings, and the selector goes to it unless a part is in TRIAL (R561). -/
def finishStoring (s : State) : State :=
  match s.upd.storing with
  | none => s
  | some (g, x) =>
    if (List.range 96).any fun i => firmwareWaits s (generationPage g + i) then s
    else
      let s := { s with upd.storing := none }
      let s := if g then { s with upd.gen1 := x } else { s with upd.gen0 := x }
      if inTrial s then s else twinWrite 4 (.settings g (formatOf (runVer s 0))) s

/-! ## The boot selector (R556, R557, R560) -/

/-- The boot selector: slots named, parts in TRIAL, slots to return to, parts whose other slot is REJECTED, recorded pair
and basin. -/
structure Selector where
  slot : BitVec 5 := 0
  trial : BitVec 5 := 0
  back : BitVec 5 := 0
  rejected : BitVec 5 := 0
  pair : Bool := false
  basin : Bool := false
  deriving DecidableEq, Repr

/-- The boot selector as its record stands. -/
def selectorOf (s : State) : Selector :=
  match twinNow s 0 with | some (.boot a b c d e f) => ⟨a, b, c, d, e, f⟩ | _ => {}
/-- The record of a boot selector. -/
def selectorVal (x : Selector) : TwinVal := .boot x.slot x.trial x.back x.rejected x.pair x.basin

/-- The selector after a fallback (R557). -/
def fallenBack (x : Selector) : Selector :=
  { x with slot := (x.slot &&& ~~~x.trial) ||| (x.back &&& x.trial), trial := 0, back := 0, rejected := x.rejected ||| x.trial }

/-- The boot ROM writes a twin record and waits for the end of its write: the writes before it in the queue end first (R505). -/
def twinStore (k : Nat) (v : TwinVal) (s : State) : State :=
  let s := twinWrite k v s
  match s.depot.queue.findIdx? fun w => (w.twin.map (·.1)) = some k with
  | none => s
  | some i =>
    let q := s.depot.queue.drop (i + 1)
    startRefresh ((s.depot.queue.take (i + 1)).foldl (fun s w => storePage w s) { s with depot.queue := q, depot.busy := !q.isEmpty })

/-- The idle slot's state at a start: a slot that ran or was on trial is VALID or REJECTED (R557, R569), and one that a download has made
VALID since stays so (R564). -/
def idleState (rejected : Bool) (x : Slot) : Slot :=
  match x.st with
  | .running | .trial | .rejected => { x with st := if rejected then .rejected else .valid }
  | _ => x

/-- Whether a slot holds an image whose signatures have been verified (R549, R553, R569). -/
def verifiedSlot (x : Slot) : Bool := x.st = .valid || x.st = .trial || x.st = .running || x.st = .rejected

/-- A part as the selector boots it; `b` names slot B. A slot without a verified image does not run (R615). -/
def bootPart (b trial rejected : Bool) (p : Part) : Part :=
  let run := fun (x : Slot) => if verifiedSlot x then { x with st := if trial then .trial else .running } else x
  if b then { runB := true, a := idleState rejected p.a, b := run p.b }
  else { runB := false, a := run p.a, b := idleState rejected p.b }

/-- The parts as a selector boots them; `supOther` says that the boot ROM loaded the other SUP slot (R56). Where the slot that the selector
names holds no verified image, the other slot runs if it holds one (R615). [Log: DESIGN CHOICE, safe, entry 260.] -/
def bootParts (x : Selector) (supOther : Bool) (s : State) : State :=
  { s with upd.parts := (List.range 5).foldl (fun t k =>
      let p := partOf s k
      let b := x.slot.getLsbD k != (supOther && decide (k = 0))
      let other := decide (k ≠ 0) && !verifiedSlot (if b then p.b else p.a) && verifiedSlot (if b then p.a else p.b)
      Tab.set {} t k (bootPart (b != other) (x.trial.getLsbD k) (x.rejected.getLsbD k) p)) [] }

/-- TRIAL_BOOT (R557): the counter, or the fallback at count 3 and where the write of a rejection was lost (R564).
[Log: DESIGN CHOICE, unsafe, entry 233.] -/
def trialBoot (s : State) : State :=
  let x := selectorOf s
  let again := s.upd.rejecting
  let s := { s with upd.rejecting := false }
  if x.trial = 0 then s
  else
    let n := trialCount s
    if n = 3 ∨ again then
      accession 0 0x0805 5 [] (twinStore 0 (selectorVal (fallenBack x)) { s with upd.fallbacks := satInc s.upd.fallbacks })
    else
      accession 0 0x0803 3 [(n + 1).setWidth 8] (twinStore 1 (.trial (n + 1)) s)

/-- Whether a slot holds an image that the boot ROM can verify (R554, R569). -/
def holdsImage (x : Slot) : Bool := x.st ≠ .empty && x.st ≠ .receiving && x.st ≠ .invalid

/-- Whether the SUP image of a slot verifies (R56). -/
def supVerifies (s : State) (b : Bool) : Bool :=
  holdsImage (if b then (partOf s 0).b else (partOf s 0).a) && (if b then s.sys.env.supB else s.sys.env.supA)

/-- A slot whose download is not the stored one holds none (R564): the write of its record was lost, or it was refused. -/
def dropDownload (x : Slot) : Slot := if x.st = .receiving ∨ x.st = .complete ∨ x.st = .verifying then {} else x

/-- The first page of a bitmap copy (R554). -/
def bitmapPage (copy : Bool) : Nat := if copy then 26 else 18

/-- Whether a unit is received in a stored bitmap copy (R554). [Log: DESIGN CHOICE, unsafe, entry 234.] -/
def bitmapUnit (s : State) (copy : Bool) (u : Nat) : Bool :=
  (((pageRead s (bitmapPage copy + u / 2048)).1).getD (u % 2048 / 8) 0).getLsbD (u % 8)

/-- The download state at a start (R554, R555, R564): the record and the bitmap copy that it names say which download is open and which
of its units are received; a UPD_BEGIN that discarded the slot's contents before its record was written leaves none of them. [Log: DESIGN CHOICE, unsafe, entry 235.] -/
def bootDownload (s : State) : State :=
  let parts := (List.range 5).foldl (fun t k => Tab.upd {} t k fun p => { p with a := dropDownload p.a, b := dropDownload p.b }) s.upd.parts
  let none' := { s with upd.parts := parts, upd.openPart := none }
  match twinNow s 8 with
  | some (.download p n b st copy) =>
    let part := partOf s p.toNat
    let held := if b then part.b else part.a
    if part.runB = b ∨ (st ≠ 1 ∧ st ≠ 2) ∨ held.length ≠ n.toNat then none'
    else
      let count := (n.toNat + 511) / 512
      let got := (List.range count).filter fun u => bitmapUnit s copy u && Tab.get false held.units u
      let fill := fun (x : Slot) => { x with
        st := if got.length = count then .complete else .receiving, length := n.toNat, units := got.map fun u => (u, true) }
      { s with upd.openPart := some p.toNat,
               upd.parts := Tab.set {} parts p.toNat (if b then { part with b := fill part.b } else { part with a := fill part.a }) }
  | _ => none'

/-- The boot ROM loads SUP (R56, R557): false where both slots fail. -/
def loadSup (s : State) : Bool × State :=
  let s := trialBoot s
  let x := selectorOf s
  let s := { s with upd.recPair := x.pair, upd.recBasin := x.basin }
  let ok := supVerifies s
  let b := x.slot.getLsbD 0
  if ok b then (true, bootParts x false s)
  else if ok (!b) then
    let s := accession 0 0x0103 5 [] s
    if x.trial.getLsbD 0 then
      let y := fallenBack x
      (true, bootParts y false (accession 0 0x0805 5 [] (twinStore 0 (selectorVal y) { s with upd.fallbacks := satInc s.upd.fallbacks })))
    else (true, bootParts x true s)
  else (false, bootParts x false s)

/-! ## The cold state -/

/-- The bits of `SYS_RESET_CAUSE` (R52). -/
def resetBit : Nat → BitVec 5
  | 0 => 1 | 1 => 2 | 2 => 4 | 3 => 8 | _ => 16

/-- What survives a reset (R51, R47, R70, R71, R489, R606, R621): cause 0 is power-on, 1 pin, 2 watchdog, 3 command,
4 fatal. [Log: DEDUCED, unsafe, entry 92; DESIGN CHOICE, unsafe, entry 184.] -/
def coldState (cause : Nat) (s : State) : State :=
  let por := decide (cause = 0)
  let d := (depotReset s).depot
  let cores : Tab Core := s.scan.cores.foldl (fun t e =>
    Tab.set {} t e.1 { retired := e.2.retired, active := e.2.active, fault := e.2.fault, faultPc := e.2.faultPc, faultLt := e.2.faultLt }) []
  let base : State := {}
  { base with
    pending := s.pending, free := s.free, sent := s.sent,
    sys := { boot := .reset, env := s.sys.env, cause := if por then 1 else s.sys.cause ||| resetBit cause,
             fatal := if por then none else s.sys.fatal, fatalTick := if por then 0 else s.sys.fatalTick,
             uncorr := if por then 0 else s.sys.uncorr, upTicks := if por then 0 else s.sys.upTicks,
             tempMax := if por then 0x8000 else s.sys.tempMax, usbVbus := s.sys.usbVbus },
    res := { claims := [], enabled := [] },
    cast := if por then { pinEn := false } else { s.cast with pinEn := false, count := 0, missedTotal := 0 },
    scan := if por then {} else { cores := cores },
    tsk := { tick := if por then 0 else s.tsk.tick },
    prog := { storedA := s.prog.storedA, storedB := s.prog.storedB },
    bkd := wdtResetValues s.bkd,
    dio := { up := false, supplyOk := false, version := 0, downSeq := 0, downSeen := s.iod.badDown, lastUp := none, safStatus := 0, safSwitch := 0 },
    iod := s.iod,
    depot := { bytes := d.bytes, twins := d.twins, bad := d.bad, soft := d.soft, torn := d.torn, wear := d.wear, fw := d.fw, logged := if por then [] else d.logged },
    log := { flash := s.log.flash, image := s.log.image, lost := if por then [] else s.log.lost },
    upd := { parts := s.upd.parts, openPart := s.upd.openPart, rejecting := s.upd.rejecting, gen0 := s.upd.gen0, gen1 := s.upd.gen1 } }

/-! ## Start-up -/

/-- The next log index after a restart (R520, R525): an image that waits to be merged takes its own first. [Log: DEDUCED, unsafe, entry 95.] -/
def nextIndex (s : State) : W32 :=
  match s.log.image with
  | none => afterFlash s
  | some im => afterImage s im + (if im.pending.isSome then 1 else 0)

/-- Whether the running part set is on trial. -/
def onTrial (s : State) : Bool := decide ((selectorOf s).trial ≠ 0)

/-- The rejection of a trial (R560): the fallback of the selector, the accession, and a reset within 100 ms. -/
def rejectTrial (s : State) : State :=
  let s := twinWrite 0 (selectorVal (fallenBack (selectorOf s))) { s with upd.fallbacks := satInc s.upd.fallbacks }
  accession 0 0x0806 5 [] { s with sys.resetPending := true, upd.rejecting := true }

/-- The settings in force are read, converted or replaced (R561): the settings to run with. -/
def readSettings (s : State) : Stores × State :=
  let (g, f) := settingsSel s
  let v := runVer s 0
  let x := generation s g
  if f = formatOf v then (x, s)
  else if Config.readsFormat v f then
    (x, beginStoring (!g) x s)
  else
    let s := { s with upd.settingsRead := false }
    if onTrial s then ({}, accession 0 0x0801 6 [] (rejectTrial s)) else ({}, accession 0 0x0801 7 [] s)

/-- The I/O die and FEN exchange frames over the barrier (steps 3 and 4, R469): two down frames, since a new CFG is adopted
from the second, and an up frame. -/
def exchangeBarrier (s : State) : State :=
  if !s.iod.powered then s
  else
    let send := fun (s : State) =>
      let s := { s with dio.downSeq := s.dio.downSeq + 1 }
      takeDown (downBytes (downFrame s)) s
    let s := send (send s)
    let d := { s.iod with upSeq := s.iod.upSeq + 1, ch1 := { s.iod.ch1 with silence := s.iod.silent }, ch2 := { s.iod.ch2 with silence := s.iod.silent } }
    let s := { s with iod := d }
    takeUp (upBytes (upFrame s)) s

/-- Step 5 (R58): a stored program that fails its check leaves the module without one, in STOP. [Log: DESIGN CHOICE, safe, entry 69.] -/
def loadProgram (s : State) : State :=
  if (storedPrg s).isNone then s
  else if s.sys.env.progOk then loadStored s
  else accession 0 0x0301 6 [] { s with upd.loadFailed := true }

/-- The accession of a watchdog expiry that SUP could not write (R488). [Log: DEDUCED, unsafe, entry 153.] -/
def noteExpiry (s : State) : State :=
  if s.bkd.evValid && !s.bkd.evLogged then { accession 0 0x0501 7 [] s with bkd.evLogged := true } else s

/-- The features whose resources are multi-function pins, which they claim at step 7 (R61). -/
def pinFeature (e : Byte × Byte) : Bool := [0x20, 0x21, 0x25].contains e.1.toNat

/-- Step 7: the pins, STOP_OUT, the watchdog's configuration, the stored start mode, and the CFG requests of a PLAINLINE that the
stored settings enabled (R54, R58, R59, R61, R113, R411, R489, R561). -/
def finishStart (s : State) : State :=
  let g : Stores := if s.upd.settingsRead then generation s (settingsSel s).1 else {}
  let dirty := s.upd.dirty
  let s := enableDefaults (g.enables.filter pinFeature) s
  let s : State := { s with sys.boot := .ready, tsk.stopOut := if s.upd.early.getLsbD 5 then s.tsk.stopOut else g.stopOut, upd.dirty := dirty }
  askNodes (loadWatchdog g
    (if s.sys.startMode = 1 ∧ !standby s ∧ !s.upd.loadFailed ∧ s.upd.settingsRead then enterRun s else s))

/-- The end of step 6: a module that is forming a basin waits for it. -/
def endStep6 (s : State) : State := { s with sys.boot := if s.pas.ring = 1 then .forming else .step7 }

/-- A module that forms a basin goes on to step 7 as soon as it forms none any more (R54, R332). -/
def formingEnds (s : State) : State := if s.sys.boot = .forming ∧ s.pas.ring ≠ 1 then { s with sys.boot := .step7 } else s

/-- ROLE_DECISION (R59, R369): ends start-up, or waits for heartbeats. [Log: DEDUCED, unsafe, entry 76; DEDUCED, unsafe, entry 93.] -/
def roleDecision (s : State) : State :=
  if !s.red.pairEn then endStep6 s
  else if !enabled s 0x03 0 then endStep6 (roleChange 0 3 { s with red.pairEn := false })
  else if s.sys.env.actLow then endStep6 (roleChange 2 3 { s with red.actIn := false })
  else { s with sys.boot := .roleWait }

/-- Step 6 (R54, R61): the pass ports train where a neighbour answers, and the module begins to form a basin. -/
def trainPass (s : State) : State :=
  let up := fun (east : Bool) (o : Option (List VerRange)) (s : State) => match o with
    | some offer => linkUp east offer s
    | none => s
  up false s.sys.env.passW (up true s.sys.env.passE s)

/-- Step 4: the self-test of SAF, and the frames that show its outcome. A SAF image on trial is taken only while S7 is on (R566). -/
def testSafety (s : State) : State :=
  let e := s.sys.env
  let s := exchangeBarrier { s with iod := safSelfTest e.safOk e.switches e.sdi s.iod }
  if (selectorOf s).trial.getLsbD 4 && !e.switches.getLsbD 6 then rejectTrial s else s

/-- The step of start-up in progress ends at a tick edge and the next begins (R54, R605). [Log: DESIGN CHOICE, unsafe, entry 94.] -/
def startGoesOn (s : State) : State :=
  match s.sys.boot with
  | .step3 => { exchangeBarrier s with sys.boot := .step4 }
  | .step4 => { testSafety s with sys.boot := .step5 }
  | .step5 => { loadProgram s with sys.boot := .step6 }
  | .step6 => roleDecision (trainPass s)
  | .forming => formingEnds s
  | .step7 => finishStart s
  | _ => s

/-- START_UP (R54) of a cold state, to the end of step 2, from which on SUP answers (R60). [Log: DESIGN CHOICE, unsafe, entry 94; DESIGN CHOICE, unsafe, entry 115.] -/
def startUp (por : Bool) (s : State) : State :=
  let e := s.sys.env
  let s := { s with sys.partner := e.partner, sys.ringId := e.ringId, log.next := nextIndex s }
  let s := bootDownload (recallScan e.soft s)
  let (runs, s) := loadSup s
  let s := { s with iod := safRestart { s.iod with selfFail := s.iod.selfFail && !por } }
  if !runs then { s with sys.boot := .rom }
  else
    let s := { mergeImage s with sys.boot := .step3, red.epoch := match twinNow s 3 with | some (.epoch e) => e | _ => 0 }
    let (g, s) := readSettings s
    let s := loadStores g s
    let s := if onTrial s then { s with upd.windowEnd := s.sys.upTicks + 6000000 * s.upd.confirm.toNat } else s
    let s := negotiateBarrier (noteExpiry s)
    let s := enableDefaults (g.enables.filter (fun f => !pinFeature f) ++ (if g.pairEn then [(0x03, 0)] else [])) s
    let s := if s.upd.openPart.isSome then (claimFeature 0x23 0 s).1 else s
    startEnabled { s with upd.dirty := false }

/-- A reset after the power-fail warning (R585): the module stays in reset, with PFAIL_N low, until VIN is good again. -/
def heldReset (cause : Nat) (s : State) : State :=
  { coldState cause s with
    sys.boot := .off, sys.pfail := true, sys.vinGood := false, iod := if s.iod.powered then safRestart s.iod else s.iod }

/-- A reset of R51 with its start-up; any reset after the power-fail warning is the one that the warning ends in (R585).
[Log: DEDUCED, unsafe, entry 241.] -/
def doReset (cause : Nat) (s : State) : State :=
  if cause ≠ 0 ∧ s.sys.pfail then heldReset cause s else startUp (cause = 0) (coldState cause s)

/-- What a reset that the module makes itself finds outside: straps and neighbours as the last reset row gave them, the switches
and the demand inputs as SAF last read them, and free truth values for the check of the stored program (R58) and the level of ACT_N at step 6 (R59).
[Log: DESIGN CHOICE, unsafe, entry 114; DESIGN CHOICE, safe, entry 69.] -/
def selfEnv (s : State) : BootEnv :=
  { s.sys.env with progOk := Config.freeBool s.free, actLow := Config.freeBool (s.free + 1), switches := s.iod.now, sdi := s.iod.sdiNow, soft := [] }

/-- A reset that the module makes itself: by command (3) or a fatal fault (4) of R51. -/
def selfReset (cause : Nat) (s : State) : State := doReset cause { s with sys.env := selfEnv s, free := s.free + 2 }

/-- POWER_ON_RESET (R584). -/
def execPowerOnReset (env : BootEnv) (s : State) : Host.Outcome State Fault Refusal :=
  .next (doReset 0 { s with sys.env := env, sys.vinGood := true, bkd.vin := true })

/-- PIN_RESET (R51, R53): at least 10 µs, and only while VIN is good. -/
def execPinReset (lowUs : Nat) (env : BootEnv) (s : State) : Host.Outcome State Fault Refusal :=
  .next (if lowUs < 10 ∨ s.sys.boot = .off then s else doReset 1 { s with sys.env := env })

/-- WATCHDOG_RESET (R488): RST of `WDT_EV_CAUSE` says that it followed. -/
def execWatchdogReset (env : BootEnv) (s : State) : Host.Outcome State Fault Refusal :=
  .next (if s.bkd.rstDue ∧ s.sys.boot ≠ .off then doReset 2 { s with sys.env := env, bkd.evRst := true } else s)

/-- ROLE_WAIT_EXPIRY (R369): a free value says whether ACT_N went low during the wait. A module that is no partner any more ends
start-up as it is (R324). [Log: DESIGN CHOICE, safe, entry 208.] -/
def execRoleWaitExpiry (s : State) : Host.Outcome State Fault Refusal :=
  .next (if s.sys.boot ≠ .roleWait then s
    else if !s.red.pairEn then endStep6 s
    else if (drawBool s).1 then endStep6 (roleChange 2 3 { (drawBool s).2 with red.actIn := false })
    else
      let s := (drawBool s).2
      let top := match s.red.epochHeard with
        | some h => if epochHigher h s.red.epoch then h else s.red.epoch
        | none => s.red.epoch
      endStep6 (roleChange 1 3 (driveAct (setEpoch (top + 1) s))))

/-! ## Power failure -/

/-- The groups of a page after a supply failure in its write (R511): group k was in progress, and it reads wholly old (0),
wholly new (1) or uncorrectable (2); the groups before it are new, those after it old. A worn page holds free bytes (R614).
[Log: DESIGN CHOICE, safe, entry 104; DESIGN CHOICE, safe, entry 171.] -/
def tornPage (k c : Nat) (w : DepWrite) (s : State) : State :=
  let g := k % 32
  let n := if c % 3 = 1 then g + 1 else g
  let below : W32 := BitVec.ofNat 32 (2 ^ n - 1)
  let bad : W32 := if c % 3 = 2 then BitVec.ofNat 32 (2 ^ g) else 0
  let old := storedBytes s w.page
  let worn := decide (1000000 < Tab.get 0 s.depot.wear w.page + 1)
  let new := if w.srcs = [.refresh] then old else writeBytes w
  let mixed := new.take (8 * n) ++ old.drop (8 * n)
  let s := { s with depot.bad := Tab.set 0 s.depot.bad w.page ((Tab.get 0 s.depot.bad w.page &&& ~~~below) ||| bad),
                    depot.soft := Tab.set 0 s.depot.soft w.page (Tab.get 0 s.depot.soft w.page &&& ~~~below),
                    depot.wear := Tab.upd 0 s.depot.wear w.page (· + 1) }
  if worn then wornPage w.page s else putBytes w mixed s

/-- Records by severity, highest first, ascending index within each (R525). -/
def bySeverity (l : List Acc) : List Acc :=
  (List.range 8).reverse.flatMap fun v => l.filter fun a => a.sev.toNat = v

/-- A power-fail image that the supply cuts after n records, severity order (R512, R525): the others are missing against its header. The
pending LOST record is one of them. [Log: DESIGN CHOICE, unsafe, entry 236.] -/
def cutImage (n : Nat) (s : State) (im : PfImage) : PfImage :=
  let last := (imageRecs s im).getLast?.map (·.index + 1)
  let pend : List Acc := match im.pending with | some p => [lostAcc p (last.getD s.log.next)] | none => []
  let l := bySeverity (imageRecs s im ++ pend)
  let kept := fun (a : Acc) => (l.take n).any fun b => b.index = a.index
  { im with
    recs := im.recs.filter kept, closed := im.closed.filter kept, pending := if pend.all kept then im.pending else none,
    missing := (l.drop n).map fun a => a.sev.toNat }

/-- VIN falls below the reset threshold before the depot write and the image are complete (R511, R512, R525). -/
def supplyCut (s : State) : State :=
  let (w1, s) := drawWord s
  let (w2, s) := drawWord s
  let (w3, s) := drawWord s
  let s := match s.depot.busy, s.depot.queue with
    | true, w :: _ => { tornPage w1.toNat w2.toNat w s with depot.queue := [], depot.busy := false }
    | _, _ => s
  match s.log.image with
  | some im => { s with log.image := some (cutImage (w3.toNat % (im.recs.length + 3)) s im) }
  | none => s

/-- POWER_FAIL_RESET (R585, R61, R364, R444): at the end of the depot write and the image, or with VIN below the reset threshold. -/
def execPowerFailReset (vinBelow : Bool) (s : State) : Host.Outcome State Fault Refusal :=
  .next (if !s.sys.pfail ∨ s.sys.boot = .off ∨ (!vinBelow ∧ s.depot.busy) then s
    else { heldReset 1 (if vinBelow then supplyCut s else s) with sys.cause := s.sys.cause })

end Sys2Proof.Machine
end

