-- ==== Sys2Proof/Machine/Faults.lean ====
section
/-! DEFINITION. Faults of the memories and cores (R156 to R159) and fatal faults (R51, R385, R606). -/

namespace Sys2Proof.Machine

/-- A fatal fault of internal unit `unit` with the accession code of its event (R42, R51, R385, R525, R606): SYS_FATAL holds
the first one; a partner says RELINQUISH before it releases ACT_N; the power-fail image is written and the module resets. [Log: DEDUCED, unsafe, entry 91.] -/
def fatalFault (unit code : Nat) (s : State) : State :=
  let s := if s.sys.fatal.isSome then s else
    { s with sys.fatal := some (BitVec.ofNat 3 unit, BitVec.ofNat 16 code), sys.fatalTick := s.tsk.tick }
  let s := raiseCastSpread 3 s
  let s := if s.red.role ≠ 0 then bothHeartbeats true true s else s
  let s := accession 0 0x0104 7 [] (releaseAct s)
  selfReset 4 (writeImage s)

/-! ## Core faults (R157, R158, R167) -/

/-- The code of a cause in `SCN_CORE_FAULT`. -/
def causeCode : CoreFaultCause → BitVec 3
  | .residue => 1 | .parity => 2 | .ecc => 3

/-- A core fault is counted, and the first one of the core recorded (R167); of a core that holds no segment with TASK, SEG and LT 0.
[Log: DESIGN CHOICE, unsafe, entry 217.] -/
def recordFault (c : Nat) (cause : CoreFaultCause) (s : State) : State :=
  let r := (core s c).run.getD {}
  let pc := corePc s c
  let lt := if (core s c).run.isSome then (task s r.task).lt else 0
  let s := if cause = .ecc then { s with sys.uncorr := s.sys.uncorr ||| 2 } else s
  updCore c (fun k =>
    let k := match cause with
      | .residue => { k with resErr := satInc k.resErr }
      | .parity => { k with parErr := satInc k.parErr }
      | .ecc => { k with eccUnc := satInc k.eccUnc }
    if k.fault.isSome then k
    else { k with fault := some (causeCode cause, BitVec.ofNat 5 r.task, BitVec.ofNat 14 r.seg), faultPc := pc, faultLt := lt.setWidth 32 }) s

/-- The spare that stands by (R158). -/
def spareCore (s : State) : Option Nat := (List.range 9).find? fun c => !(core s c).active && !(core s c).retired

/-- The run that takes the place of one whose core failed (R157): in direct mode it goes on at the instruction, in journal
mode the segment starts again, or, where it was suspended, where it resumed. [Log: DEDUCED, unsafe, entry 88.] -/
def retryRun (s : State) (r : Run) : Run :=
  if r.direct then { r with supWait := false }
  else match ctxOf s r.task r.seg with
    | some x => { x with suspend := r.suspend }
    | none => { freshRun s r.task r.seg with suspend := r.suspend }

/-- The failed segment is retried on the spare, or on the next core that becomes free (R157, R158). -/
def retrySegment (r : Run) (spare : Option Nat) (s : State) : State :=
  let s := { s with scan.retry := satInc s.scan.retry }
  let x := retryRun s r
  match spare with
  | some c => startOn c r.task r.seg x s
  | none =>
    let keep := r.direct || (ctxOf s r.task r.seg).isSome
    setSeg r.task r.seg .pending (if keep then updTask r.task (fun t => { t with ctx := some { x with suspend := false } }) s else s)

/-- CORE_FAULT (R157, R158): the core is retired, the spare takes its place, and the segment it held is retried. -/
def coreFaultOp (c : Nat) (cause : CoreFaultCause) (s : State) : State :=
  if 9 ≤ c ∨ (core s c).retired then s
  else
    let held := (core s c).run
    let r := held.getD {}
    let s := recordFault c cause s
    let s := accession 1 0x0408 5 ([BitVec.ofNat 8 c, BitVec.ofNat 8 (causeCode cause).toNat, BitVec.ofNat 8 r.task] ++ beBytes 2 r.seg) s
    let was := (core s c).active
    let s := updCore c (fun k => { k with retired := true, active := false }) (freeCore c s)
    let s := dropPasses { s with depot.waiters := s.depot.waiters.filter (· ≠ .program c) }
    let s := accession 1 0x0409 5 [BitVec.ofNat 8 c] s
    let spare := if was then spareCore s else none
    let s := match spare with
      | some k => updCore k (fun x => { x with active := true }) s
      | none => s
    if (List.range 9).all fun k => !(core s k).active then fatalFault 1 0x0409 s
    else match held with
      | none => s
      | some r => giveCluster (retrySegment r spare s)

/-- CORE_FAULT (R157). -/
def execCoreFault (c : Nat) (cause : CoreFaultCause) (s : State) : Host.Outcome State Fault Refusal :=
  .next (if ticks s then coreFaultOp c cause s else s)

/-! ## SRAM errors (R156) -/

/-- An uncorrectable SRAM error outside the cores is counted for internal unit u (R604, R607). -/
def countUncorrectable (u : Nat) (s : State) : State :=
  { s with sys.eccUnc := satInc s.sys.eccUnc, sys.uncorr := s.sys.uncorr ||| BitVec.ofNat 6 (2 ^ u) }

/-- A change map reads as all ones (R156, R151). -/
def mapError (n : Nat) (f : Task → Task) (s : State) : State :=
  accession 1 0x040A 4 [BitVec.ofNat 8 n] (updTask n (fun t => { f t with fullK := true }) s)

/-- The write tags are lost: RERUN for every pure segment, and FULL_k for every task (R151, R156). -/
def tagsError (s : State) : State :=
  let b := s.prog.active
  let s := (activeBank s).segs.foldl (fun s e => if segPure e.2 then setSegBit b e.1 27 true s else s) s
  accession 1 0x040A 4 [] (fullAll { s with scan.tags := [] })

/-- An uncorrectable error of the memories that R156 makes fatal; one of the shadow bank during a build marks the bank, and the
build fails by it instead (R256). [Log: DEDUCED, unsafe, entry 89.] -/
def sramFatal (place : SramPlace) (s : State) : State :=
  if place = .bank true ∧ s.prog.edit = .building then { s with prog.shadowEcc := true } else fatalFault 1 0x0104 s

/-- SRAM_UNCORRECTABLE (R156). [Log: DEDUCED, unsafe, entry 90.] -/
def sramUncorrectableOp (place : SramPlace) (s : State) : State :=
  match place with
  | .coreRam c => coreFaultOp c .ecc s
  | .chg n => mapError n.toNat (fun t => { t with chg := { all := true } }) (countUncorrectable 1 s)
  | .prev n => mapError n.toNat (fun t => { t with prev := { all := true } }) (countUncorrectable 1 s)
  | .tags => tagsError (countUncorrectable 1 s)
  | .unit u => countUncorrectable u.toNat s
  | .viewStore | .bitImage | .wordImage | .dataMem | .bank _ | .segTable | .catTable | .decTable =>
    sramFatal place (countUncorrectable 1 s)

/-- SRAM_UNCORRECTABLE (R156). -/
def execSramUncorrectable (place : SramPlace) (s : State) : Host.Outcome State Fault Refusal :=
  .next (if ticks s then sramUncorrectableOp place s else s)

/-- The internal unit whose memory a place lies in. -/
def placeUnit : SramPlace → Nat
  | .unit u => u.toNat
  | _ => 1

/-- SRAM_SINGLE_BIT_ERROR (R156): corrected in place, counted, logged. -/
def execSramSingleBitError (place : SramPlace) (s : State) : Host.Outcome State Fault Refusal :=
  .next (if ticks s then
    accession (placeUnit place) 0x0407 1 [] (match place with
      | .coreRam c => if c < 9 then updCore c (fun k => { k with eccCorr := satInc k.eccCorr }) s else s
      | _ => { s with sys.eccCorr := satInc s.sys.eccCorr })
  else s)

end Sys2Proof.Machine
end

