-- ==== Sys2Proof/Machine/Pair.lean ====
section
/-! DEFINITION. The rows of a hot-standby pair (chapter 09): heartbeats and paths, takeover, records and supplements, commit
verdicts, digests, resynchronisation, switchover, forwarded edits. -/

namespace Sys2Proof.Machine

/-! ## Frames of the sync link (R372, R379) -/

/-- What every frame of the other partner shows: it is alive, so that a standby that presumes leaves the step (R379, R380). -/
def peerAlive (s : State) : State :=
  let s := { s with red.peerFrame := s.tsk.tick.toNat }
  if s.red.presuming then dropFromStep 0x0906 [] s else s

/-- Receive a frame of the sync link (R372, R50): a failed CRC is counted; in management-only mode the link carries
heartbeats and forwarded commands. -/
def syncRx (mgmt : Bool) (h : SyncHdr) (s : State) (f : State → State) : State :=
  if !s.red.pairEn ∨ !supRuns s ∨ !s.red.syncUp then s
  else if !h.crcOk then { s with red.crcErr := satInc s.red.crcErr }
  else if h.src = s.sys.partner ∨ (s.red.syncMgmt && !mgmt) then s
  else f (peerAlive s)

/-- A frame of the HB pair (R372); a partner listens to it from step 6 on (R61, R369). -/
def hbRx (h : SyncHdr) (s : State) (f : State → State) : State :=
  if !s.red.pairEn ∨ !(supRuns s && fromStep6 s) then s
  else if !h.crcOk then { s with red.crcErr := satInc s.red.crcErr }
  else if h.src = s.sys.partner then s
  else f (peerAlive s)

/-! ## Resynchronisation, the standby's side (R368, R370, R393, R394) -/

/-- A STANDBY_SYNCING partner asks for a resynchronisation (R393): what the copies will give is cleared, but the banks, of which
it gives the digests, and PEAK, which stands until a program load (R165). Without the sync link, or under R370, it is refused. [Log: DESIGN CHOICE, safe, entry 202.] -/
def requestResync (s : State) : State :=
  if s.red.role ≠ 2 then s
  else if !syncReady s then breakResync s
  else match barred s with
  | some c => breakResync (pairBarred c s)
  | none =>
    let s := releaseFeature 0x22 0 { s with
      tsk.bits := [], tsk.words := [], tsk.tasks := (s.tsk.tasks.filter fun e => e.2.peak ≠ 0).map fun e => (e.1, { peak := e.2.peak }), tsk.runAt := none, tsk.stopReq := false, tsk.stopAt := none,
      tsk.steps := [], tsk.enables := [], tsk.disables := [], tsk.restarts := [], tsk.triggers := [],
      scan.tags := [], scan.chk := [], prog.bitReg := [], prog.wordReg := [], prog.edit := .none, prog.armUndo := false,
      prog.undoAvail := false, prog.dirs := [], prog.owned := [], prog.editBuf := [],
      pas.pubs := [], pas.subs := [], pas.evts := [], pas.pubSet := [], pas.subSet := [], pas.evtSet := [], red.resync := { phase := 1, start := s.sys.upTicks } }
    sendControl 0x01 (beBytes 2 (ownRdv s).toNat ++ beBytes 8 (activeBank s).digest.toNat ++ beBytes 8 (shadowDigest s).toNat) s

/-- A standby becomes STANDBY_SYNCING with the sync link up (R368, R394); one that R370 bars stays as it is, and so does a warm
one without the link. -/
def enterSyncing (s : State) : State :=
  if s.red.role = 4 ∧ !syncReady s then s
  else match barred s with
  | some c => pairBarred c s
  | none => requestResync (roleChange 2 3 (leaveStep (abandonAll { s with red.autoPend := false })))

/-- AUTO_RESYNC_TIMER (R368): 1 s after the entry into STANDBY_WARM. -/
def execAutoResyncTimer (s : State) : Host.Outcome State Fault Refusal :=
  .next (if s.red.role = 4 && s.red.autoPend && s.red.autoResync && syncReady s then enterSyncing s else s)

/-! ## Heartbeats and paths (R382 to R386, R389, R396) -/

/-- HEARTBEAT_SEND (R365, R382): every 100 µs, on the sync link at each tick whose count modulo 10 is 0, and on the HB pair at the
one tick in ten that opens the partner's slot. [Log: DESIGN CHOICE, unsafe, entry 242.] -/
def execHeartbeatSend (s : State) : Host.Outcome State Fault Refusal :=
  .next (if s.red.role = 0 ∨ !supRuns s then s
    else sendHeartbeat (s.tsk.tick.toNat % 10 = 0) (s.tsk.tick.toNat % 10 = 5 * b01 s.sys.partner) false false (sendHbDrop s))

/-- Whether exactly one path is up. -/
def onePath (s : State) : Bool := s.red.pathSync != s.red.pathHb

/-- A path changes its state (R383). [Log: DEDUCED, unsafe, entry 84.] -/
def setPath (sync up : Bool) (s : State) : State :=
  if (if sync then s.red.pathSync else s.red.pathHb) = up then s
  else
    let s := if sync then { s with red.pathSync := up, red.hbLossSync := satInc s.red.hbLossSync }
             else { s with red.pathHb := up, red.hbLossHb := satInc s.red.hbLossHb }
    let s := { s with red.degraded := onePath s }
    if !up && onePath s then accession 0 0x090A 4 [] s else s

/-- Dual activity resolved against this partner (R389). -/
def yieldActive (s : State) : State :=
  accession 0 0x090C 6 []
    { leaveStep (abandonAll (releaseAct s)) with red.role := 2, red.dualAct := true }

/-- The replica-determinism versions are compared (R396). -/
def compareRdv (rdv : BitVec 16) (s : State) : State :=
  let s := { s with red.peerRdv := rdv }
  if rdv = ownRdv s then { s with red.rdvMis := false }
  else
    let s := if s.red.rdvMis then s else accession 0 0x090E 4 [] { s with red.rdvMis := true }
    if s.red.role = 3 then toWarm 0x0901 5 [] s else breakResync s

/-- What a heartbeat says (R371, R382, R385, R389, R396); an active partner holds ACT_N low (R364). At start-up a partner that
hears an active one waits for the sync link. [Log: DEDUCED, unsafe, entry 83; DEDUCED, unsafe, entry 199.] -/
def hearHeartbeat (sync : Bool) (hb : Heartbeat) (s : State) : State :=
  let s := setPath sync true s
  let yields := s.red.role = 1 ∧ hb.role = 1 ∧ (epochHigher hb.epoch s.red.epoch ∨ (hb.epoch = s.red.epoch ∧ s.sys.partner))
  let s := { s with red.peerRole := hb.role, red.peerSeen := hb.role, red.actIn := !s.red.actDrv && hb.role ≠ 1 }
  let s := if yields then yieldActive s else s
  let s := { s with
    red.relinquish := s.red.relinquish || hb.relinquish,
    red.epochHeard := match s.red.epochHeard with
      | some e => if epochHigher hb.epoch e then some hb.epoch else some e
      | none => some hb.epoch }
  let s := if epochHigher hb.epoch s.red.epoch then setEpoch hb.epoch s else s
  let s := compareRdv hb.rdv s
  let s := if s.red.role = 1 ∧ (hb.role = 3 ∨ hb.role = 4) then { s with red.resync := {} } else s
  if s.sys.boot = .roleWait ∧ s.red.pairEn ∧ hb.role = 1 then
    let s := endStep6 (roleChange 2 3 s)
    if s.red.syncUp then requestResync s else s
  else if yields then requestResync s else s

/-- HEARTBEAT (R382): on the sync link or on the HB pair. -/
def execHeartbeat (sync : Bool) (h : SyncHdr) (hb : Heartbeat) (s : State) : Host.Outcome State Fault Refusal :=
  .next (if sync then syncRx true h s (hearHeartbeat true hb) else hbRx h s (hearHeartbeat false hb))

/-- Both paths are lost (R386, R394): the level of ACT_N decides for a standby in step, and another partner that does not drive it
reads it too (R398). [Log: DESIGN CHOICE, safe, entry 78.] -/
def bothLost (s : State) : State :=
  if s.red.role = 3 then
    let (high, s) := drawBool s
    if high then { s with red.actIn := true } else { dropFromStep 0x0909 [] s with red.isolated := true, red.actIn := false }
  else if s.red.role = 1 then s
  else
    let (high, s) := drawBool s
    breakResync { s with red.actIn := high }

/-- HB_PATH_LOSS (R382 to R384, R386): a loss of the sync link alone takes a standby out of step. -/
def execHbPathLoss (sync : Bool) (s : State) : Host.Outcome State Fault Refusal :=
  .next (if !s.red.pairEn ∨ !(if sync then s.red.pathSync else s.red.pathHb) then s
    else
      let s := setPath sync false s
      if pathsLost s then bothLost s
      else if sync then breakResync (dropFromStep 0x0908 [] s) else s)

/-- The sync link's version ranges of the module (R49). -/
def syncRanges : List VerRange := [(1, 0, 1)]

/-- SYNC_LINK_TRAINING (R49, R50, R61, R381, R394), from step 6 on: a lost lock takes a standby out of step by the loss of its path, a
management-only link at once. -/
def execSyncLinkTraining (up : Bool) (offer : List VerRange) (s : State) : Host.Outcome State Fault Refusal :=
  .next (if !enabled s 0x03 0 ∨ !fromStep6 s then s
    else if !up then
      if s.red.syncUp then breakResync (loseClock 6 { s with red.syncUp := false, red.syncMgmt := false, red.syncVer := 0 }) else s
    else match negotiate syncRanges offer with
      | none => breakResync (dropFromStep 0x0908 [] { s with red.syncUp := true, red.syncMgmt := true, red.syncVer := 0 })
      | some (a, b) => requestResync { s with red.syncUp := true, red.syncMgmt := false, red.syncVer := BitVec.ofNat 8 (16 * a + b) })

/-! ## Takeover (R385, R387, R388) -/

/-- In a basin the head reports the lost partner (R353, R385). -/
def reportPartner (s : State) : State :=
  let s := { s with pas.head := inBasin s && decide (s.pas.headId = s.sys.ringId) }
  if s.pas.head then report 1 6 [s.sys.ringId, if s.sys.partner then 0 else 1] 0 s else s

/-- The takeover of a standby in step (R385, R388, R391, R392): commits that it left to a record that has not come are made. -/
def takeOver (s : State) : State :=
  let s := settleOwed false [] id s
  let s := setEpoch (s.red.epoch + 1) (driveAct s)
  let s := { leaveStep (unholdAll s) with red.role := 1, red.takeovers := satInc s.red.takeovers, red.lastTake := s.tsk.tick }
  giveCluster (beginOutputs (reportPartner (accession 0 0x090B 5 [] s)))

/-- The cold start of a standby outside step (R387). -/
def coldTakeOver (s : State) : State :=
  let s := loadStored (leaveStep (abandonAll s))
  let s := setEpoch (s.red.epoch + 1) (driveAct { s with tsk.mode := .stop })
  let s := if s.sys.startMode = 1 then { s with tsk.runAt := some (s.tsk.tick + 1) } else s
  beginOutputs (reportPartner (roleChange 1 6 s))

/-- TAKEOVER (R385, R387): ACT_N has been high for 100 µs, as a standby that does not take over reads it (R398). -/
def execTakeover (s : State) : Host.Outcome State Fault Refusal :=
  .next (if !supRuns s ∨ !(pathsLost s || s.red.relinquish) then s
    else if s.red.role = 3 then takeOver s
    else if (s.red.role = 2 ∨ s.red.role = 4) ∧ s.red.warmTake then coldTakeOver s
    else if s.red.role = 2 ∨ s.red.role = 4 then { s with red.actIn := true }
    else s)

/-! ## Records, supplements (R375 to R377) -/

/-- One run control effect of the record (R375). -/
def followEffect (e : RunEffect) (s : State) : State :=
  match e with
  | .run => enterRun s
  | .stop => enterStop (dropPending s)
  | .enable n => enableTask n.toNat s
  | .disable n => disableTask n.toNat s
  | .restart n => restartTask n.toNat s
  | .trigger n => if (task s n.toNat).st = .idle then releaseTask n.toNat s else s
  | .start t => { s with tsk.runAt := some t }

/-- The host writes of a record. -/
def itemWrites (l : List RecItem) : List HostWrite :=
  l.filterMap fun i => match i with | .hostWrite word addr vals => some ⟨word, addr, vals⟩ | _ => none

/-- The run control effects of a record. -/
def itemEffects (l : List RecItem) : List RunEffect := l.filterMap fun i => match i with | .runControl e => some e | _ => none

/-- What an item of the record does after the input latch (R84, R375): run control and the other host writes come before. -/
def followItem (i : RecItem) (s : State) : State :=
  match i with
  | .hostWrite word addr vals => applyWrite true ⟨word, addr, vals⟩ s
  | .runControl _ => s
  | .editTick t => if s.prog.edit = .built then arm false t s else s
  | .undoTick t => if s.prog.edit = .none ∧ s.prog.undoAvail then arm true t s else s
  | .settings d =>
    match d with
    | .settings code inst st => (applySettings code.toNat inst.toNat st s).2
    | .pub i a b => writePub i.toNat (pubOf a b) s
    | .sub i a b => writeSub i.toNat (subOf a b) s
    | .evt i a => writePasEvt i.toNat a s
    | .enable code inst on => if on then (enableFeature code.toNat inst.toNat s).1 else disableFeature code.toNat inst.toNat s
    | .redundancy c => touchSettings { s with red.warmTake := c.getLsbD 30, red.autoResync := c.getLsbD 29 }
    | .register a v => writeShared a v s
    | .fieldEvent i v => writeFldEvt i.toNat v s
    | _ => s
  | .gpio levels => followGpio levels s
  | .switchover t => { s with red.switchAt := some t.toNat }

/-- The sources whose digests differ from the own latch (R376, R377). -/
def differing (digests : List (BitVec 64)) (s : State) : List Nat :=
  (List.range 15).filter fun k => digests.getD k 0 ≠ sourceDigest s k

/-- The record of the present tick (R84, R110, R375 to R377, R388): acknowledged, its run control effects taken, the commits of
the tick made, its other decisions taken, differing sources fetched, the releases of the tick made. [Log: DEDUCED, unsafe, entry 102.] -/
def takeRecord (body : RecordBody) (s : State) : State :=
  let t := s.tsk.tick.toNat
  let s := sendSync false 0x03 t [] { s with red.recTick := t, red.lastRecord := s.tsk.tick, red.relinquish := false }
  let s := { s with tsk.tod := body.tod, tsk.todFlags := BitVec.ofNat 2 (b01 (body.flags.getLsbD 1) + bitAt (body.flags.getLsbD 2) 1) }
  let es := itemEffects body.items
  let s := es.foldl (fun s e => followEffect e s) s
  let s := settleOwed (es.contains .stop) (itemWrites body.items) (followRelease body.evt) s
  let s := body.items.foldl (fun s i => followItem i s) (followInputs body.di s)
  let ks := differing body.digests s
  let s := joinIdle s
  let s := followRelease body.evt (noteLag (if ks.isEmpty then 5000 else 80000) s)
  let s := if ks.isEmpty then s else holdReleases t true { s with red.waits := s.red.waits ++ ks.map fun k => (t, k, []) }
  let s := ks.foldl (fun s k => sendSync false 0x04 t (beBytes 1 k) s) s
  finishJoin (giveCluster s)

/-- RECORD (R377): of the present tick, in step or after the join tick. -/
def execRecord (h : SyncHdr) (body : RecordBody) (s : State) : Host.Outcome State Fault Refusal :=
  .next (syncRx false h s fun s =>
    if (s.red.role = 3 ∨ (s.red.role = 2 ∧ joinedBy h.tick.toNat s)) ∧ h.tick = s.tsk.tick ∧ s.red.recTick ≠ h.tick.toNat then takeRecord body s else s)

/-- FETCH (R377): the data of the source as latched at that tick. -/
def execFetch (h : SyncHdr) (source : Byte) (s : State) : Host.Outcome State Fault Refusal :=
  .next (syncRx false h s fun s =>
    if s.red.role ≠ 1 then s
    else match s.red.hist.find? fun e => e.1 = h.tick.toNat with
      | some e => if source.toNat < 15 then sendParts 0x05 e.1 [source, 0] 0 (e.2.getD source.toNat []) s else s
      | none => s)

/-- The data of a source arrive in order; the last of them completes the supplement (R377). [Log: DESIGN CHOICE, unsafe, entry 82.] -/
def takeSupplement (t k offset : Nat) (more : Bool) (data : List Byte) (s : State) : State :=
  match s.red.waits.find? fun w => w.1 = t && w.2.1 = k with
  | none => s
  | some w =>
    if offset ≠ w.2.2.length then s
    else
      let all := w.2.2 ++ data
      if more then { s with red.waits := s.red.waits.map fun x => if x = w then (t, k, all) else x }
      else settleWaits t (noteAdopted k (adoptPoints t k all { s with red.waits := s.red.waits.filter (· ≠ w) }))

/-- SUPPLEMENT (R377). -/
def execSupplement (h : SyncHdr) (source : Byte) (offset : W32) (data : List Byte) (s : State) : Host.Outcome State Fault Refusal :=
  .next (syncRx false h s (takeSupplement h.tick.toNat source.toNat offset.toNat h.more data))

/-- STANDBY_PRESUME (R378): of what is due at the coming edge. -/
def execStandbyPresume (wait : StandbyWait) (s : State) : Host.Outcome State Fault Refusal :=
  .next (if s.red.role ≠ 3 then s
    else match wait with
      | .record => presumeRecord s
      | .supplement k =>
        match s.red.waits.find? fun w => w.2.1 = k.toNat && supplementLate s w with
        | some w => presumeSupplement w.1 k.toNat s
        | none => s
      | .verdict n => presumeVerdict n.toNat s)

/-! ## Verdicts and digests (R380, R381) -/

/-- DONE (R380). One that comes after a guard edge counts at the next, which an extended deadline gives the task (R96). -/
def execDone (h : SyncHdr) (n : BitVec 5) (lt : Tick) (s : State) : Host.Outcome State Fault Refusal :=
  .next (syncRx false h s fun s =>
    let t := task s n.toNat
    if s.red.role = 1 ∧ released t ∧ t.lt = lt then updTask n.toNat (fun t => { t with peerDone := true }) s else s)

/-- A verdict OVERRUN counts at the standby too where the standby has caused it, which no frame says (R380). [Log: DESIGN CHOICE, safe, entry 201.] -/
def noteVerdict (n : Nat) (commit : Bool) (s : State) : State :=
  if commit then s
  else
    let (own, s) := drawBool s
    if own then accession 0 0x0904 4 (beBytes 1 n) { s with red.peerOvr := satInc s.red.peerOvr } else s

/-- VERDICT (R380). -/
def execVerdict (h : SyncHdr) (entries : List (BitVec 5 × Tick × Bool)) (s : State) : Host.Outcome State Fault Refusal :=
  .next (syncRx false h s fun s =>
    entries.foldl (fun s e =>
      let n := e.1.toNat
      if follows s n ∧ released (task s n) ∧ (task s n).lt = e.2.1 then
        noteVerdict n e.2.2 (updTask n (fun t => { t with guarded := true, verdict := some e.2.2 }) s)
      else s) s)

/-- DIGEST (R381): compared with the own digest, or kept for the commit of the same tick. -/
def execDigest (h : SyncHdr) (n : BitVec 5) (lt : Tick) (d : BitVec 64) (s : State) : Host.Outcome State Fault Refusal :=
  .next (syncRx false h s fun s =>
    if s.red.role ≠ 1 ∧ s.red.role ≠ 2 ∧ s.red.role ≠ 3 then s
    else match s.red.ownDig.find? fun o => o.1 = n.toNat && o.2.1 = lt with
      | some o => if o.2.2 = d then s else digestMismatch n.toNat lt s
      | none => { s with red.peerDig := s.red.peerDig ++ [(n.toNat, lt, d)] })

/-- DROP_TO_WARM (R374, R380, R381, R270), on either path: the cause for a shadow bank that differs has an accession of its own. -/
def execDropToWarm (h : SyncHdr) (cause : Byte) (s : State) : Host.Outcome State Fault Refusal :=
  .next ((if h.hb then hbRx h s else syncRx false h s) fun s =>
    if cause = Config.dropCause 4 then breakResync (dropFromStep 0x0308 [] s) else breakResync (dropFromStep 0x0907 [cause] s))

/-! ## Resynchronisation, the active partner's side (R393) -/

/-- The settings of ports, publications, subscriptions and redundancy (R393, phase 1), with every meter of the M-Bus ports (R419). -/
def settingsData (s : State) : List ResyncData :=
  let ports := (List.range 8).map fun p =>
    let f := Tab.get {} s.ports.fld.ports p
    ResyncData.settings 0x10 (BitVec.ofNat 8 p) (.fieldEth ⟨f.prio1, f.gates, f.cycleNs, f.gateTick⟩)
  let serials := (List.range 6).filterMap fun q =>
    let x := ser s q
    let i := BitVec.ofNat 8 (q % 2)
    match x.rs485, x.mbus, x.can with
    | some c, _, _ => some (ResyncData.settings 0x12 i (.rs485 c))
    | none, some c, _ => some (.settings 0x13 i (.mbus c))
    | none, none, some c => some (.settings 0x14 i (.can c))
    | none, none, none => none
  let gpios := (List.range 6).map fun p => let g := gpio s p; ResyncData.settings 0x25 (BitVec.ofNat 8 p) (.gpio g.dir g.filter g.bit)
  let enables := (featureOrder.filter fun f => (0x10 ≤ f.1 ∧ f.1 ≤ 0x14) ∨ f.1 = 0x25).map fun f =>
    ResyncData.enable (BitVec.ofNat 8 f.1) (BitVec.ofNat 8 f.2) (enabled s f.1 f.2)
  ports ++ [.settings 0x11 0 (.plGroups s.ports.fld.groups), .settings 0x11 0 .plClear,
    .settings 0x11 0 (.plNodes (s.ports.fld.nodes.filterMap fun n => n.2.entry))] ++ serials ++ gpios ++
  (s.pas.pubs.map fun e => .pub (BitVec.ofNat 6 e.1) (lo32 (pubWord e.2)) (lo32 e.2.count.toNat)) ++
  (s.pas.subs.map fun e => .sub (BitVec.ofNat 7 e.1) (lo32 (subWord e.2)) (lo32 e.2.base.toNat)) ++
  (s.pas.evts.map fun e => .evt (BitVec.ofNat 6 e.1) (lo32 (bitAt (e.2.own && !e.2.last) 31 + e.2.addr.toNat))) ++
  [.redundancy (peek s 0x90004), .meters (s.ports.meters.filterMap (·.2))] ++ enables ++
  ([0x60000, 0xA0024, 0xC0004] ++ (List.range 8).map fun p => 0xC1000 + 0x40 * p).map (fun a => ResyncData.register (BitVec.ofNat 20 a) (peek s a)) ++
  (s.ports.fld.evts.map fun e => .fieldEvent (BitVec.ofNat 5 e.1) (lo32 (bitAt e.2.1 31 + e.2.2.toNat)))

/-- The contents of a bank. -/
def bankData (shadow : Bool) (b : Bank) : List ResyncData :=
  (b.segs.map fun e => .segs shadow (BitVec.ofNat 14 e.1) [e.2]) ++ (b.parcels.map fun e => .parcels shadow (BitVec.ofNat 21 e.1) [e.2]) ++
  (b.cats.map fun e => .cats shadow (BitVec.ofNat 13 e.1) [e.2]) ++ (b.decs.map fun e => .decs shadow (BitVec.ofNat 4 e.1) [e.2]) ++
  (b.ucode.map fun e => .ucode shadow (BitVec.ofNat 10 e.1) [e.2]) ++
  (b.tasks.map fun e => .taskDef shadow (BitVec.ofNat 5 e.1)
    [e.2.cfg, e.2.period, e.2.deadline, e.2.trig, e.2.trap, e.2.fbase, e.2.flen, e.2.quota])

/-- A bank as it is copied where its digest differs from the standby's (R249, R393, phase 2). -/
def bankCopy (shadow held : Bool) (b : Bank) (own other : BitVec 64) : List ResyncData :=
  if own = other then [] else .bankClear shadow held :: (if held then bankData shadow b else [])

/-- The image layout (R67). -/
def layoutData (s : State) : List ResyncData :=
  let g := fun (word : Bool) (rs : List Region) => rs.zipIdx.map fun r =>
    ResyncData.region (BitVec.ofNat 7 r.2) word r.1.start r.1.count r.1.cls r.1.owner
  g false s.prog.bitReg ++ g true s.prog.wordReg

/-- The depot pages that the program writes (R393, R503). -/
def depotData (s : State) : List ResyncData := (List.range 512).map fun k => .depot (BitVec.ofNat 10 (512 + k)) (storedBytes s (512 + k))

/-- How the Plainline nodes stand, which the standby sends to from its takeover on (R391). [Log: DESIGN CHOICE, unsafe, entry 205.] -/
def nodeData (s : State) : List ResyncData :=
  s.ports.fld.nodes.map fun e => .nodeRun (BitVec.ofNat 16 e.1) (BitVec.ofNat 8 (nodeCode e.2.st)) e.2.ver

/-- Phases 1 to 3 (R393): the image layout, in which the mapped points of the settings lie, the settings, banks that differ, and the bulk copy, from which on changed blocks are marked. [Log: DEDUCED, unsafe, entry 86.] -/
def serveResync (active shadow : BitVec 64) (s : State) : State :=
  let s := { s with red.resync := { phase := 3, start := s.sys.upTicks }, red.peerRole := 2, red.hist := [],
                    red.builtDig := some (shadowDigest s) }
  sendStates ([.phase 1 0] ++ layoutData s ++ settingsData s ++ nodeData s ++ [.phase 2 0, .inits s.prog.inits] ++
    bankCopy false true (activeBank s) (activeBank s).digest active ++ bankCopy true s.prog.held (shadowBank s) (shadowDigest s) shadow ++
    [.phase 3 0] ++ (usedBlocks s).map (blockData s) ++ depotData s ++ taskStates s ++
    [runData s, editData s, ownerData s, .tick s.tsk.tick s.pas.ofs, .epoch s.red.epoch]) s

/-- RESYNC_REQUEST (R370, R393, R396). -/
def execResyncRequest (h : SyncHdr) (ask : ResyncAsk) (s : State) : Host.Outcome State Fault Refusal :=
  .next (syncRx false h s fun s =>
    if s.red.role ≠ 1 then s
    else
      let s := compareRdv ask.rdv s
      match barred s with
      | some c => dropStandby 3 (pairBarred c s)
      | none => serveResync ask.active ask.shadow s)

/-- The join tick is announced (R393, phase 5). -/
def announceJoin (s : State) : State :=
  let j := addTicks s.tsk.tick.toNat 100
  sendControl 0x02 (beBytes 6 j) { s with red.resync := { s.red.resync with phase := 5, join := some j } }

/-- RESYNC_ROUND (R393): the next round copies the blocks marked since, until at most 256 KiB are marked or 8 rounds are
done. -/
def execResyncRound (s : State) : Host.Outcome State Fault Refusal :=
  .next (let r := s.red.resync
    if s.red.role ≠ 1 ∨ !s.red.syncUp ∨ r.phase.toNat < 3 ∨ r.join.isSome then s
    else if r.marked.length ≤ 64 ∨ 8 ≤ r.round.toNat then announceJoin s
    else sendMarked (sendState (.phase 4 (r.round + 1)) { s with red.resync := { r with phase := 4, round := r.round + 1 } }))

/-! ## Resynchronisation, the data taken (R393) -/

/-- Change a program bank by its part in the copy. -/
def updCopied (shadow : Bool) (f : Bank → Bank) (s : State) : State := updBank (s.prog.active != shadow) f s

/-- States of a task as the codes of R104 give them. -/
def stateOf (c : Nat) : TState :=
  match c with
  | 0 => .absent | 1 => .disabled | 7 => .faulted | _ => .idle

/-- A decision that the other partner had accepted and not made at the switchover waits here for the next tick (R110, R390).
[Log: DESIGN CHOICE, unsafe, entry 254.] -/
def keepEffect (e : RunEffect) (s : State) : State :=
  match e with
  | .run => s
  | .stop => { dropPending s with tsk.stopReq := true }
  | .enable n => { s with tsk.enables := s.tsk.enables ++ [n.toNat] }
  | .disable n => { s with tsk.disables := s.tsk.disables ++ [n.toNat] }
  | .restart n => { s with tsk.restarts := s.tsk.restarts ++ [n.toNat] }
  | .trigger n =>
    if (task s n.toNat).evtPend ∨ (task s n.toNat).lt = s.tsk.tick then s else { s with tsk.triggers := s.tsk.triggers ++ [n.toNat] }
  | .start t => { s with tsk.runAt := some t }

/-- Whether the data are decisions that the old active partner hands over (R110, R390). -/
def handedOver (d : ResyncData) : Bool :=
  match d with | .pending .. => true | .edit .. => true | _ => sharedSettings d

/-- Resynchronisation data enter the standby (R74, R393). -/
def applyState (d : ResyncData) (s : State) : State :=
  match d with
  | .bits a vs => { s with tsk.bits := Tab.setRange false s.tsk.bits a.toNat vs }
  | .words a vs => { s with tsk.words := Tab.setRange 0 s.tsk.words a.toNat vs }
  | .depot p data => firmwareWrite p.toNat (padTo 256 data) s
  | .parcels sh a vs => updCopied sh (fun b => { b with parcels := Tab.setRange 0 b.parcels a.toNat vs }) s
  | .segs sh a vs => updCopied sh (fun b => { b with
      segs := Tab.setRange 0 b.segs a.toNat vs, declared := Tab.setRange false b.declared a.toNat (vs.map fun v => v.getLsbD 31) }) s
  | .cats sh a vs => updCopied sh (fun b => { b with cats := Tab.setRange 0 b.cats a.toNat vs }) s
  | .decs sh a vs => updCopied sh (fun b => { b with decs := Tab.setRange 0 b.decs a.toNat vs }) s
  | .ucode sh a vs => updCopied sh (fun b => { b with ucode := Tab.setRange 0 b.ucode a.toNat vs }) s
  | .taskDef sh n ws =>
    let w := fun (i : Nat) => ws.getD i 0
    updCopied sh (fun b => { b with tasks := Tab.set {} b.tasks n.toNat ⟨w 0, w 1, w 2, w 3, w 4, w 5, w 6, w 7⟩ }) s
  | .taskState n c pend lost lt ovr consec sticky =>
    let busy := 3 ≤ c.toNat ∧ c.toNat ≤ 6
    let l := s.red.resync.busy.filter (· ≠ n.toNat)
    let s := { s with red.resync := { s.red.resync with busy := if busy then l ++ [n.toNat] else l } }
    if released (task s n.toNat) then s
    else updTask n.toNat (fun t => { t with st := stateOf c.toNat, evtPend := pend, evtLost := lost, lt := lt, ovrTotal := ovr, ovrConsec := consec, sticky := sticky }) s
  | .tick t ofs => accession 0 0x0402 3 (beBytes 6 s.tsk.tick.toNat ++ beBytes 6 t.toNat) { s with tsk.tick := t, pas.ofs := ofs }
  | .epoch e => if e = s.red.epoch then s else setEpoch e s
  | .settings code inst st => (fun (r : BitVec 16 × State) => touchSettings r.2) (if blockFits code.toNat st then writeBlock inst.toNat st s else (0, s))
  | .region i word first count cls owner =>
    let g := fun (l : List Region) => l.take i.toNat ++ [⟨first, count, cls, owner⟩]
    if word then { s with prog.wordReg := g s.prog.wordReg } else { s with prog.bitReg := g s.prog.bitReg }
  | .pub i a b => touchSettings { s with pas.pubs := Tab.set {} s.pas.pubs i.toNat (pubOf a b), pas.pubSet := Tab.set {} s.pas.pubSet i.toNat (pubOf a b) }
  | .sub i a b => touchSettings { s with pas.subs := Tab.set {} s.pas.subs i.toNat (subOf a b), pas.subSet := Tab.set {} s.pas.subSet i.toNat (subOf a b) }
  | .evt i a =>
    let v : PasEvt := { own := a.getLsbD 31, addr := a.setWidth 22 }
    touchSettings { s with pas.evts := Tab.set {} s.pas.evts i.toNat v, pas.evtSet := Tab.set {} s.pas.evtSet i.toNat v }
  | .redundancy c => touchSettings { s with red.warmTake := c.getLsbD 30, red.autoResync := c.getLsbD 29 }
  | .register a v => writeShared a v s
  | .fieldEvent i v => writeFldEvt i.toNat v s
  | .meters l => touchSettings { s with ports.meters := l.foldl (fun t m => Tab.set none t m.index.toNat (some m)) [] }
  | .enable code inst on => if on then (enableFeature code.toNat inst.toNat s).1 else disableFeature code.toNat inst.toNat s
  | .run mode gen start =>
    { s with tsk.mode := if mode = 1 then .run else if mode = 2 then .step else .stop, tsk.runAt := start, prog.gen := gen }
  | .phase p r => { s with red.resync := { s.red.resync with phase := p, round := r } }
  | .inits l => { s with prog.inits := l }
  | .bankClear sh held =>
    let s := updCopied sh (fun _ => {}) s
    { s with red.resync := { s.red.resync with copied := s.red.resync.copied ++ [sh] }, prog.held := if sh then held else s.prog.held }
  | .edit st t undo undone avail dirs owned puts =>
    let st : EditState := if st = 3 then .built else if st = 4 then .armed else if st = 5 then .draining else .none
    let s := if st = .none then s else (claimFeature 0x22 0 s).1
    { s with prog.edit := st, prog.armTick := t, prog.armUndo := undo && st = .armed, prog.undone := undone, prog.undoAvail := avail,
             prog.dirs := dirs, prog.owned := owned, prog.puts := puts }
  | .ownerBits l => { s with tsk.hostOver := l.foldl (fun t e => Tab.set none t e.1.toNat (some e.2)) [] }
  | .nodeRun n st v => showHealth n.toNat (updNode n.toNat (fun x => { x with st := nodeOf st.toNat, ver := v }) s)
  | .pending es ws =>
    let s := es.foldl (fun s e => keepEffect e s) s
    { s with tsk.writes := s.tsk.writes ++ ws.map fun w => ⟨w.1, w.2.1, w.2.2⟩ }
  | .view _ _ bs ws =>
    ws.foldl (fun s e => setWord none e.1.toNat e.2 s) (bs.foldl (fun s e => setBit none e.1.toNat e.2 s) s)

/-- STATE (R393), and what the old active partner hands over at a switchover (R390). -/
def execState (h : SyncHdr) (data : ResyncData) (s : State) : Host.Outcome State Fault Refusal :=
  .next (syncRx false h s fun s =>
    let view : Bool := match data with | .view .. => true | _ => false
    if s.red.role = 2 ∨ (s.red.role = 3 ∧ view) then applyState data s
    else if s.red.role = 1 ∧ s.red.peerRole = 3 ∧ handedOver data then
      (if sharedSettings data then followItem (.settings data) s else applyState data s)
    else s)

/-- The banks that were copied are whole: their digests, and the store of R268 for the active one (R393, phase 2). -/
def takeBanks (s : State) : State :=
  let l := s.red.resync.copied
  let whole := fun (b : Bank) => { b with digest := bankDigest b }
  let s := if l.isEmpty then s else updCopied false whole s
  let s := if l.isEmpty || !s.prog.held then s else updCopied true whole s
  if l.contains false then startStore s else s

/-- JOIN (R393, phase 5). -/
def execJoin (h : SyncHdr) (tick : Tick) (s : State) : Host.Outcome State Fault Refusal :=
  .next (syncRx false h s fun s =>
    if s.red.role ≠ 2 ∨ s.red.resync.join.isSome then s
    else { takeBanks s with red.resync := { s.red.resync with phase := 5, join := some tick.toNat } })

/-- JOIN_TICK (R393, phase 6, R394). -/
def execJoinTick (s : State) : Host.Outcome State Fault Refusal :=
  .next (match s.red.resync.join with
    | some j => if s.red.role = 2 ∧ reached j s.tsk.tick.toNat then
        finishJoin (joinIdle { s with red.resync := { s.red.resync with phase := 6 } })
      else s
    | none => s)

/-! ## Switchover and edits (R269, R270, R390) -/

/-- SWITCHOVER (R390). -/
def execSwitchover (h : SyncHdr) (tick : Tick) (s : State) : Host.Outcome State Fault Refusal :=
  .next (syncRx false h s fun s => if s.red.role = 3 then { s with red.switchAt := some tick.toNat } else s)

/-- SWITCHOVER_TICK (R390): of an S whose edge has made its commits. -/
def execSwitchoverTick (s : State) : Host.Outcome State Fault Refusal :=
  .next (switchoverNow s)

/-- EDIT (R269, R270): the standby acts on a forwarded edit command; one that cannot build reports no shadow bank. -/
def execEdit (h : SyncHdr) (opcode : BitVec 16) (params : List Byte) (s : State) : Host.Outcome State Fault Refusal :=
  .next (syncRx false h s fun s =>
    if !standby s then s
    else match opcode.toNat with
      | 0x0310 => (editOpenOp s).2.2
      | 0x0311 => if s.prog.edit = .opened then { s with prog.editBuf := putBlock s.prog.editBuf (beNat (params.take 4)) (params.drop 4) } else s
      | 0x0312 => let r := editCloseOp s; if r.1 = 0 then r.2 else sendBuilt 0 r.2
      | 0x0314 => (editAbortOp s).2
      | _ => s)

/-- BUILT (R270). -/
def execBuilt (h : SyncHdr) (digest : BitVec 64) (s : State) : Host.Outcome State Fault Refusal :=
  .next (syncRx false h s fun s => if s.red.role = 1 then { s with red.builtDig := some digest } else s)

end Sys2Proof.Machine
end

