-- ==== Sys2Proof/Machine/Update.lean ====
section
/-! DEFINITION. Firmware update (R548 to R566) and operator keys (R539 to R541). -/

namespace Sys2Proof.Machine

/-! ## Images (R549, R550) -/

/-- A number in bytes [a, a + n) of bytes. -/
def bytesNat (b : List Byte) (a n : Nat) : Nat := beNat ((b.drop a).take n)

/-- Whether a dual signature by the Isamus firmware signing keys is valid over a message (R536, R549, R562): the public keys are those
whose hashes the module holds. [Log: DESIGN CHOICE, safe, entry 232.] -/
def firmwareVerify (m sig : List Byte) : Bool :=
  let ed := Config.firmwareKey false
  let dsa := Config.firmwareKey true
  decide (sha512 ed = Config.firmwareKeyHash false ∧ sha512 dsa = Config.firmwareKeyHash true) && dualVerify ed dsa m sig

/-- A dual signature by the module's identity keys (R535, R536) with the random bytes of draw n. -/
def identitySign (n : Nat) (m : List Byte) : List Byte :=
  dualSign (Config.identityKey false) (Config.identityKey true) (padTo 32 (Config.freeBytes n)) m

/-- Slot sizes of the parts (R548). -/
def slotSize : Nat → Nat
  | 0 => 8388608 | 1 => 2097152 | 2 => 4194304 | 3 => 1048576 | _ => 524288

/-- Units of an image length (R552). -/
def unitCount (n : Nat) : Nat := (n + 511) / 512

/-- Whether a provides entry of a header meets interface i, major m, lowest minor n (R550). -/
def provides (h : List Byte) (i m n : Nat) : Bool :=
  (List.range (bytesNat h 22 1)).any fun e =>
    bytesNat h (88 + 4 * e) 1 = i && bytesNat h (89 + 4 * e) 1 = m && decide (n ≤ bytesNat h (90 + 4 * e) 1)

/-- The lowest rule index of a requires entry that no image of the set meets (R550). -/
def brokenRule (hs : List (List Byte)) : Option Nat :=
  (hs.zipIdx.flatMap fun h => (List.range (bytesNat h.1 23 1)).map fun e => (h, e)).findSome? fun x =>
    let h := x.1.1
    let e := x.2
    if hs.any fun g => provides g (bytesNat h (152 + 4 * e) 1) (bytesNat h (153 + 4 * e) 1) (bytesNat h (154 + 4 * e) 1) then none
    else some (16 * x.1.2 + e)

/-- The header of the running image of part k. -/
def runHeader (s : State) (k : Nat) : List Byte := slotHeader k (runSlot (partOf s k))
/-- The header of the other image of part k. -/
def idleHeader (s : State) (k : Nat) : List Byte := slotHeader k (idleSlot (partOf s k))

/-- The headers of the set that would run with the parts of `l` switched. -/
def switchedSet (s : State) (l : List Nat) : List (List Byte) :=
  (List.range 5).map fun k => if l.contains k then idleHeader s k else runHeader s k

/-- Change the slot of part k that is not running. -/
def updIdle (k : Nat) (f : Slot → Slot) (s : State) : State :=
  { s with upd.parts := Tab.upd {} s.upd.parts k fun p => if p.runB then { p with a := f p.a } else { p with b := f p.b } }

/-! ## Download (R551 to R555) -/

/-- Page i of the bitmap of a slot's received units, one bit per unit (R554). [Log: DESIGN CHOICE, unsafe, entry 234.] -/
def bitmapBytes (x : Slot) (i : Nat) : List Byte :=
  (List.range 256).map fun j => BitVec.ofNat 8 (bitMap 8 fun b => Tab.get false x.units (2048 * i + 8 * j + b))

/-- Whether a write of the download state is queued or waits for a place. -/
def savingDownload (s : State) : Bool := (List.range 18).any fun i => firmwareWaits s (16 + i)

/-- The download state of part k is written (R554): the bitmap copy that the record does not name, and then the record, whose copy is the
one that its reader does not take (R515). VERIFYING is never stored (R555). -/
def issueSave (k : Nat) (bitmap : Bool) (s : State) : State :=
  let taken := twinTaken s 8
  let named : Bool := match taken with | some (.download _ _ _ _ c, _) => c | _ => false
  let copy := named != bitmap
  let p := partOf s k
  let x := idleSlot p
  let v : TwinVal := .download (BitVec.ofNat 3 k) (lo32 x.length) (!p.runB) (BitVec.ofNat 4 (slotCode (if x.st = .verifying then .complete else x.st))) copy
  let (pg, sq) : Nat × W32 := match taken with | none => (16, 1) | some (_, b, q) => (if b then 16 else 17, q + 1)
  let c : TwinCopy := { seq := sq, val := some v }
  let s := if bitmap then (List.range 8).foldl (fun s i => firmwareWrite (bitmapPage copy + i) (bitmapBytes x i) s) s else s
  queueOrWait pg (twinBytes 8 c) (.record pg c) s

/-- The download state of part k is to be saved; while an earlier save is not yet written, it waits (R515, R554). -/
def saveDownload (k : Nat) (bitmap : Bool) (s : State) : State :=
  if s.depot.pfail then s
  else if savingDownload s then
    { s with upd.saveDue := some (k, bitmap || (match s.upd.saveDue with | some (_, b) => b | none => false)) }
  else issueSave k bitmap s

/-- The save that waits follows the one that has been written. -/
def saveNext (s : State) : State :=
  match s.upd.saveDue with
  | some (k, b) => if savingDownload s then s else issueSave k b { s with upd.saveDue := none }
  | none => s

/-- Whether the boot selector, as stored or as last written, names the other slot of part k as the one to return to (R551). -/
def returnsTo (s : State) (k : Nat) : Bool :=
  let names := fun (x : Option TwinVal) => match x with
    | some (.boot _ t b _ _ _) => t.getLsbD k && b.getLsbD k != (partOf s k).runB
    | _ => false
  names (twinNow s 0) || names ((twinTaken s 0).map (·.1))

/-- The open download ends and UPDATE is released. -/
def closeDownload (s : State) : State := releaseFeature 0x23 0 { s with upd.openPart := none, upd.blocks := 0 }

/-- UPD_BEGIN (R551): a status, reply bytes and the new state. -/
def updBeginOp (k len : Nat) (s : State) : BitVec 16 × List Byte × State :=
  let p := partOf s k
  let slot : List Byte := [if p.runB then 0 else 1]
  let other : Bool := match s.upd.openPart with | some q => decide (q ≠ k) | none => false
  if 5 ≤ k ∨ len < 3886 ∨ slotSize k < len then (0x10, [], s)
  else if other || inTrial s || returnsTo s k then (0x11, [], s)
  else if s.upd.openPart = some k ∧ (idleSlot p).length = len then (0, slot, s)
  else
    let r := claimFeature 0x23 0 s
    match r.2 with
    | some n => (0x13, [BitVec.ofNat 8 n, (claimAt r.1 n).code, (claimAt r.1 n).inst, 0], r.1)
    | none =>
      let s := updIdle k (fun _ => { st := .receiving, length := len }) { r.1 with upd.openPart := some k, upd.blocks := 0 }
      (0, slot, saveDownload k true s)

/-- Whether the reserved bytes of a header are 0 and its counts of entries within the tables (R549). -/
def headerForm (d : List Byte) : Bool :=
  let zero := fun (a n : Nat) => ((d.drop a).take n).all (· = 0)
  zero 5 1 && zero 13 3 && zero 224 288 && (List.range 32).all (fun e => zero (91 + 4 * e) 1) &&
  decide (bytesNat d 22 1 ≤ 16 ∧ bytesNat d 23 1 ≤ 16)

/-- The checks of the block at offset 0 (R553): the first that fails. [Log: DESIGN CHOICE, safe, entry 237.] -/
def firstBlock (k len : Nat) (d : List Byte) : BitVec 16 :=
  if bytesNat d 0 2 ≠ 0x1A6E ∨ bytesNat d 2 1 ≠ 1 ∨ !headerForm d then 0x801
  else if bytesNat d 4 1 ≠ k then 0x801
  else if 3885 + bytesNat d 16 4 ≠ len then 0x801
  else if bytesNat d 6 2 ≠ 0x6424 ∨ Config.hwRev.toNat < bytesNat d 8 1 ∨ bytesNat d 9 1 < Config.hwRev.toNat then 0x802
  else if firmwareVerify (d.take 512) ((d.drop 512).take 3373) then 0 else 0x801

/-- One unit is written to the flash (R552, R554): a unit received already is kept, and one that an earlier run wrote with
other data holds neither version. -/
def writeUnit (u : Nat) (data : List Byte) (x : Slot) : Slot :=
  if Tab.get false x.units u then x
  else
    let old := Tab.range 0 x.image (512 * u) data.length
    { x with units := Tab.set false x.units u true, written := Tab.set false x.written u true,
             spoiled := x.spoiled || (Tab.get false x.written u && decide (old ≠ data)),
             image := Tab.setRange 0 x.image (512 * u) data }

/-- UPD_BLOCK (R552, R553): a status, the units received and the new state. [Log: DEDUCED, unsafe, entry 116.] -/
def updBlockOp (k ofs : Nat) (data : List Byte) (s : State) : BitVec 16 × List Byte × State :=
  let x := idleSlot (partOf s k)
  let stop := ofs + data.length
  if ofs % 512 ≠ 0 then (0x10, [], s)
  else if s.upd.openPart ≠ some k then (0x12, [], s)
  else if x.length < stop ∨ (data.length % 512 ≠ 0 ∧ stop ≠ x.length) ∨ data = [] ∨
      (ofs = 0 ∧ data.length < min 4096 x.length) then (0x10, [], s)
  else
    let first : Bool := decide (ofs = 0) && !Tab.get false x.units 0
    let st := if first then firstBlock k x.length data else 0
    if st ≠ 0 then
      (st, [], accession 0 0x0807 3 [BitVec.ofNat 8 k] (saveDownload k false (closeDownload (updIdle k (fun _ => {}) s))))
    else
      let y := (chunks 512 data.length data).zipIdx.foldl (fun x c => writeUnit (ofs / 512 + c.2) c.1 x) x
      let y := if first then { y with header := data.take 512, ver := BitVec.ofNat 24 (bytesNat data 10 3) } else y
      let n := y.units.length
      let y := if y.st = .receiving ∧ n = unitCount y.length then { y with st := .complete } else y
      let s := updIdle k (fun _ => y) { s with upd.blocks := s.upd.blocks + 1 }
      let s := if s.upd.blocks % 64 = 0 ∨ y.st = .complete then
          saveDownload k true s
        else s
      (0, beBytes 4 n, s)

/-- Whether the payload of a slot matches its header's HASH (R555). -/
def payloadOk (x : Slot) : Bool :=
  !x.spoiled && decide (sha512 (Tab.range 0 x.image 3885 (x.length - 3885)) = (x.header.drop 24).take 64)

/-- The boot ROM's verification of a SUP image that R555 has found valid passes at the resets that follow (R56). -/
def supVerified (k : Nat) (ok : Bool) (s : State) : State :=
  if k ≠ 0 ∨ !ok then s
  else if (partOf s 0).runB then { s with sys.env.supA := true } else { s with sys.env.supB := true }

/-- The end of a verification of part k (R555). -/
def verifyEnd (k : Nat) (s : State) : Bool × State :=
  let ok := payloadOk (idleSlot (partOf s k))
  let s := supVerified k ok s
  (ok, closeDownload (saveDownload k false (updIdle k (fun x => { x with st := if ok then .valid else .invalid }) s)))

/-! ## Activation, confirmation, rejection (R556 to R566) -/

/-- One twin-record write of the boot selector puts the parts of `l` on trial, in their slots that are not running (R556, R563). -/
def activate (l : List Nat) (s : State) : State :=
  let x := selectorOf s
  let m : BitVec 5 := BitVec.ofNat 5 (bitMap 5 fun k => l.contains k)
  let runs : BitVec 5 := BitVec.ofNat 5 (bitMap 5 fun k => (partOf s k).runB)
  let y : Selector := { x with
    slot := (x.slot &&& ~~~m) ||| (~~~runs &&& m), trial := m, back := (x.slot &&& ~~~m) ||| (runs &&& m), rejected := x.rejected &&& ~~~m, pair := s.red.pairEn, basin := inBasin s }
  let s := l.foldl (fun s k => updIdle k (fun z => { z with st := .trial }) s) s
  let s := twinWrite 1 (.trial 0) (twinWrite 0 (selectorVal y) s)
  accession 0 0x0802 3 [] { s with sys.actPending := true }

/-- UPD_ACTIVATE and UPD_MANIFEST at an ACTIVE partner whose standby is in step (R565). -/
def updateHeldBack (s : State) : Bool := decide (s.red.role = 1 ∧ s.red.peerRole = 3)

/-- Whether SAF allows its update (R470, R556). -/
def safUnlocked (s : State) : Bool := s.dio.safStatus.getLsbD 28

/-- UPD_ACTIVATE (R556, R565). -/
def updActivateOp (k : Nat) (s : State) : BitVec 16 × List Byte × State :=
  let st := (idleSlot (partOf s k)).st
  if 5 ≤ k then (0x10, [], s)
  else if inTrial s || updateHeldBack s then (0x11, [], s)
  else if st ≠ .valid ∧ st ≠ .rejected then (0x12, [], s)
  else match brokenRule (switchedSet s [k]) with
  | some n => (0x802, beBytes 2 n, s)
  | none => if k = 4 ∧ !safUnlocked s then (0x803, [], s) else (0, [], activate [k] s)

/-- The image that a manifest entry names: false the running one, true the other one (R563). -/
def manifestSlot (s : State) (k : Nat) (hash : List Byte) : Option Bool :=
  let st := (idleSlot (partOf s k)).st
  if sha512 (runHeader s k) = hash then some false
  else if (st = .valid ∨ st = .rejected ∨ st = .complete) ∧ sha512 (idleHeader s k) = hash then some true
  else none

/-- Images that a manifest names and that are only COMPLETE are verified first (R563). -/
def verifyAll (l : List Nat) (s : State) : Bool × State :=
  l.foldl (fun x k =>
    if (idleSlot (partOf x.2 k)).st = .complete then
      let r := verifyEnd k x.2
      (x.1 && r.1, r.2)
    else x) (true, s)

/-- UPD_MANIFEST (R562, R563, R565): a failure leaves every part as it was. [Log: DESIGN CHOICE, unsafe, entry 117; DEDUCED, unsafe, entry 256.] -/
def updManifestOp (m : List Byte) (s : State) : BitVec 16 × List Byte × State :=
  let entry := fun (k : Nat) => (m.drop (8 + 68 * k)).take 68
  let found := (List.range 5).map fun k => manifestSlot s k ((entry k).drop 4)
  let order := (List.range 5).all fun k => decide (bytesNat (entry k) 0 1 = k)
  if 4096 < m.length then (0x01, [], s)
  else if inTrial s || updateHeldBack s then (0x11, [], s)
  else if bytesNat m 0 2 ≠ 0x1A6F ∨ bytesNat m 2 2 ≠ 0x0100 ∨ !order ∨ m.length < 3721 ∨ !firmwareVerify (m.take 348) ((m.drop 348).take 3373) ∨
      found.any (·.isNone) then (0x801, [], s)
  else
    let l := (List.range 5).filter fun k => found.getD k none = some true
    let r := verifyAll l s
    if !r.1 then (0x801, [], s)
    else match brokenRule (switchedSet r.2 l) with
    | some n => (0x802, beBytes 2 n, s)
    | none => if l.contains 4 ∧ !safUnlocked s then (0x803, [], s) else if l.isEmpty then (0, [], r.2) else (0, [], activate l r.2)

/-- The settings selector goes to the converted copy once its SUP is confirmed (R561). -/
def switchSettings (s : State) : State :=
  let g := settingsSel s
  let f := formatOf (runVer s 0)
  if g.2 ≠ f ∧ s.upd.settingsRead ∧ s.upd.storing = none then twinWrite 4 (.settings (!g.1) f) s else s

/-- The confirmation of a trial (R558, R561). [Log: DEDUCED, unsafe, entry 118.] -/
def confirmTrial (s : State) : State :=
  let s := twinWrite 1 (.trial 0) (twinWrite 0 (selectorVal { selectorOf s with trial := 0, back := 0 }) s)
  let calm := fun (x : Slot) => if x.st = .trial then { x with st := .running } else x
  let s := { s with upd.windowEnd := 0, upd.parts := s.upd.parts.map fun e => (e.1, { e.2 with a := calm e.2.a, b := calm e.2.b }) }
  accession 0 0x0804 3 [] (switchSettings s)

/-- Whether the running set is on trial and its checks have passed (R558). -/
def canConfirm (s : State) : Bool := inTrial s && !s.sys.actPending && !s.sys.resetPending && checksPass s

/-- UPD_AUTO_CONFIRM (R558). -/
def execUpdAutoConfirm (s : State) : Host.Outcome State Fault Refusal :=
  .next (if canConfirm s && !s.upd.mode then confirmTrial s else s)

/-- A reset as by RESET (0x0105) (R51, R525). [Log: DESIGN CHOICE, unsafe, entry 114.] -/
def commandReset (s : State) : State := selfReset 3 (writeImage s)

/-- UPD_TRIAL_EXPIRED (R559). -/
def execUpdTrialExpired (s : State) : Host.Outcome State Fault Refusal :=
  .next (if inTrial s && !s.sys.actPending && supRuns s then commandReset (accession 0 0x0808 5 [] s) else s)

/-- ACTIVATION_RESET (R556, R560, R563): after the write of the boot selector. -/
def execActivationReset (s : State) : Host.Outcome State Fault Refusal :=
  .next (let writing := (s.depot.queue.any fun w => (w.twin.map (·.1)) = some 0) || (Tab.get none s.depot.twinNext 0).isSome
    if (s.sys.actPending || s.sys.resetPending) && !writing then commandReset s else s)

/-! ## Operator keys (R539 to R541) -/

/-- The key index and role of enrolment slot i. -/
def slotKey (s : State) (i : Nat) : Nat × Nat :=
  (beNat (depotBytes s (slotBase i) 2), (depotByte s (slotBase i + 2)).toNat)
/-- The Ed25519 and the ML-DSA-65 key of enrolment slot i. -/
def slotKeys (s : State) (i : Nat) : List Byte × List Byte :=
  (depotBytes s (slotBase i + 4) 32, depotBytes s (slotBase i + 36) 216 ++ depotBytes s (slotBase i + 256) 1736)

/-- The slot in use that holds a key index. -/
def slotOf (s : State) (index : Nat) : Option Nat :=
  (List.range 16).find? fun i => slotInUse s i && decide ((slotKey s i).1 = index)

/-- The 2,048 bytes of a slot (R541). -/
def slotImage (index role : Nat) (ed mldsa : List Byte) : List Byte :=
  let head := beBytes 2 index ++ [BitVec.ofNat 8 role, 1] ++ padTo 32 ed ++ mldsa.take 216
  let rest := padTo 1792 (mldsa.drop 216)
  head ++ beBytes 4 (crc32c (head ++ [0, 0, 0, 0] ++ rest)) ++ rest

/-- KEY_ENROL (R540, R541): a status, the page whose write ends it, and the new state. [Log: DEDUCED, unsafe, entry 119.] -/
def keyEnrolOp (index role : Nat) (ed mldsa : List Byte) (s : State) : BitVec 16 × Nat × State :=
  if role = 0 ∨ 3 < role then (0x10, 0, s)
  else
    let i := match slotOf s index with | some i => some i | none => (List.range 16).find? fun i => !slotInUse s i
    match i with
    | none => (0x11, 0, s)
    | some i =>
      let b := slotImage index role ed mldsa
      let p0 := 256 + 8 * i
      let s := [1, 2, 3, 4, 5, 6, 7, 0].foldl (fun s j => firmwareWrite (p0 + j) ((b.drop (256 * j)).take 256) s) s
      (0, p0, accession 0 0x0E03 3 (beBytes 2 index ++ beBytes 1 role) s)

/-- KEY_REMOVE (R540, R541): the sessions proved with the key end at once. [Log: DEDUCED, unsafe, entry 141.] -/
def keyRemoveOp (index : Nat) (s : State) : BitVec 16 × State :=
  match slotOf s index with
  | none => (0x10, s)
  | some i =>
    let role := (slotKey s i).2
    let b := depotBytes s (slotBase i) 256
    let s := firmwareWrite (256 + 8 * i) (b.take 3 ++ [0] ++ b.drop 4) s
    let s := (s.host.sessions.filter fun x => x.proved && x.keyIdx.toNat = index).foldl (fun s x => endSession x.ep s) s
    (0, accession 0 0x0E04 3 (beBytes 2 index ++ beBytes 1 role) s)

/-- The enrolled keys (R320). -/
def keyListBytes (s : State) : List Byte :=
  let l := (List.range 16).filter (slotInUse s)
  beBytes 2 l.length ++ l.flatMap fun i => beBytes 2 (slotKey s i).1 ++ beBytes 1 (slotKey s i).2

/-- ATTEST (R538), whose signature takes one draw of random bytes. -/
def attestBytes (nonce : List Byte) (s : State) : List Byte :=
  let m := (List.range 5).flatMap fun k => padTo 64 (sha512 (runHeader s k))
  let n := padTo 32 nonce
  n ++ m ++ padTo 3373 (identitySign s.free (beBytes 16 Config.serial.toNat ++ n ++ m))

/-- A part record of UPD_STATUS (R568). -/
def partRecord (s : State) (k : Nat) : List Byte :=
  let p := partOf s k
  [BitVec.ofNat 8 k, if p.runB then 1 else 0, BitVec.ofNat 8 (slotCode p.a.st), BitVec.ofNat 8 (slotCode p.b.st)] ++
  beBytes 3 (slotVer k p.a).toNat ++ beBytes 3 (slotVer k p.b).toNat ++ beBytes 4 (idleSlot p).units.length ++
  [(trialCount s).setWidth 8, 0]

/-- AUTH_LOCKOUT_END (R544). -/
def execAuthLockoutEnd (s : State) : Host.Outcome State Fault Refusal :=
  .next { s with upd.lockout := false, upd.lockEnd := 0 }

end Sys2Proof.Machine
end

