-- ==== Sys2Proof/Machine/Registers.lean ====
section
/-! DEFINITION. Reads and writes of control registers with their effects (R15, R33, R598 to R602, R609 to R611, R623, and
the register tables of the chapters), and the rows that a write of one bit stands for. -/

namespace Sys2Proof.Machine

/-! ## Effects of a read: RC fields clear, LO registers latch their high half (R602, R604) -/

/-- SYS (R604). -/
def readSys (o : Nat) (s : State) : State :=
  match o with
  | 0x18 => { s with sys.fatalHi := BitVec.ofNat 16 (s.sys.fatalTick.toNat / 2 ^ 32) }
  | 0x44 | 0x48 => { s with sys.tempMax := hotter s.sys.tempMax (viewSys s o) }
  | 0x50 => { s with sys.cmdCount := 0 }
  | 0x54 => { s with sys.eccCorr := 0 }
  | 0x58 => { s with sys.eccUnc := 0 }
  | _ => s

/-- ISL (R608). -/
def readIsl (o : Nat) (s : State) : State :=
  if 0x100 ≤ o ∧ o < 0x220 then
    let put := fun (f : Isl → Isl) => { s with sys.isl := Tab.upd {} s.sys.isl ((o - 0x100) / 0x20) f }
    match o % 0x20 with
    | 0x0C => put fun x => { x with xin := 0 }
    | 0x10 => put fun x => { x with xout := 0 }
    | 0x14 => put fun x => { x with xmax := 0 }
    | 0x1C => put fun x => { x with loss := 0 }
    | _ => s
  else s

/-- SCN (R161, R162). -/
def readScn (o : Nat) (s : State) : State :=
  match o with
  | 0x10 => { s with scan.retry := 0 }
  | 0x14 => { s with scan.squash := 0 }
  | 0x18 => { s with scan.runCount := 0 }
  | 0x1C => { s with scan.skipCount := 0 }
  | _ =>
    if 0x1000 ≤ o ∧ o < 0x1240 then
      let c := (o - 0x1000) / 0x40
      match o % 0x40 with
      | 0x10 => updCore c (fun k => { k with instr := 0 }) s
      | 0x18 => updCore c (fun k => { k with commits := 0 }) s
      | 0x1C => updCore c (fun k => { k with squash := 0 }) s
      | 0x20 => updCore c (fun k => { k with ovf := 0 }) s
      | 0x24 => updCore c (fun k => { k with serial := 0 }) s
      | 0x28 => updCore c (fun k => { k with resErr := 0 }) s
      | 0x2C => updCore c (fun k => { k with parErr := 0 }) s
      | 0x30 => updCore c (fun k => { k with eccCorr := 0, eccUnc := 0 }) s
      | _ => s
    else s

/-- TSK (R111, R119, R121). -/
def readTsk (o : Nat) (s : State) : State :=
  if o = 0x08 then { s with tsk.tickHi := BitVec.ofNat 16 (s.tsk.tick.toNat / 2 ^ 32) }
  else if 0x1000 ≤ o ∧ o < 0x1400 then
    let n := (o - 0x1000) / 0x20
    match o % 0x20 with
    | 0x10 => updTask n (fun t => { t with evtLost := 0 }) s
    | 0x18 => updTask n (fun t => { t with ovrTotal := 0 }) s
    | _ => s
  else s

/-- RED (R397). -/
def readRed (o : Nat) (s : State) : State :=
  match o with
  | 0x10 => { s with red.hbLossSync := 0 }
  | 0x14 => { s with red.hbLossHb := 0 }
  | 0x18 => { s with red.adopt := 0 }
  | 0x1C => { s with red.digestMis := 0 }
  | 0x20 => { s with red.peerOvr := 0 }
  | 0x24 => { s with red.presumed := 0 }
  | 0x28 => { s with red.crcErr := 0 }
  | 0x34 => { s with red.takeovers := 0 }
  | 0x38 => { s with red.takeHi := BitVec.ofNat 16 (s.red.lastTake.toNat / 2 ^ 32) }
  | _ => s

/-- PAS (R359). -/
def readPas (o : Nat) (s : State) : State :=
  match o with
  | 0x0C => { s with pas.ofsHi := BitVec.ofNat 16 (s.pas.ofs.toNat / 2 ^ 32) }
  | 0x4C => { s with pas.crcErr := 0 }
  | 0x50 => { s with pas.late := 0 }
  | 0x54 => { s with pas.wraps := 0 }
  | 0x58 => { s with pas.held := 0 }
  | _ => s

/-- FLD (R433). -/
def readFld (o : Nat) (s : State) : State :=
  if o = 0x1C then { s with ports.fld.miss := 0 }
  else if 0x1000 ≤ o ∧ o < 0x1200 then
    let p := (o - 0x1000) / 0x40
    match o % 0x40 with
    | 0x08 => updPort p (fun f => { f with rx := 0 }) s
    | 0x0C => updPort p (fun f => { f with tx := 0 }) s
    | 0x10 => updPort p (fun f => { f with drop := 0 }) s
    | 0x14 => updPort p (fun f => { f with fcs := 0 }) s
    | 0x18 => updPort p (fun f => { f with e2e := 0 }) s
    | 0x1C => updPort p (fun f => { f with inDisc := 0 }) s
    | 0x20 => updPort p (fun f => { f with elim := 0 }) s
    | 0x24 => updPort p (fun f => { f with lost := 0 }) s
    | 0x28 => updPort p (fun f => { f with gateWait := 0 }) s
    | _ => s
  else s

/-- SER (R435). -/
def readSer (o : Nat) (s : State) : State :=
  if 0x1000 ≤ o ∧ o < 0x10C0 then
    let q := (o - 0x1000) / 0x20
    match o % 0x20 with
    | 0x08 => updSer q (fun x => { x with tx := 0 }) s
    | 0x0C => updSer q (fun x => { x with rx := 0 }) s
    | 0x10 => updSer q (fun x => { x with err := 0 }) s
    | 0x14 => updSer q (fun x => { x with timeout := 0 }) s
    | 0x18 => updSer q (fun x => { x with retry := 0 }) s
    | _ => s
  else s

/-- DIO (R467) and SAF (R469). -/
def readDio (o : Nat) (s : State) : State :=
  match o with
  | 0x28 => { s with dio.upErr := 0 }
  | 0x2C => { s with dio.downErr := 0 }
  | 0x30 => { s with dio.silenceCount := 0 }
  | 0x34 => { s with dio.rbCount := 0 }
  | 0x38 => { s with dio.shortCount := 0 }
  | _ => s

/-- SAF (R469). -/
def readSaf (o : Nat) (s : State) : State :=
  match o with
  | 0x0C => { s with dio.demandCount := 0 }
  | 0x14 => { s with dio.darkCount := 0 }
  | _ => s

/-- RTC (R498). -/
def readRtc (o : Nat) (s : State) : State :=
  match o with
  | 0x00 => { s with bkd.fracLat := s.bkd.rtc.setWidth 15 }
  | 0x08 => { s with bkd.ticksLat := BitVec.ofNat 15 (s.bkd.rtc.toNat / 2 ^ 32) }
  | 0x30 => { s with bkd.wakeOvr := 0 }
  | _ => s

/-- Four 8-bit counts of slots 4m to 4m+3 are cleared. -/
def clearSlots (t : Tab Byte) (m : Nat) : Tab Byte := Tab.setRange 0 t (4 * m) [0, 0, 0, 0]

/-- WDT (R500). -/
def readWdt (o : Nat) (s : State) : State :=
  match o with
  | 0x2C => { s with bkd.svcLat := BitVec.ofNat 15 (s.bkd.lastSvc.toNat / 2 ^ 32) }
  | 0x34 => { s with bkd.expCount := 0 }
  | 0x38 => { s with bkd.violCount := 0 }
  | 0x84 => { s with bkd.evTickLat := BitVec.ofNat 15 (s.bkd.evTick.toNat / 2 ^ 32) }
  | 0x8C => { s with bkd.evSvcLat := BitVec.ofNat 15 (s.bkd.evSvc.toNat / 2 ^ 32) }
  | _ =>
    if 0x100 ≤ o ∧ o < 0x120 then { s with bkd.dup := clearSlots s.bkd.dup ((o - 0x100) / 4) }
    else if 0x120 ≤ o ∧ o < 0x140 then { s with bkd.missCnt := clearSlots s.bkd.missCnt ((o - 0x120) / 4) }
    else s

/-- DEP (R529). -/
def readDep (o : Nat) (s : State) : State :=
  match o with
  | 0x08 => { s with depot.writes := 0 }
  | 0x0C => { s with depot.refreshed := 0 }
  | 0x10 => { s with depot.corrected := 0 }
  | 0x14 => { s with depot.uncorr := 0 }
  | 0x1C => { s with depot.ties := 0 }
  | 0x20 => { s with depot.refused := 0 }
  | _ => s

/-- ACC (R531). -/
def readAcc (o : Nat) (s : State) : State :=
  match o with
  | 0x10 => { s with log.intake := 0 }
  | 0x14 => { s with log.flushed := 0 }
  | 0x18 => { s with log.overwritten := 0 }
  | _ => s

/-- SEC (R570). -/
def readSec (o : Nat) (s : State) : State :=
  match o with
  | 0x08 => { s with upd.authFail := 0 }
  | 0x0C => { s with upd.tagFail := 0 }
  | 0x10 => { s with upd.replay := 0 }
  | _ => s

/-- The effect of a read of the register at a byte address. -/
def readEffect (addr : Nat) (s : State) : State :=
  let o := addr % 2 ^ 16 / 4 * 4
  match addr / 2 ^ 16 with
  | 0x01 => readSys o s
  | 0x02 => readIsl o s
  | 0x03 => if o = 8 then { s with res.count := 0 } else s
  | 0x04 => if o = 0x8 then { s with cast.count := 0 } else if o = 0xC then { s with cast.missedTotal := 0 } else s
  | 0x05 => readScn o s
  | 0x06 => readTsk o s
  | 0x07 => if o = 0x10 then { s with scan.missCount := 0 } else if o = 0x1C then { s with scan.fullScans := 0 } else s
  | 0x08 => if o = 0x08 then { s with prog.armShadow := BitVec.ofNat 16 (s.prog.armTick.toNat / 2 ^ 32) }
            else if o = 0x30 then { s with prog.editCount := 0 } else s
  | 0x09 => readRed o s
  | 0x0A => readPas o s
  | 0x0C => readFld o s
  | 0x0D => readSer o s
  | 0x0E => if 0x1000 ≤ o ∧ o < 0x1080 ∧ o % 0x20 = 0x1C then updCrc ((o - 0x1000) / 0x20) (fun c => { c with mismatch := 0 }) s else s
  | 0x0F => readDio o s
  | 0x10 => readSaf o s
  | 0x11 => readRtc o s
  | 0x12 => readWdt o s
  | 0x13 => readDep o s
  | 0x14 => readAcc o s
  | 0x15 => if o = 0x08 then { s with upd.fallbacks := 0 } else s
  | 0x16 => readSec o s
  | _ => s

/-- One register is read: its value and the state after (R598, R602). -/
def readReg (addr : Nat) (s : State) : W32 × State :=
  let t := readEffect addr s
  (peek s addr, { t with free := t.free + 1 })

/-- `n` registers from an address in ascending order (R319, R601); the address space wraps at 2^32. -/
def readRegs (addr : Nat) : Nat → State → List W32 × State
  | 0, s => ([], s)
  | n + 1, s =>
    let r := readReg (addr % 2 ^ 32) s
    let t := readRegs (addr + 4) n r.2
    (r.1 :: t.1, t.2)

/-! ## Enable bits (R33, R34) -/

/-- An enable bit is written 1: the feature is claimed in one step, or its bit stays 0 with CONFLICT set (R33). CAST_PIN
with a PIN_SEL that names no pin claims nothing (R609); the REDUNDANCY enable takes effect at the next reset (R399). -/
def setEnableBit (code inst : Nat) (s : State) : State :=
  match code with
  | 0x03 => touchSettings { s with red.pairNext := true }
  | 0x21 => if 5 < s.cast.pinSel.toNat ∨ enabled s 0x21 0 then s else (enableFeature 0x21 0 s).1
  | 0x10 | 0x12 | 0x13 | 0x14 | 0x26 => if featureKnown code inst && !enabled s code inst then (enableFeature code inst s).1 else s
  | _ => s

/-- An enable bit is cleared (R34). -/
def clearEnableBit (code inst : Nat) (s : State) : State :=
  match code with
  | 0x03 => touchSettings { s with red.pairNext := false }
  | 0x10 | 0x12 | 0x13 | 0x14 | 0x21 | 0x26 => disableFeature code inst s
  | _ => s

/-- A write of an enable bit; one of a port or a GPIO instance is a settings change that a standby takes over (R375). -/
def putEnableBit (code inst : Nat) (on : Bool) (s : State) : State :=
  let was := enabled s code inst
  let s := if on then setEnableBit code inst s else clearEnableBit code inst s
  if enabled s code inst = was then s else noteSettings (.enable (BitVec.ofNat 8 code) (BitVec.ofNat 8 inst) on) s

/-! ## Effects of a write -/

/-- `CAST_CTRL` (R609). -/
def writeCastCtrl (v : W32) (s : State) : State :=
  let s := if s.cast.pinEn then s else touchSettings { s with cast.pinSel := v.setWidth 3 }
  let s := putEnableBit 0x21 0 (v.getLsbD 31) s
  let s := if v.getLsbD 30 then castArmOp s else s
  if v.getLsbD 29 then raiseCast 0 s else s

/-- `RED_STATUS` and `RED_CTRL` (R398, R399). -/
def writeRed (o : Nat) (v : W32) (s : State) : State :=
  match o with
  | 0x00 => { s with red.isolated := s.red.isolated && !v.getLsbD 17, red.dualAct := s.red.dualAct && !v.getLsbD 16 }
  | 0x04 => noteSettings (.redundancy v) (putEnableBit 0x03 0 (v.getLsbD 31) { s with red.warmTake := v.getLsbD 30, red.autoResync := v.getLsbD 29 })
  | _ => s

/-- `PAS_CTRL` (R325, R361). -/
def writePasCtrl (v : W32) (s : State) : State :=
  let s := { s with pas.castSpread := v.getLsbD 30, pas.reportEn := v.getLsbD 29, pas.fwdMin := v.setWidth 3 }
  if v.getLsbD 31 then { s with pas.ringEn := true } else if s.pas.ringEn then closeBypass { s with pas.ringEn := false } else s

/-- PAS (R359 to R361). A write of one of the two words of an entry keeps the other. -/
def writePas (o : Nat) (v : W32) (s : State) : State :=
  match o with
  | 0x00 => { s with pas.mapErr := s.pas.mapErr && !v.getLsbD 23, pas.budgetErr := s.pas.budgetErr && !v.getLsbD 22 }
  | 0x04 => writePasCtrl v s
  | 0x08 => writeExch v s
  | 0x24 => setShared 0xA0024 v s
  | 0x28 => { s with pas.pubSel := v.setWidth 6 }
  | 0x2C => setPub s.pas.pubSel v (peek s 0xA0030) s
  | 0x30 => setPub s.pas.pubSel (peek s 0xA002C) v s
  | 0x34 => { s with pas.subSel := v.setWidth 7 }
  | 0x38 => setSub s.pas.subSel v (peek s 0xA003C) s
  | 0x3C => setSub s.pas.subSel (peek s 0xA0038) v s
  | 0x40 => { s with pas.evtSel := v.setWidth 6 }
  | 0x44 => setPasEvt s.pas.evtSel v s
  | _ => s

/-- FLD (R410, R414, R433, R434). -/
def writeFld (o : Nat) (v : W32) (s : State) : State :=
  match o with
  | 0x00 => { s with ports.fld.mapErr := s.ports.fld.mapErr && !v.getLsbD 31 }
  | 0x04 => setShared 0xC0004 v s
  | 0x0C => { s with ports.fld.nodeSel := v.setWidth 12 }
  | 0x14 => { s with ports.fld.evtSel := v.setWidth 5 }
  | 0x18 => setFldEvt s.ports.fld.evtSel v s
  | _ =>
    if 0x1000 ≤ o ∧ o < 0x1200 ∧ o % 0x40 = 0 then
      let p := (o - 0x1000) / 0x40
      putEnableBit 0x10 p (v.getLsbD 31) (setShared (BitVec.ofNat 20 (0xC0000 + o)) v s)
    else s

/-- One half of a 64-bit parameter. -/
def putHalf (hi : Bool) (v : W32) (x : BitVec 64) : BitVec 64 :=
  if hi then BitVec.ofNat 64 (v.toNat * 2 ^ 32 + x.toNat % 2 ^ 32) else BitVec.ofNat 64 (x.toNat / 2 ^ 32 * 2 ^ 32 + v.toNat)

/-- The fields of `CRC_CFG` beside its enable bit (R437). -/
def crcFields (n : Nat) (v : W32) (s : State) : State :=
  updCrc n (fun c => { c with mode := BitVec.ofNat 2 (field v.toNat 30 29), refin := v.getLsbD 28, refout := v.getLsbD 27,
                              le := v.getLsbD 26, widthM1 := BitVec.ofNat 6 (field v.toNat 21 16), preset := 0 }) s

/-- CRC (R33, R436, R437): a feature other than USER_CRC that holds the channel keeps its parameters from being written;
the enable bit goes through the claim, which then fails and is noted as a conflict. [Log: DEDUCED, unsafe, entry 106.] -/
def writeCrc (o : Nat) (v : W32) (s : State) : State :=
  if !(0x1000 ≤ o ∧ o < 0x1080) then s
  else
    let n := (o - 0x1000) / 0x20
    let par := fun (f : CrcCh → CrcCh) => if crcOpen s n then updCrc n (fun c => { f c with preset := 0 }) s else s
    match o % 0x20 with
    | 0x00 =>
      if field v.toNat 15 8 ≠ 0 then (if crcOpen s n then loadPreset n v s else s)
      else if crcOpen s n then putEnableBit 0x26 n (v.getLsbD 31) (crcFields n v s)
      else if v.getLsbD 31 then setEnableBit 0x26 n s
      else s
    | 0x04 => par fun c => { c with poly := putHalf false v c.poly }
    | 0x08 => par fun c => { c with poly := putHalf true v c.poly }
    | 0x0C => par fun c => { c with init := putHalf false v c.init }
    | 0x10 => par fun c => { c with init := putHalf true v c.init }
    | 0x14 => par fun c => { c with xor := putHalf false v c.xor }
    | 0x18 => par fun c => { c with xor := putHalf true v c.xor }
    | 0x1C => if crcOpen s n then updCrc n (fun c => { c with err := c.err && !v.getLsbD 30 }) s else s
    | _ => s

/-- RTC (R476, R477, R483, R498, R499). `RTC_WAKE_N` and PWRON_CLR are written only by WAKE_SET and PWRON_RELEASE
(R482, R498). -/
def writeRtc (o : Nat) (v : W32) (s : State) : State :=
  match o with
  | 0x10 => { s with bkd.setSec := v }
  | 0x14 => { s with bkd.setFrac := v.setWidth 15 }
  | 0x18 =>
    let s := { s with bkd.trim := v.setWidth 8 }
    if v.getLsbD 31 then rtcCommitOp s else s
  | 0x28 =>
    let s := { s with bkd.sleepRef := s.bkd.sleepRef && !v.getLsbD 28 }
    if v.getLsbD 29 then askSleep s else s
  | 0x2C => { s with bkd.wakeCause := s.bkd.wakeCause &&& ~~~(v.setWidth 4) }
  | _ => s

/-- `WDT_CTRL` (R485, R495, R501). -/
def writeWdtCtrl (v : W32) (s : State) : State :=
  let s := if s.bkd.wdtLock then s
    else touchEarly 0 <| touchEarly 1 { s with bkd.rstEn := v.getLsbD 29, bkd.slotAct := v.getLsbD 28, bkd.wdtLock := v.getLsbD 30 }
  if v.getLsbD 31 then wdtEnableOp s else s

/-- WDT (R485 to R501). -/
def writeWdt (o : Nat) (v : W32) (s : State) : State :=
  match o with
  | 0x00 => writeWdtCtrl v s
  | 0x04 => { s with bkd.expired := s.bkd.expired && !v.getLsbD 30, bkd.keyErr := s.bkd.keyErr && !v.getLsbD 29 }
  | 0x08 => keyWriteOp (v.setWidth 16) s
  | 0x0C => serviceOp s
  | 0x10 => if s.bkd.wdtLock then s else touchEarly 2 (setPeriod v.toNat s)
  | 0x14 => if s.bkd.wdtLock then s else touchEarly 3 (setWopen v.toNat s)
  | 0x1C => touchEarly 4 { s with bkd.slotEn := v }
  | 0x28 => { s with bkd.missedMap := s.bkd.missedMap &&& ~~~v }
  | 0x80 => { s with bkd.evValid := s.bkd.evValid && !v.getLsbD 31, bkd.evLogged := v.getLsbD 30 }
  | _ => s

/-- One register is written (R598). [Log: DEDUCED, unsafe, entry 120.] -/
def writeReg (addr : Nat) (v : W32) (s : State) : State :=
  let o := addr % 2 ^ 16 / 4 * 4
  match addr / 2 ^ 16 with
  | 0x01 => if o = 0x10 then { s with sys.cause := s.sys.cause &&& ~~~(v.setWidth 5) }
            else if 0xA0 ≤ o ∧ o < 0xB0 then { s with sys.scratch := Tab.set 0 s.sys.scratch ((o - 0xA0) / 4) v } else s
  | 0x03 => if o = 0 ∧ v.getLsbD 31 then { s with res.conflict := false } else s
  | 0x04 => if o = 4 then writeCastCtrl v s else s
  | 0x05 => if o = 8 then { s with scan.segAddr := v &&& 0x00013FFF#32 } else s
  | 0x06 => if o = 0 then setShared 0x60000 v s
            else if o = 0x18 then { s with tsk.tbNext := some (v &&& 0x00007FFF#32) } else s
  | 0x07 => if o = 4 then { s with scan.catAddr := v &&& 0x00011FFF#32 } else s
  | 0x09 => writeRed o v s
  | 0x0A => writePas o v s
  | 0x0C => writeFld o v s
  | 0x0D => if 0x1000 ≤ o ∧ o < 0x10C0 ∧ o % 0x20 = 0 then
              let f := serFeature ((o - 0x1000) / 0x20)
              putEnableBit f.1 f.2 (v.getLsbD 31) s
            else s
  | 0x0E => writeCrc o v s
  | 0x0F => if o = 0 then { s with dio.silenceSeen := s.dio.silenceSeen && !v.getLsbD 29 } else s
  | 0x11 => writeRtc o v s
  | 0x12 => writeWdt o v s
  | 0x15 => if o = 4 then touchSettings { s with upd.mode := v.getLsbD 31, upd.confirm := BitVec.ofNat 6 (clamp 1 60 (v.toNat % 64)) } else s
  | 0x16 => if o = 4 then touchSettings { s with upd.encReq := v.getLsbD 31 } else s
  | _ => s

/-- Registers are written in ascending order (R319, R601). [Log: DESIGN CHOICE, unsafe, entry 122.] -/
def writeRegs : Nat → List W32 → State → State
  | _, [], s => s
  | addr, v :: t, s => writeRegs (addr + 4) t (writeReg (addr % 2 ^ 32) v s)

/-- The internal unit that owns the block of an address; a cast section belongs to the unit of its block (R599, R600). -/
def ownerOf (addr : Nat) : Option Nat :=
  let unit : Nat → Option Nat := fun b =>
    match b with
    | 0x01 | 0x02 | 0x03 | 0x04 | 0x08 | 0x13 | 0x14 | 0x15 | 0x16 => some 0
    | 0x05 | 0x07 => some 1
    | 0x06 | 0x09 | 0x0A | 0x0C | 0x0D | 0x0E => some 2
    | 0x0F => some 3
    | 0x10 => some 4
    | 0x11 | 0x12 => some 5
    | _ => none
  if addr / 2 ^ 16 = 4 ∧ 0x800 ≤ addr % 2 ^ 16 then unit (addr % 2 ^ 16 / 0x800) else unit (addr / 2 ^ 16)

/-- Whether a request to internal unit `unit` may reach `n` registers from `addr` (R600): those of its blocks and their cast sections, and
SUP the whole CAST block, which it owns (R599). -/
def unitReaches (unit : Option Nat) (addr n : Nat) : Bool :=
  match unit with
  | none => true
  | some u => (List.range n).all fun i =>
    let a := (addr + 4 * i) % 2 ^ 32
    ownerOf a = some u || (u = 0 && a / 2 ^ 16 = 4)

/-! ## Rows -/

/-- ENABLE_BIT_WRITE (R33). -/
def execEnableBitWrite (code inst : Byte) (s : State) : Host.Outcome State Fault Refusal := .next (putEnableBit code.toNat inst.toNat true s)

/-- ENABLE_BIT_CLEAR (R34). -/
def execEnableBitClear (code inst : Byte) (s : State) : Host.Outcome State Fault Refusal := .next (putEnableBit code.toNat inst.toNat false s)

/-- CAST_TRIGGER_WRITE (R609). -/
def execCastTriggerWrite (s : State) : Host.Outcome State Fault Refusal := .next (raiseCast 0 s)

/-- CAST_CTRL_ARM (R609). -/
def execCastCtrlArm (s : State) : Host.Outcome State Fault Refusal := .next (castArmOp s)

/-- SETTINGS_STORE (R623): the stored fields go to the generation that is not in force, and at the end the selector is switched. A
part in TRIAL makes it wait, and so do a start-up and an earlier store in progress; after the power-fail warning nothing is written
(R510). [Log: DESIGN CHOICE, unsafe, entry 96.] -/
def storeSettings (s : State) : State :=
  if s.upd.dirty && !inTrial s && s.sys.boot = .ready && s.upd.storing.isNone && !s.depot.pfail && twinEnded 4 s then
    beginStoring (!(settingsSel s).1) (collectStores s) { s with upd.dirty := false }
  else s

/-- SETTINGS_STORE (R623). -/
def execSettingsStore (s : State) : Host.Outcome State Fault Refusal := .next (storeSettings s)

end Sys2Proof.Machine
end

