-- ==== Sys2Proof/Machine/Packets.lean ====
section
/-! DEFINITION. Command packets as bytes (chapter 07): the header and its paths (R283 to R287), the commands by their
opcodes and parameters (R305 to R320), the sets of commands that rules name (R60, R300, R301, R304, R539), and the
parameters of a command as the module forwards them (R351). -/

namespace Sys2Proof.Machine

/-! ## Packets -/

/-- A packet as received (R283 to R287). `declared` is the length that its fields give. -/
structure Packet where
  req      : Req
  op       : BitVec 16
  more     : Bool
  frag     : Nat
  flags    : Byte
  plen     : Nat
  status   : BitVec 16
  header   : List Byte
  ext      : List Byte
  params   : List Byte
  tag      : List Byte
  declared : Nat

/-- The big-endian number in `n` bytes from offset `a`. -/
def be (p : List Byte) (a n : Nat) : Nat := beNat ((p.drop a).take n)

/-- The bytes that a packet's fields declare (R281, R286), without a trailer. -/
def declaredLength (b : List Byte) : Nat :=
  20 + (if be b 8 6 / 2 ^ 45 = 7 then 1 + be b 20 1 else 0) + be b 16 2 + (if (b.getD 3 0).getLsbD 6 then 16 else 0)

/-- The hops of a path (R285, R287). -/
def pathHops (depth path : Nat) (ext : List Byte) : List (BitVec 6) :=
  if depth = 7 then (ext.drop 1).map fun b => b.setWidth 6
  else (List.range depth).map fun i => BitVec.ofNat 6 (field path (44 - 6 * i) (39 - 6 * i))

/-- The fields of a packet of 20 bytes or more. -/
def packetOf (ep : Endpoint) (tag : Option (BitVec 32)) (b : List Byte) : Packet :=
  let path := be b 8 6
  let depth := path / 2 ^ 45
  let flags := b.getD 3 0
  let extLen := if depth = 7 then 1 + be b 20 1 else 0
  let ext := (b.drop 20).take extLen
  let plen := be b 16 2
  let body := 20 + extLen
  { req := { ep := ep, major := b.getD 1 0, minor := b.getD 2 0, seq := BitVec.ofNat 32 (be b 4 4), hops := pathHops depth path ext,
             ext := decide (depth = 7), bcast := flags.getLsbD 3, auth := flags.getLsbD 6, tag := tag,
             raw := some (BitVec.ofNat 48 path, ext) },
    op := BitVec.ofNat 16 (be b 14 2), more := flags.getLsbD 5, frag := path % 64, flags := flags, plen := plen,
    status := BitVec.ofNat 16 (be b 18 2), header := b.take 20, ext := ext, params := (b.drop body).take plen,
    tag := (b.drop (body + plen)).take 16, declared := declaredLength b }

/-- The header over which a tag is computed: CACHED is taken as 0 (R545, R547). -/
def clearCached (h : List Byte) : List Byte := h.take 3 ++ [h.getD 3 0 &&& 0xEF#8] ++ h.drop 4

/-- The parameters of a packet of a proved session when its auth tag is there and verifies (R545, R547). -/
def openPacket (x : Session) (p : Packet) : Option (List Byte) :=
  let aad := clearCached p.header ++ p.ext
  if !p.req.auth then none
  else if x.enc then
    let nonce := beBytes 1 0 ++ beBytes 4 p.req.seq.toNat ++ beBytes 1 p.frag ++ beBytes 2 p.op.toNat ++ beBytes 2 p.status.toNat ++ [0, 0]
    gcmOpen ((x.keys.drop 64).take 32) nonce aad p.params p.tag
  else if (hmacSha256 (x.keys.take 32) (aad ++ p.params)).take 16 = p.tag then some p.params else none

/-! ## Sets of commands -/

/-- The version from which a command is available (R300, R305 to R320): 16 × its major + its minor. -/
def fromVersion (op : Nat) : Option Nat :=
  match op with
  | 0x0001 | 0x0002 | 0x0003 | 0x0101 | 0x0102 | 0x0105 | 0x0701 | 0x0703 | 0x0801 | 0x0802 | 0x0803 | 0x0805 | 0x0806
  | 0x0807 | 0x0808 | 0x0E01 | 0x0E02 | 0x0E03 => some 0x10
  | 0x0004 | 0x0005 | 0x0103 | 0x0104 | 0x0201 | 0x0202 | 0x0203 | 0x0301 | 0x0302 | 0x0303 | 0x0304 | 0x0305 | 0x0310
  | 0x0311 | 0x0312 | 0x0313 | 0x0314 | 0x0315 | 0x0316 | 0x0401 | 0x0402 | 0x0403 | 0x0404 | 0x0405 | 0x0406 | 0x0407
  | 0x0408 | 0x0409 | 0x0501 | 0x0502 | 0x0503 | 0x0504 | 0x0601 | 0x0602 | 0x0603 | 0x0704 | 0x0804 | 0x0901 | 0x0902
  | 0x0903 | 0x0A01 | 0x0A02 | 0x0A03 | 0x0B01 | 0x0B02 | 0x0B03 | 0x0C01 | 0x0C02 | 0x0C03 | 0x0D01 | 0x0D02 | 0x0E04
  | 0x0E05 | 0x0E06 => some 0x20
  | 0x0702 => some 0x31
  | 0x0A04 | 0x0A05 => some 0x32
  | _ => none

/-- The free set (R301). -/
def freeSet (op : Nat) : Bool := [0x0001, 0x0002, 0x0003, 0x0004, 0x0005, 0x0101, 0x0E01, 0x0E02, 0x0E03].contains op

/-- The management-only set (R50, R301): session, accession log, update and identity groups. -/
def mgmtSet (op : Nat) : Bool := mgmtGroup (op / 256)

/-- The commands of the role READER (R539). -/
def readerSet (op : Nat) : Bool :=
  op / 256 = 0x00 || op / 256 = 0x07 ||
  [0x0101, 0x0102, 0x0103, 0x0201, 0x0203, 0x0304, 0x0305, 0x0316, 0x0408, 0x0409, 0x0501, 0x0601, 0x0603, 0x0807, 0x0901,
   0x0A04, 0x0A05, 0x0B01, 0x0B03, 0x0C03, 0x0D01, 0x0E01, 0x0E02, 0x0E03, 0x0E06].contains op

/-- Whether a role permits a command (R539). -/
def permitted (role op : Nat) : Bool :=
  match role with
  | 1 => readerSet op
  | 2 => op ≠ 0x0E04 && op ≠ 0x0E05
  | _ => true

/-- The commands that wait for the end of start-up step 7 (R60), the paths apart. -/
def needsReady (op : Nat) : Bool :=
  decide (0x0201 ≤ op ∧ op ≤ 0x0203) || decide (0x0301 ≤ op ∧ op ≤ 0x0316) || decide (0x0401 ≤ op ∧ op ≤ 0x0409) ||
  decide (op = 0x0103) || decide (0x0901 ≤ op ∧ op ≤ 0x0903)

/-- What an internal unit implements (R304). -/
def internalSet (op : Nat) : Bool := [0x0101, 0x0102, 0x0C03, 0x0D01, 0x0D02].contains op

/-- What the boot ROM answers (R56). -/
def romSet (op : Nat) : Bool := [0x0001, 0x0004, 0x0005].contains op || op / 256 = 0x08 || op / 256 = 0x0E

/-- The commands whose object is the session itself, which lives in the module whose port received the packet (R291). -/
def sessionSet (op : Nat) : Bool := op / 256 = 0x00 || op = 0x0704

/-! ## Settings blocks (R316) -/

/-- A node entry of 42 bytes (R407). -/
def nodeEntry (b : List Byte) : PlNode :=
  { node := BitVec.ofNat 16 (be b 0 2), flags := b.getD 2 0, port := b.getD 3 0, mac := BitVec.ofNat 48 (be b 4 6),
    tag := BitVec.ofNat 16 (be b 10 2), group := b.getD 12 0, layoutRev := b.getD 13 0,
    outBits := BitVec.ofNat 16 (be b 14 2), outBitBase := BitVec.ofNat 24 (be b 16 3),
    outWords := BitVec.ofNat 16 (be b 19 2), outWordBase := BitVec.ofNat 24 (be b 21 3),
    inBits := BitVec.ofNat 16 (be b 24 2), inBitBase := BitVec.ofNat 24 (be b 26 3),
    inWords := BitVec.ofNat 16 (be b 29 2), inWordBase := BitVec.ofNat 24 (be b 31 3),
    poll := BitVec.ofNat 24 (be b 34 3), resp := BitVec.ofNat 16 (be b 37 2), lossLimit := b.getD 39 0,
    hold := BitVec.ofNat 16 (be b 40 2) }

/-- The settings block of PLAINLINE (R407). -/
def plBlock (b : List Byte) : Settings :=
  if b.length < 4 then .malformed
  else match (b.getD 0 0).toNat with
    | 0 => if b.length = 28 then .plGroups ((chunks 6 4 (b.drop 4)).map fun g => BitVec.ofNat 48 (beNat g)) else .malformed
    | 1 => if (b.length - 4) % 42 = 0 then .plNodes ((chunks 42 b.length (b.drop 4)).map nodeEntry) else .malformed
    | 2 => if b.length = 4 then .plClear else .malformed
    | k => .plKind (BitVec.ofNat 8 k)

/-- The settings block of a feature code. -/
def settingsOf (code : Nat) (b : List Byte) : Settings :=
  match code with
  | 0x11 => plBlock b
  | 0x20 => if b.length = 8 then .timebase (b.getD 0 0) (b.getD 1 0) (b.getD 2 0) (BitVec.ofNat 32 (be b 4 4)) else .malformed
  | 0x21 => if b.length = 4 then .castPin (b.getD 0 0) else .malformed
  | 0x24 => if b.isEmpty then .empty else .malformed
  | 0x25 => if b.length = 8 then .gpio (b.getD 0 0) (b.getD 1 0) (BitVec.ofNat 24 (be b 4 3)) else .malformed
  | _ => (Config.decodeSettings code b).getD .malformed

/-! ## Commands by opcode and parameters -/

/-- A command whose parameters have one length. -/
def fixed (n : Nat) (p : List Byte) (c : Instr) : Option Instr := if p.length = n then some c else none

/-- The commands of the session, unit and image groups (R305 to R307). -/
def parseLow (r : Req) (op : Nat) (p : List Byte) : Option Instr :=
  let b := p.getD 0 0
  match op with
  | 0x0001 => if p.length < 4 ∨ p.length ≠ 4 + 4 * b.toNat then none
              else some (.hello r b (BitVec.ofNat 16 (be p 2 2)) ((chunks 4 b.toNat (p.drop 4)).map fun c => (c.getD 0 0, c.getD 1 0, c.getD 2 0)))
  | 0x0002 => fixed 1218 p (.authChallenge r (BitVec.ofNat 16 (be p 0 2)) ((p.drop 2).take 32) (p.drop 34))
  | 0x0003 => fixed 3373 p (.authProve r p)
  | 0x0004 => fixed 1 p (.bye r b)
  | 0x0005 => fixed 0 p (.sessionInfo r)
  | 0x0101 => fixed 0 p (.unitInfo r)
  | 0x0102 => fixed 0 p (.unitStatus r)
  | 0x0103 => fixed 0 p (.basinMap r)
  | 0x0104 => fixed 1 p (.startMode r b)
  | 0x0105 => fixed 1 p (.reset r b)
  | 0x0201 => fixed 7 p (.imgRead r b (BitVec.ofNat 24 (be p 2 3)) (BitVec.ofNat 16 (be p 5 2)))
  | 0x0202 => if p.length < 7 then none
              else some (.imgWrite r b (BitVec.ofNat 24 (be p 2 3)) (BitVec.ofNat 16 (be p 5 2)) (p.drop 7))
  | 0x0203 => fixed 0 p (.imgLayout r)
  | _ => none

/-- The commands of the program, edit and run control groups (R308, R310). -/
def parseProgram (r : Req) (op : Nat) (p : List Byte) : Option Instr :=
  let b := p.getD 0 0
  let block : Bool := decide (516 ≤ p.length ∧ p.length ≤ 8196)
  match op with
  | 0x0301 => fixed 0 p (.prgLoadOpen r)
  | 0x0302 => if block then some (.prgLoadBlock r (BitVec.ofNat 32 (be p 0 4)) (p.drop 4)) else none
  | 0x0303 => fixed 0 p (.prgLoadClose r)
  | 0x0304 => fixed 0 p (.prgInfo r)
  | 0x0305 => fixed 7 p (.prgRead r b (p.getD 1 0) (BitVec.ofNat 24 (be p 2 3)) (BitVec.ofNat 16 (be p 5 2)))
  | 0x0310 => fixed 0 p (.editOpen r)
  | 0x0311 => if block then some (.editBlock r (BitVec.ofNat 32 (be p 0 4)) (p.drop 4)) else none
  | 0x0312 => fixed 0 p (.editClose r)
  | 0x0313 => fixed 6 p (.editApply r (BitVec.ofNat 48 (be p 0 6)))
  | 0x0314 => fixed 0 p (.editAbort r)
  | 0x0315 => fixed 6 p (.undoEdit r (BitVec.ofNat 48 (be p 0 6)))
  | 0x0316 => fixed 0 p (.editStatus r)
  | 0x0401 => fixed 6 p (.run r (BitVec.ofNat 48 (be p 0 6)))
  | 0x0402 => fixed 0 p (.stop r)
  | 0x0403 => fixed 1 p (.step r b)
  | 0x0404 => fixed 1 p (.taskEnable r b)
  | 0x0405 => fixed 1 p (.taskDisable r b)
  | 0x0406 => fixed 1 p (.taskTrigger r b)
  | 0x0407 => fixed 1 p (.taskRestart r b)
  | 0x0408 => fixed 1 p (.taskStatus r b)
  | 0x0409 => fixed 0 p (.runStatus r)
  | _ => none

/-- TIME_SET by its form (R311); parameters longer than any form are refused (R303). -/
def parseTime (p : List Byte) : Option TimeForm :=
  match p.getD 0 0 with
  | 0 => if p.length = 7 then some (.binary (BitVec.ofNat 32 (be p 1 4)) (BitVec.ofNat 16 (be p 5 2))) else none
  | 1 => if p.length = 9 then
      some (.calendar (BitVec.ofNat 16 (be p 1 2)) (p.getD 3 0) (p.getD 4 0) (p.getD 5 0) (p.getD 6 0) (p.getD 7 0)) else none
  | f => if p.isEmpty ∨ 9 < p.length then none else some (.other f)

/-- The commands of the time, depot, log, update and redundancy groups (R311 to R315). -/
def parseService (r : Req) (op : Nat) (p : List Byte) : Option Instr :=
  let b := p.getD 0 0
  match op with
  | 0x0501 => fixed 0 p (.timeGet r)
  | 0x0502 => if p.isEmpty then none else (parseTime p).map (.timeSet r)
  | 0x0503 => fixed 3 p (.wakeSet r (BitVec.ofNat 24 (be p 0 3)))
  | 0x0504 => fixed 0 p (.pwronRelease r)
  | 0x0601 => fixed 3 p (.depotRead r (BitVec.ofNat 16 (be p 0 2)) (p.getD 2 0))
  | 0x0602 => fixed 258 p (.depotWrite r (BitVec.ofNat 16 (be p 0 2)) (p.drop 2))
  | 0x0603 => fixed 0 p (.depotStatus r)
  | 0x0701 => fixed 6 p (.logRead r (BitVec.ofNat 32 (be p 0 4)) (p.getD 4 0) (p.getD 5 0))
  | 0x0702 => fixed 1 p (.logFreeze r b)
  | 0x0703 => fixed 0 p (.logStatus r)
  | 0x0704 => fixed 1 p (.noticeSubscribe r b)
  | 0x0801 => fixed 5 p (.updBegin r b (BitVec.ofNat 32 (be p 1 4)))
  | 0x0802 => if 520 ≤ p.length ∧ p.length ≤ 8200 then some (.updBlock r b (BitVec.ofNat 32 (be p 4 4)) (p.drop 8)) else none
  | 0x0803 => fixed 1 p (.updVerify r b)
  | 0x0804 => fixed 1 p (.updActivate r b)
  | 0x0805 => fixed 0 p (.updConfirm r)
  | 0x0806 => fixed 0 p (.updReject r)
  | 0x0807 => fixed 0 p (.updStatus r)
  | 0x0808 => if p.length ≤ 4096 then some (.updManifest r p) else none
  | 0x0901 => fixed 0 p (.pairStatus r)
  | 0x0902 => fixed 0 p (.pairSwitchover r)
  | 0x0903 => fixed 0 p (.pairResync r)
  | _ => none

/-- The commands of the ports, local I/O, cast, register and identity groups (R316 to R320). -/
def parseHigh (r : Req) (op : Nat) (p : List Byte) : Option Instr :=
  let b := p.getD 0 0
  match op with
  | 0x0A01 => if p.length < 4 then none else some (.featureConfig r b (p.getD 1 0) (settingsOf b.toNat (p.drop 4)))
  | 0x0A02 => fixed 2 p (.featureEnable r b (p.getD 1 0))
  | 0x0A03 => fixed 2 p (.featureDisable r b (p.getD 1 0))
  | 0x0A04 => fixed 2 p (.featureStatus r b (p.getD 1 0))
  | 0x0A05 => fixed 0 p (.resQuery r)
  | 0x0B01 => fixed 0 p (.dioStatus r)
  | 0x0B02 => fixed 26 p (.dioConfig r p)
  | 0x0B03 => fixed 0 p (.safStatus r)
  | 0x0C01 => fixed 1 p (.castNow r b)
  | 0x0C02 => fixed 0 p (.castArm r)
  | 0x0C03 => fixed 8 p (.castRead r (BitVec.ofNat 32 (be p 0 4)) (BitVec.ofNat 16 (be p 4 2)) (BitVec.ofNat 16 (be p 6 2)))
  | 0x0D01 => fixed 6 p (.regRead r (BitVec.ofNat 32 (be p 0 4)) (BitVec.ofNat 16 (be p 4 2)))
  | 0x0D02 => if p.length < 6 ∨ p.length ≠ 6 + 4 * be p 4 2 then none
              else some (.regWrite r (BitVec.ofNat 32 (be p 0 4)) (BitVec.ofNat 16 (be p 4 2)) (words4 (p.drop 6)))
  | 0x0E01 => fixed 0 p (.ident r)
  | 0x0E02 => fixed 32 p (.attest r p)
  | 0x0E03 => fixed 2 p (.certRead r b (p.getD 1 0))
  | 0x0E04 => fixed 1987 p (.keyEnrol r (BitVec.ofNat 16 (be p 0 2)) (p.getD 2 0) ((p.drop 3).take 32) (p.drop 35))
  | 0x0E05 => fixed 2 p (.keyRemove r (BitVec.ofNat 16 (be p 0 2)))
  | 0x0E06 => fixed 0 p (.keyList r)
  | _ => none

/-- The command that an opcode and its parameters spell; none when the parameters have another length than the command's
(R303). [Log: DEDUCED, unsafe, entry 32.] -/
def parseCmd (r : Req) (op : Nat) (p : List Byte) : Option Instr :=
  if op < 0x0300 then parseLow r op p
  else if op < 0x0500 then parseProgram r op p
  else if op < 0x0A00 then parseService r op p
  else parseHigh r op p

/-! ## Parameters of a forwarded command (R351) -/

/-- The parameters of a command of the session, unit, image, program and run control groups. -/
def paramsLow (c : Instr) : Option (List Byte) :=
  match c with
  | .hello _ n m l => some ([n, 0] ++ beBytes 2 m.toNat ++ l.flatMap fun v => [v.1, v.2.1, v.2.2, 0])
  | .authChallenge _ k share ek => some (beBytes 2 k.toNat ++ share ++ ek)
  | .authProve _ sig => some sig
  | .bye _ i => some [i]
  | .startMode _ m => some [m]
  | .reset _ k => some [k]
  | .imgRead _ sp a n => some ([sp, 0] ++ beBytes 3 a.toNat ++ beBytes 2 n.toNat)
  | .imgWrite _ sp a n v => some ([sp, 0] ++ beBytes 3 a.toNat ++ beBytes 2 n.toNat ++ v)
  | .prgLoadBlock _ o d => some (beBytes 4 o.toNat ++ d)
  | .prgRead _ b q f n => some ([b, q] ++ beBytes 3 f.toNat ++ beBytes 2 n.toNat)
  | .editBlock _ o d => some (beBytes 4 o.toNat ++ d)
  | .editApply _ t => some (beBytes 6 t.toNat)
  | .undoEdit _ t => some (beBytes 6 t.toNat)
  | .run _ t => some (beBytes 6 t.toNat)
  | .step _ n => some [n]
  | .taskEnable _ n => some [n]
  | .taskDisable _ n => some [n]
  | .taskTrigger _ n => some [n]
  | .taskRestart _ n => some [n]
  | .taskStatus _ n => some [n]
  | _ => none

/-- The parameters of a command of the other groups; empty where a command has none. -/
def paramsHigh (c : Instr) : List Byte :=
  match c with
  | .timeSet _ (.binary sec frac) => [0] ++ beBytes 4 sec.toNat ++ beBytes 2 frac.toNat
  | .timeSet _ (.calendar y mo d h mi sec) => [1] ++ beBytes 2 y.toNat ++ [mo, d, h, mi, sec, 0]
  | .timeSet _ (.other f) => [f]
  | .wakeSet _ n => beBytes 3 n.toNat
  | .depotRead _ p n => beBytes 2 p.toNat ++ [n]
  | .depotWrite _ p d => beBytes 2 p.toNat ++ d
  | .logRead _ f n l => beBytes 4 f.toNat ++ [n, l]
  | .logFreeze _ f => [f]
  | .noticeSubscribe _ l => [l]
  | .updBegin _ k n => [k] ++ beBytes 4 n.toNat
  | .updBlock _ k o d => [k, 0, 0, 0] ++ beBytes 4 o.toNat ++ d
  | .updVerify _ k => [k]
  | .updActivate _ k => [k]
  | .updManifest _ m => m
  | .featureConfig _ c i st => [c, i, 0, 0] ++ settingsBytes st
  | .featureEnable _ c i => [c, i]
  | .featureDisable _ c i => [c, i]
  | .featureStatus _ c i => [c, i]
  | .dioConfig _ b => b
  | .castNow _ k => [k]
  | .castRead _ b o n => beBytes 4 b.toNat ++ beBytes 2 o.toNat ++ beBytes 2 n.toNat
  | .regRead _ a n => beBytes 4 a.toNat ++ beBytes 2 n.toNat
  | .regWrite _ a n v => beBytes 4 a.toNat ++ beBytes 2 n.toNat ++ v.flatMap fun w => beBytes 4 w.toNat
  | .attest _ n => n
  | .certRead _ k p => [k, p]
  | .keyEnrol _ i r e m => beBytes 2 i.toNat ++ [r] ++ e ++ m
  | .keyRemove _ i => beBytes 2 i.toNat
  | _ => []

/-- The parameters of a command as a packet carries them. -/
def paramsOf (c : Instr) : List Byte := (paramsLow c).getD (paramsHigh c)

end Sys2Proof.Machine
end

