-- ==== Sys2Proof/Machine/HostCmd.lean ====
section
/-! DEFINITION. What each command does at the unit that acts on it (R305 to R320): its own checks (step 14 of R293), its
effect and its reply. -/

namespace Sys2Proof.Machine

/-- How a command reached the unit that acts on it: where its reply goes, the kind of the unit (R306: 0 internal, 1 module,
2 pair, 3 basin), its index, the internal unit, and whether tick counts are basin ticks (R340). -/
structure Ctx where
  whom    : ReplyTo
  kind  : Nat
  idx   : Byte
  unit  : Option Nat
  basin : Bool

/-- What a command answers: a status, reply parameters, and what the reply waits for. -/
abbrev Ans := State × BitVec 16 × List Byte × Option Wait

/-- ST_OK with parameters. -/
def ok (ps : List Byte) (s : State) : Ans := (s, 0, ps, none)
/-- A refusal, without parameters (R617). -/
def no (st : BitVec 16) (s : State) : Ans := (s, st, [], none)
/-- A reply that is sent later. -/
def later (w : Wait) (ps : List Byte) (s : State) : Ans := (s, 0, ps, some w)
/-- A status with the parameters that its table names for it. -/
def replyWith (st : BitVec 16) (ps : List Byte) (s : State) : Ans := (s, st, ps, none)

/-- A reply that waits for a write of the depot. From a power-fail warning on no write is queued, and it is never sent
(R510). -/
def afterWrite (w : Wait) (s : State) : Ans := later (if s.depot.pfail then .never else w) [] s

/-- The session that a command came by; none for a forwarded command. -/
def ctxSession (c : Ctx) (s : State) : Option Session :=
  match c.whom with
  | .session ep => sessionOf s ep
  | _ => none

/-- A tick count of the parameters as the module's own (R340). [Log: DESIGN CHOICE, unsafe, entry 186.] -/
def inTick (c : Ctx) (s : State) (t : Tick) : Tick := if c.basin then t - s.pas.ofs else t
/-- A tick count of the reply, 6 bytes (R340). [Log: DEDUCED, unsafe, entry 129.] -/
def outTick (c : Ctx) (s : State) (t : Tick) : List Byte := beBytes 6 (if c.basin then t + s.pas.ofs else t).toNat

/-- The tick at which a command accepted now acts: the coming one, or the one after a switchover tick that comes (R110, R390).
[Log: DESIGN CHOICE, unsafe, entry 254.] -/
def nextTick (s : State) : Tick := if handsOver (s.tsk.tick + 1) s then s.tsk.tick + 2 else s.tsk.tick + 1

/-- Whether the pair is in RUN: as this partner where it is active or in step; a standby outside the step does not see it. -/
def pairRuns (s : State) : Bool :=
  if s.red.role = 1 ∨ s.red.role = 3 then decide (s.tsk.mode = .run) else Config.pairRuns s.tsk.tick.toNat

/-- Whether a command addressed to a single partner meets a running pair (R110, R269). [Log: DEDUCED, unsafe, entry 130; DESIGN CHOICE, safe, entry 200.] -/
def partnerOfRunning (c : Ctx) (s : State) : Bool := decide (c.kind = 1) && decide (s.red.role ≠ 0) && pairRuns s

/-! ## Session group (R305, R542 to R544) -/

/-- One failure of the handshake (R544): counted, logged, and after 8 within 60 s a lockout of 60 s. -/
def authFailed (s : State) : State :=
  let now := s.sys.upTicks
  let l := (s.upd.fails.filter fun t => decide (now < t + 6000000)) ++ [now]
  let s := accession 0 0x0E01 3 [] { s with upd.authFail := satInc s.upd.authFail, upd.fails := l }
  if l.length < 8 then s
  else accession 0 0x0E02 4 [] { s with upd.lockout := true, upd.lockEnd := now + 6000000, upd.fails := [] }

/-- AUTH_CHALLENGE (R542, R544). -/
def cmdAuthChallenge (c : Ctx) (key : BitVec 16) (share ek : List Byte) (s : State) : Ans :=
  match ctxSession c s with
  | none => no 0x09 s
  | some x =>
    if share.length ≠ 32 ∨ ek.length ≠ 1184 then no 0x01 s
    else if x.proved ∨ s.upd.lockout then no 0x11 s
    else
      let n := s.free
      let s := { s with free := n + 4 }
      let secret := padTo 32 (Config.freeBytes (n + 1))
      match slotOf s key.toNat, x25519 secret share with
      | some _, some z =>
        let nonce := padTo 32 (Config.freeBytes n)
        let own := x25519Share secret
        let kem := kemEncaps (padTo 32 (Config.freeBytes (n + 2))) ek
        let ct := kem.1
        let th1 := sha512 (ascii "TLH-6424 S1" ++ x.hello ++ beBytes 2 key.toNat ++ share ++ ek ++ nonce ++ own ++ ct ++
          beBytes 16 Config.serial.toNat)
        let sig := padTo 3373 (identitySign (n + 3) th1)
        let ch : Challenge := { key := key, nonce := nonce, th1 := th1, sig := sig, secret := z ++ kem.2 }
        ok (nonce ++ own ++ ct ++ sig) (updSession x.ep (fun y => { y with chal := some ch }) s)
      | _, _ => no 0x04 (authFailed s)

/-- The slot in use that holds the challenged key index, where the operator's dual signature over TH2 is valid under its keys
(R542, R544). -/
def provenSlot (s : State) (key : Nat) (th2 sig : List Byte) : Option Nat :=
  (slotOf s key).filter fun i => dualVerify (slotKeys s i).1 (slotKeys s i).2 th2 sig

/-- AUTH_PROVE (R542 to R544, R546). [Log: DEDUCED, unsafe, entry 134.] -/
def cmdAuthProve (c : Ctx) (sig : List Byte) (s : State) : Ans :=
  match ctxSession c s with
  | none => no 0x09 s
  | some x =>
    if sig.length ≠ 3373 then no 0x01 s
    else match x.chal with
    | none => no 0x04 (authFailed s)
    | some ch =>
      let th2 := sha512 (ascii "TLH-6424 S2" ++ ch.th1 ++ ch.sig)
      match provenSlot s ch.key.toNat th2 sig with
      | none => no 0x04 (authFailed s)
      | some i =>
        let keys := hkdfSha256 ch.secret ch.nonce (ascii "TLH-6424 keys" ++ th2)
        let id := slotKey s i
        ok [] (updSession x.ep (fun y => { y with
          proved := true, enc := s.upd.encReq && decide (x.ep ≠ .usb), keyIdx := BitVec.ofNat 16 id.1,
          role := BitVec.ofNat 8 id.2, keys := keys, chal := none }) s)

/-- BYE (R305): the own session ends after its reply. -/
def cmdBye (c : Ctx) (index : Byte) (s : State) : Ans :=
  match ctxSession c s with
  | none => no 0x09 s
  | some x =>
    if index = 0xFF ∨ index = x.idx then ok [] (updSession x.ep (fun y => { y with ending := true }) s)
    else match s.host.sessions.find? (·.idx = index) with
      | some y => ok [] (endSession y.ep s)
      | none => no 0x10 s

/-- SESSION_INFO (R305). -/
def cmdSessionInfo (c : Ctx) (s : State) : Ans :=
  match ctxSession c s with
  | none => no 0x09 s
  | some x =>
    ok ([x.major, x.minor] ++ beBytes 2 x.maxPkt.toNat ++ [x.idx, BitVec.ofNat 8 (b01 x.proved)] ++ beBytes 4 (x.high.getD 0).toNat ++
      [BitVec.ofNat 8 x.cache.length, BitVec.ofNat 8 x.reasm.length] ++
      beBytes 4 x.dis1.toNat ++ beBytes 4 x.dis5.toNat ++ beBytes 4 x.dis7.toNat ++ beBytes 4 x.disQ.toNat) s

/-! ## Unit and basin group (R306, R362, R607) -/

/-- The children of a unit as a map (R18, R19). -/
def childMap (kind : Nat) (s : State) : BitVec 64 :=
  match kind with
  | 1 => 0x3F
  | 2 => 3
  | 3 => s.pas.members
  | _ => 0

/-- The members of a map. -/
def mapMembers (m : BitVec 64) : List Nat := (List.range 64).filter fun i => m.getLsbD i

/-- UNIT_INFO (R306). -/
def cmdUnitInfo (c : Ctx) (s : State) : Ans :=
  let m := childMap c.kind s
  ok ([BitVec.ofNat 8 c.kind, BitVec.ofNat 8 (mapMembers m).length] ++ beBytes 8 m.toNat ++ [c.idx]) s

/-- UNIT_STATUS (R306, R607). -/
def cmdUnitStatus (c : Ctx) (s : State) : Ans :=
  let hf : Nat × Nat := match c.unit with
    | some u => (health s u, unitStatus s u)
    | none => (worstHealth s, bitMap 6 fun u => health s u ≠ 0)
  ok ([BitVec.ofNat 8 hf.1, BitVec.ofNat 8 (modeCode s.tsk.mode), s.red.role.setWidth 8, 0] ++ beBytes 4 hf.2 ++ [s.host.highSev])
    { s with host.highSev := 0 }

/-- A member record of BASIN_MAP (R362), which shows a loss at the change tick of its topology (R356). The frames of the ring do not
carry the states of another member's links: all are up in a closed ring (R336), a neighbour's end of an own link is up or down with
it, and otherwise they are open values. [Log: DESIGN CHOICE, safe, entry 136.] -/
def memberRecord (s : State) (m : Nat) : List Byte :=
  let k := Tab.get {} s.pas.memb m
  let me := decide (m = s.sys.ringId.toNat)
  let here := me || k.inTopo
  let shown := fun (x : RingModule) => x.up || x.shown
  let paired := if me then s.red.pairEn else (shown k.p0 && k.p0.paired) || (shown k.p1 && k.p1.paired)
  let host := if me then memberHostUp s m else (shown k.p0 && k.p0.hostUp) || (shown k.p1 && k.p1.hostUp)
  let out := me && s.pas.dupId
  let st := if out then 4 else if here then (if paired then 2 else 1) else if k.lost then 3 else if k.excluded then 4 else 0
  let links := if s.pas.ring = 2 then 3 else (Config.reading (0xA1000 + m) s.free).toNat % 4
  let beside := fun (l : List (BitVec 6)) => !paired && decide (l.map (·.toNat) = [m])
  let e := if me then s.pas.eUp else if beside s.pas.nbW then s.pas.wUp else links % 2 = 1
  let w := if me then s.pas.wUp else if beside s.pas.nbE then s.pas.eUp else links / 2 = 1
  let bytes := if me then (if inBasin s then sentBytes s else 0) else k.admitted.toNat
  if here && !out then
    [BitVec.ofNat 8 st, BitVec.ofNat 8 (b01 host + bitAt (inBasin s && decide (m = s.pas.headId.toNat)) 1 + bitAt e 2 + bitAt w 3)] ++
    beBytes 2 (min bytes 0xFFFF)
  else [BitVec.ofNat 8 st, BitVec.ofNat 8 (b01 (out && host)), 0, 0]

/-- BASIN_MAP (R306, R362). -/
def cmdBasinMap (s : State) : Ans :=
  ok ([s.pas.headId.setWidth 8, s.pas.ring.setWidth 8] ++ (List.range 64).flatMap (memberRecord s)) { s with free := s.free + 1 }

/-- START_MODE (R306): stored with the settings. -/
def cmdStartMode (mode : Byte) (s : State) : Ans :=
  if mode = 0 ∨ mode = 1 then ok [mode] (touchSettings { s with sys.startMode := mode })
  else if mode = 0xFF then ok [s.sys.startMode] s
  else no 0x10 s

/-- RESET (R304): the module resets once its replies are sent. -/
def cmdReset (kind : Byte) (s : State) : Ans := if kind = 0 then ok [] { s with host.resetDue := true } else no 0x10 s

/-! ## Image group (R90, R307) -/

/-- Whether the space and the count of an image command lie in their ranges (R307). -/
def imageRange (space : Byte) (count : BitVec 16) : Bool :=
  decide (space.toNat ≤ 1 ∧ count ≠ 0 ∧ count.toNat ≤ (if space = 0 then 65488 else 2728))

/-- IMG_READ (R90, R307). [Log: DEDUCED, unsafe, entry 62.] -/
def cmdImgRead (c : Ctx) (space : Byte) (addr : W24) (count : BitVec 16) (s : State) : Ans :=
  if !imageRange space count then no 0x10 s
  else
    let at' := fun (i : Nat) => (addr.toNat + i) % (if space = 0 then 2 ^ 22 else 2 ^ 21)
    let idx := List.range count.toNat
    ok (outTick c s s.tsk.tick ++
      (if space = 0 then packBits (idx.map fun i => Tab.get false s.tsk.bits (at' i))
       else idx.flatMap fun i => beBytes 3 (Tab.get 0 s.tsk.words (at' i)).toNat)) s

/-- IMG_WRITE (R90, R307): the values wait for the next tick edge, and so does the reply. -/
def cmdImgWrite (c : Ctx) (space : Byte) (addr : W24) (count : BitVec 16) (vals : List Byte) (s : State) : Ans :=
  let n := if space = 0 then (count.toNat + 7) / 8 else 3 * count.toNat
  if space.toNat ≤ 1 ∧ vals.length ≠ n then no 0x01 s
  else if !imageRange space count then no 0x10 s
  else
    let ws : List W24 := if space = 0 then ((unpackBits vals).take count.toNat).map fun b => if b then 1 else 0 else words3 vals
    let w : HostWrite := { word := decide (space = 1), addr := addr, vals := ws }
    later (.tick (nextTick s).toNat) (outTick c s (nextTick s)) { s with tsk.writes := s.tsk.writes ++ [w] }

/-- The body of a LAYOUT record (R309). -/
def regionBody (g : Region) : List Byte :=
  beBytes 3 g.start.toNat ++ beBytes 3 g.count.toNat ++ [g.cls.setWidth 8, g.owner.setWidth 8]

/-- IMG_LAYOUT (R307). -/
def cmdImgLayout (s : State) : Ans :=
  ok ([BitVec.ofNat 8 s.prog.bitReg.length, BitVec.ofNat 8 s.prog.wordReg.length] ++ (s.prog.bitReg ++ s.prog.wordReg).flatMap regionBody) s

/-! ## Program and edit group (R308, R309, R253 to R271) -/

/-- PRG_LOAD_OPEN (R110, R308). -/
def cmdPrgLoadOpen (s : State) : Ans :=
  if s.tsk.mode ≠ .stop then no 0x301 s else ok [] { s with prog.loadOpen := true, prog.loadBuf := [] }

/-- The faults of a block of a program image or change set (R254, R308). -/
def blockStatus (limit : Nat) (opened : Bool) (offset : W32) (data : List Byte) : BitVec 16 :=
  if data.length < 512 ∨ 8192 < data.length then 0x01
  else if limit < offset.toNat + data.length then 0x10
  else if opened then 0 else 0x12

/-- PRG_LOAD_BLOCK (R308). [Log: DEDUCED, unsafe, entry 33.] -/
def cmdPrgLoadBlock (offset : W32) (data : List Byte) (s : State) : Ans :=
  let st := blockStatus 8388608 s.prog.loadOpen offset data
  if st = 0 then ok [] { s with prog.loadBuf := putBlock s.prog.loadBuf offset.toNat data } else no st s

/-- PRG_LOAD_CLOSE (R309). -/
def cmdPrgLoadClose (s : State) : Ans :=
  let r := loadClose s
  if r.1 = 0 then ok (beBytes 8 (activeBank r.2).digest.toNat) r.2 else no r.1 r.2

/-- PRG_INFO (R308). -/
def cmdPrgInfo (s : State) : Ans :=
  let st : BitVec 64 := match storedPrg s with | some p => p.bank.digest | none => 0
  ok (beBytes 4 (prgStatus s) ++ beBytes 4 s.prog.gen.toNat ++ beBytes 8 (activeBank s).digest.toNat ++
    beBytes 8 (shadowBank s).digest.toNat ++ beBytes 8 st.toNat) s

/-- How many items a part of a bank has, and the bytes of an item (R308). -/
def partShape : Nat → Nat × Nat
  | 0 => (2097152, 3) | 1 => (16384, 4) | 2 => (6144, 8) | 3 => (16, 4) | 4 => (1024, 4) | 5 => (32, 32) | _ => (0, 1)

/-- The bytes of an item of a part of a bank (R249, R308). -/
def bankItem (b : Bank) (part i : Nat) : List Byte :=
  match part with
  | 0 => beBytes 3 (Tab.get 0 b.parcels i).toNat
  | 1 => beBytes 4 (segEntry b i).toNat
  | 2 => beBytes 8 (Tab.get 0 b.cats i).toNat
  | 3 => beBytes 4 (Tab.get 0 b.decs i).toNat
  | 4 => beBytes 4 (Tab.get 0 b.ucode i).toNat
  | _ => beBytes 32 (taskItem (Tab.get {} b.tasks i))

/-- PRG_READ (R247, R308). [Log: DEDUCED, unsafe, entry 250.] -/
def cmdPrgRead (bank part : Byte) (first : W24) (count : BitVec 16) (s : State) : Ans :=
  let sh := partShape part.toNat
  if bank.toNat > 1 ∨ part.toNat > 5 ∨ count = 0 ∨ sh.1 < first.toNat + count.toNat ∨ 8192 < count.toNat * sh.2 then no 0x10 s
  else if bank = 1 ∧ !s.prog.held then no 0x12 s
  else
    let b := if bank = 0 then activeBank s else shadowBank s
    ok ((List.range count.toNat).flatMap fun i => bankItem b part.toNat (first.toNat + i)) s

/-- The active partner forwards an edit command to the standby (R269, R374). -/
def forwardEdit (op : Nat) (params : List Byte) (s : State) : State :=
  if s.red.role = 1 ∧ s.red.peerRole ≠ 0 ∧ s.red.syncUp then sendControl 0x05 (beBytes 2 op ++ params) s else s

/-- EDIT_OPEN (R254, R269). -/
def cmdEditOpen (c : Ctx) (s : State) : Ans :=
  if s.prog.edit ≠ .none ∧ s.prog.edit ≠ .failed then no 0x11 s
  else if partnerOfRunning c s then no 0x103 s
  else
    let r := editOpenOp s
    if r.1 = 0 then ok [] (forwardEdit 0x0310 [] r.2.2) else replyWith r.1 r.2.1 r.2.2

/-- EDIT_BLOCK (R254, R269). -/
def cmdEditBlock (c : Ctx) (offset : W32) (data : List Byte) (s : State) : Ans :=
  let st := blockStatus 2097152 (s.prog.edit = .opened) offset data
  if st ≠ 0 then no st s
  else if partnerOfRunning c s then no 0x103 s
  else ok [] (forwardEdit 0x0311 (beBytes 4 offset.toNat ++ data) { s with prog.editBuf := putBlock s.prog.editBuf offset.toNat data })

/-- EDIT_CLOSE (R255, R269). Of several refusals the lowest status is given (R617). -/
def cmdEditClose (c : Ctx) (s : State) : Ans :=
  let r := editCloseOp s
  if partnerOfRunning c s ∧ (r.1 = 0 ∨ 0x103 < r.1.toNat) then no 0x103 s
  else if r.1 = 0 then ok [] (forwardEdit 0x0312 [] r.2) else no r.1 r.2

/-- The PRG_INFO that the active partner forwards to the standby to learn its shadow digest, below sync link version 1.1 (R374). -/
def askShadow (s : State) : State :=
  let peer : BitVec 6 := if s.sys.partner then 0 else 1
  let hops := if inBasin s then [s.sys.ringId, peer] else [peer]
  let pkt := header 2 0 0 0 (pathField false hops 0) 0x0304 0 0
  sendControlCommand s.pas.nextTag (ownSrc s) pkt { s with pas.nextTag := s.pas.nextTag + 1, red.infoTag := some s.pas.nextTag }

/-- The answer to it: the shadow digest of a standby that does not build (R253, R308). -/
def noteShadow (ps : List Byte) (s : State) : State :=
  let s := { s with red.infoTag := none }
  if beNat (ps.take 4) / 2 ^ 28 % 8 = editCode .building then s
  else { s with red.builtDig := some (BitVec.ofNat 64 (beNat ((ps.drop 16).take 8))) }

/-- Whether the standby in step has not reported its shadow bank yet (R270). -/
def awaitsBuilt (s : State) : Bool := s.red.role = 1 && s.red.peerRole = 3 && s.red.builtDig.isNone

/-- An edit or undo refused for want of that report, for which the active partner asks where no BUILT will come (R270, R374). -/
def notBuilt (s : State) : Ans := no 0x12 (if s.red.syncVer.toNat < 0x11 ∧ s.red.infoTag.isNone then askShadow s else s)

/-- Arm an edit or undo (R258, R270, R271): in a pair whose standby is in step it must hold the same shadow bank.
A resynchronisation that runs is broken off, and the next one brings the armed bank. [Log: DEDUCED, unsafe, entry 132; DEDUCED, unsafe, entry 255.] -/
def armEdit (c : Ctx) (undo : Bool) (e : Tick) (s : State) : Ans :=
  let t := arm undo e s
  if s.red.role = 1 ∧ s.red.peerRole = 2 ∧ s.red.resync.phase ≠ 0 then ok (outTick c s e) (dropStandby 4 t)
  else if s.red.role = 1 ∧ s.red.peerRole = 3 then
    if s.red.builtDig = some (shadowBank s).digest then
      later (.recordAck (s.tsk.tick + 1).toNat) (outTick c s e) { t with red.items := t.red.items ++ [if undo then .undoTick e else .editTick e] }
    else ok (outTick c s e) (dropStandby 4 t)
  else ok (outTick c s e) t

/-- The tick that EDIT_APPLY and UNDO_EDIT name (R258): 0 in the command selects the one 100 ticks ahead. -/
def namedTick (c : Ctx) (s : State) (tick : Tick) : Option Tick :=
  if tick = 0 then some (s.tsk.tick + 100) else leadTick s (inTick c s tick)

/-- EDIT_APPLY (R258, R269 to R271, R617). -/
def cmdEditApply (c : Ctx) (tick : Tick) (s : State) : Ans :=
  match namedTick c s tick with
  | none => no 0x10 s
  | some e =>
    if s.prog.edit ≠ .built then no 0x12 s
    else if awaitsBuilt s then notBuilt s
    else if partnerOfRunning c s then no 0x103 s
    else armEdit c false e s

/-- An edit or undo tick that waits for the next record (R271). -/
def isEditItem (i : RecItem) : Bool :=
  match i with | .editTick _ => true | .undoTick _ => true | _ => false

/-- EDIT_ABORT (R266, R269, R271): an armed edit or undo that no record has carried is known to no standby, and is taken back here alone. -/
def cmdEditAbort (c : Ctx) (s : State) : Ans :=
  if partnerOfRunning c s then no 0x103 s
  else
    let r := editAbortOp s
    if r.1 ≠ 0 then no r.1 r.2
    else
      let wait := s.red.items.any isEditItem
      ok [BitVec.ofNat 8 (editCode r.2.prog.edit)]
        (if wait then { r.2 with red.items := r.2.red.items.filter fun i => !isEditItem i } else forwardEdit 0x0314 [] r.2)

/-- UNDO_EDIT (R267, R269 to R271, R617). -/
def cmdUndoEdit (c : Ctx) (tick : Tick) (s : State) : Ans :=
  match namedTick c s tick with
  | none => no 0x10 s
  | some e =>
    if s.prog.edit ≠ .none then no 0x11 s
    else if s.prog.undoAvail && awaitsBuilt s then notBuilt s
    else if partnerOfRunning c s then no 0x103 s
    else if !s.prog.undoAvail then no 0x309 s
    else armEdit c true e s

/-- EDIT_STATUS (R308). -/
def cmdEditStatus (c : Ctx) (s : State) : Ans :=
  ok ([BitVec.ofNat 8 (editCode s.prog.edit), BitVec.ofNat 8 (b01 s.prog.undoAvail)] ++ beBytes 4 (prgBuild s).toNat ++
    beBytes 4 (prgEditErr s) ++ beBytes 4 s.prog.errOfs.toNat ++ outTick c s s.prog.armTick ++ beBytes 4 (prgDrain s))
    { s with free := s.free + 1 }

/-! ## Run control group (R79, R98, R105 to R110, R310) -/

/-- Whether a task number names a task that is not ABSENT. -/
def taskThere (s : State) (n : Byte) : Bool := decide (n.toNat < 32) && decide ((task s n.toNat).st ≠ .absent)

/-- RUN (R107): it takes the place of a RUN that is still pending. [Log: DESIGN CHOICE, unsafe, entry 179.] -/
def cmdRun (c : Ctx) (tick : Tick) (s : State) : Ans :=
  let t := if tick = 0 ∨ inTick c s tick = s.tsk.tick + 1 then nextTick s else inTick c s tick
  let lead := (t - s.tsk.tick).toNat
  if lead = 0 ∨ 16777215 < lead then no 0x10 s
  else if partnerOfRunning c s then no 0x103 s
  else ok (outTick c s t) { s with tsk.runAt := some t }

/-- STOP (R108). -/
def cmdStop (c : Ctx) (s : State) : Ans :=
  if partnerOfRunning c s then no 0x103 s else ok (outTick c s (nextTick s)) { dropPending s with tsk.stopReq := true }

/-- STEP (R109). -/
def cmdStep (c : Ctx) (n : Byte) (s : State) : Ans :=
  let t := task s n.toNat
  if !taskThere s n ∨ t.st = .disabled ∨ t.st = .faulted then no 0x10 s
  else if s.tsk.steps.contains n.toNat ∨ (released t ∧ t.stepped) then no 0x11 s
  else if s.tsk.mode = .run then no 0x12 s
  else if s.red.role ≠ 0 then no 0x103 s
  else ok (outTick c s (nextTick s)) { s with tsk.steps := s.tsk.steps ++ [n.toNat] }

/-- TASK_ENABLE (R105); a background task is enabled only in SIMPLEX (R83). -/
def cmdTaskEnable (c : Ctx) (n : Byte) (s : State) : Ans :=
  if !taskThere s n then no 0x10 s
  else if partnerOfRunning c s then no 0x103 s
  else ok (outTick c s (nextTick s)) { s with tsk.enables := s.tsk.enables ++ [n.toNat] }

/-- TASK_DISABLE (R105). -/
def cmdTaskDisable (c : Ctx) (n : Byte) (s : State) : Ans :=
  if !taskThere s n then no 0x10 s
  else if partnerOfRunning c s then no 0x103 s
  else ok (outTick c s (nextTick s)) { s with tsk.disables := s.tsk.disables ++ [n.toNat] }

/-- TASK_TRIGGER (R79). -/
def cmdTaskTrigger (c : Ctx) (n : Byte) (s : State) : Ans :=
  if !taskThere s n ∨ kindOf (taskDef s n.toNat) ≠ 1 then no 0x10 s
  else if s.tsk.mode ≠ .run then no 0x12 s
  else if partnerOfRunning c s then no 0x103 s
  else ok (outTick c s (nextTick s)) { s with tsk.triggers := s.tsk.triggers ++ [n.toNat] }

/-- TASK_RESTART (R98). -/
def cmdTaskRestart (c : Ctx) (n : Byte) (s : State) : Ans :=
  if !taskThere s n ∨ (task s n.toNat).st ≠ .faulted then no 0x10 s
  else if partnerOfRunning c s then no 0x103 s
  else ok (outTick c s (nextTick s)) { s with tsk.restarts := s.tsk.restarts ++ [n.toNat] }

/-- TASK_STATUS (R310). -/
def cmdTaskStatus (c : Ctx) (n : Byte) (s : State) : Ans :=
  if !taskThere s n then no 0x10 s
  else
    let t := task s n.toNat
    let d := taskDef s n.toNat
    ok (beBytes 4 (tskCfg s n.toNat).toNat ++ [BitVec.ofNat 8 (tstateCode t.st), BitVec.ofNat 8 (bitAt t.ext 1 + b01 t.evtPend)] ++
      beBytes 2 t.evtLost.toNat ++ outTick c s t.lt ++ beBytes 2 t.ovrTotal.toNat ++
      [t.ovrConsec, BitVec.ofNat 8 (field d.trap.toNat 30 28), t.sticky.setWidth 8] ++
      beBytes 2 t.execMax.toNat ++ beBytes 2 t.execLast.toNat ++ beBytes 2 t.lastTrap.toNat) s

/-- RUN_STATUS (R310). -/
def cmdRunStatus (c : Ctx) (s : State) : Ans :=
  ok ([BitVec.ofNat 8 (modeCode s.tsk.mode)] ++ outTick c s s.tsk.tick ++ beBytes 4 (tskReleased s) ++ beBytes 4 (tskFaulted s)) s

/-! ## Time group (R311, R475 to R482) -/

/-- TIME_GET (R311). -/
def cmdTimeGet (c : Ctx) (s : State) : Ans :=
  let r := s.bkd.rtc.toNat
  ok (beBytes 4 (r / 32768) ++ beBytes 2 (r % 32768) ++ beBytes 6 r ++ [BitVec.ofNat 8 (b01 s.bkd.osf)] ++ outTick c s s.tsk.tick ++
    beBytes 4 (tbStatus s)) s

/-- The days of month m (R478, R479). -/
def daysIn (y m : Nat) : Nat :=
  match m with
  | 4 | 6 | 9 | 11 => 30
  | 2 => if leapYear y then 29 else 28
  | _ => 31

/-- Whether a calendar date is possible (R479). -/
def dateOk (y m d h mi sec : Nat) : Bool :=
  decide (2000 ≤ y ∧ y ≤ 2135 ∧ 1 ≤ m ∧ m ≤ 12 ∧ 1 ≤ d ∧ d ≤ daysIn y m ∧ h ≤ 23 ∧ mi ≤ 59 ∧ sec ≤ 59)

/-- Calendar to seconds (R478). -/
def calendarSeconds (y m d h mi sec : Nat) : Nat :=
  (daysToYear y + daysBefore (leapYear y) m + (d - 1)) * 86400 + h * 3600 + mi * 60 + sec

/-- TIME_SET (R311, R476, R479). -/
def cmdTimeSet (form : TimeForm) (s : State) : Ans :=
  match form with
  | .binary sec frac =>
    if frac.getLsbD 15 then no 0x10 s
    else ok [] (rtcCommitOp { s with bkd.setSec := sec, bkd.setFrac := frac.setWidth 15 })
  | .calendar y m d h mi sec =>
    if dateOk y.toNat m.toNat d.toNat h.toNat mi.toNat sec.toNat then
      ok [] (rtcCommitOp { s with
        bkd.setSec := BitVec.ofNat 32 (calendarSeconds y.toNat m.toNat d.toNat h.toNat mi.toNat sec.toNat), bkd.setFrac := 0 })
    else no 0x501 s
  | .other _ => no 0x10 s

/-- WAKE_SET (R481). With N = 0 there is no next firing, and the reply's value is open. [Log: DESIGN CHOICE, safe, entry 6.] -/
def cmdWakeSet (n : W24) (s : State) : Ans :=
  let s := { s with bkd.wakeN := n, bkd.wakeLeft := wakeFull n }
  if n = 0 then
    let r := drawWord s
    ok (beBytes 4 r.1.toNat) r.2
  else ok (beBytes 4 ((s.bkd.rtc.toNat + wakeFull n) / 32768)) s

/-- PWRON_RELEASE (R482). -/
def cmdPwronRelease (s : State) : Ans := ok [] { s with bkd.pwron := false }

/-! ## Depot group (R312, R503 to R508) -/

/-- A refusal with ST_DEPOT_BUSY (R529). -/
def depotBusy (s : State) : Ans := no 0x601 { s with depot.refused := satInc s.depot.refused }

/-- DEPOT_READ (R312, R506, R508). -/
def cmdDepotRead (page : BitVec 16) (pages : Byte) (s : State) : Ans :=
  if pages = 0 ∨ 31 < pages.toNat ∨ 1024 < page.toNat + pages.toNat then no 0x10 s
  else if s.depot.scan then depotBusy s
  else
    let ps := (List.range pages.toNat).map (page.toNat + ·)
    ok (ps.flatMap fun p => (pageRead s p).1 ++ beBytes 4 (pageRead s p).2.toNat) (ps.foldl (fun s p => noteRead p s) s)

/-- DEPOT_WRITE (R312, R505, R507, R508, R510). -/
def cmdDepotWrite (c : Ctx) (seq : W32) (page : BitVec 16) (data : List Byte) (s : State) : Ans :=
  let p := page.toNat
  let src := DepSrc.host c.whom seq
  if data.length ≠ 256 then no 0x01 s
  else if p < 384 ∨ 511 < p then no 0x10 s
  else if s.depot.scan ∨ s.depot.pfail then depotBusy s
  else if depotRoom s p src then later (.depot p) [] (depotEnter p data src s)
  else later (.depotPlace p data) [] { s with depot.waiters := s.depot.waiters ++ [src] }

/-- DEPOT_STATUS (R312, R530). -/
def cmdDepotStatus (s : State) : Ans :=
  if s.depot.scan then depotBusy s
  else ok ([BitVec.ofNat 8 (b01 s.depot.busy)] ++ beBytes 2 s.depot.patrol.toNat ++ beBytes 4 s.depot.refreshed.toNat ++
    beBytes 4 s.depot.corrected.toNat ++ beBytes 4 s.depot.uncorr.toNat) s

/-! ## Accession log group (R313, R520, R526, R527) -/

/-- The position from which LOG_READ reads; none when the first index lies ahead of the log (R526). -/
def readFrom (s : State) (first : W32) : Option Nat :=
  let newest := s.log.next - 1
  if logPosition s first ≤ logPosition s newest + 1 then some (logPosition s first)
  else if (first - newest - 1).toNat < 2 ^ 31 then none
  else some 0

/-- The records that LOG_READ returns (R526). -/
def logRecords (s : State) (first : W32) (count lowest : Nat) : List Acc :=
  match readFrom s first with
  | none => []
  | some p => ((s.log.flash ++ s.log.buf).filter fun a => decide (p ≤ logPosition s a.index) && decide (lowest ≤ a.sev.toNat)).take count

/-- LOG_READ (R313, R526). [Log: DEDUCED, unsafe, entry 138.] -/
def cmdLogRead (first : W32) (count lowest : Byte) (s : State) : Ans :=
  if count = 0 ∨ 127 < count.toNat then no 0x10 s
  else
    let l := logRecords s first count.toNat lowest.toNat
    let next : W32 := match l.getLast? with | some a => a.index + 1 | none => s.log.next
    ok (beBytes 4 next.toNat ++ [BitVec.ofNat 8 l.length, 0, 0, 0] ++ l.flatMap accBytes) s

/-- LOG_FREEZE (R527). -/
def cmdLogFreeze (c : Ctx) (freeze : Byte) (s : State) : Ans :=
  if freeze = 1 then
    let who : Option Endpoint := match c.whom with | .session ep => some ep | _ => none
    ok [60] { s with log.frozen := true, log.freezer := who, log.freezeEnd := s.sys.upTicks + 6000000 }
  else if freeze = 0 then ok [0] (unfreeze s)
  else no 0x10 s

/-- LOG_STATUS (R313, R520). -/
def cmdLogStatus (s : State) : Ans :=
  ok (beBytes 4 (oldestIndex s).toNat ++ beBytes 4 (s.log.next - 1).toNat ++ beBytes 2 s.log.buf.length ++
    (List.range 8).flatMap fun v => beBytes 4 (Tab.get 0 s.log.lost v).toNat) s

/-- NOTICE_SUBSCRIBE (R321). -/
def cmdNoticeSubscribe (c : Ctx) (lowest : Byte) (s : State) : Ans :=
  match ctxSession c s with
  | none => no 0x09 s
  | some x =>
    if lowest = 0xFF then ok [] (updSession x.ep (fun y => { y with notice := none }) s)
    else if lowest.toNat ≤ 7 then ok [] (updSession x.ep (fun y => { y with notice := some lowest, noticeNo := 0 }) s)
    else no 0x10 s

/-! ## Update group (R314, R551 to R568) -/

/-- An operation with a status, reply bytes and a new state, as an answer. -/
def answer (r : BitVec 16 × List Byte × State) : Ans := replyWith r.1 r.2.1 r.2.2

/-- UPD_BEGIN (R551). -/
def cmdUpdBegin (part : Byte) (length : W32) (s : State) : Ans := answer (updBeginOp part.toNat length.toNat s)

/-- UPD_BLOCK (R552, R553). A last block shorter than 512 bytes is taken where it ends at the image length. [Log: DEDUCED, unsafe, entry 33.] -/
def cmdUpdBlock (part : Byte) (offset : W32) (data : List Byte) (s : State) : Ans :=
  if 8192 < data.length then no 0x01 s
  else if 5 ≤ part.toNat ∨ data = [] then no 0x10 s
  else answer (updBlockOp part.toNat offset.toNat data s)

/-- UPD_VERIFY (R555). -/
def cmdUpdVerify (part : Byte) (s : State) : Ans :=
  let k := part.toNat
  if 5 ≤ k then no 0x10 s
  else if (idleSlot (partOf s k)).st ≠ .complete then no 0x12 s
  else later (.verify k) [] (updIdle k (fun x => { x with st := .verifying }) s)

/-- UPD_ACTIVATE (R556): the reply follows the write of the boot selector. -/
def cmdUpdActivate (part : Byte) (s : State) : Ans :=
  let r := updActivateOp part.toNat s
  if r.1 = 0 then afterWrite (.twin 0) r.2.2 else answer r

/-- UPD_CONFIRM (R558). -/
def cmdUpdConfirm (s : State) : Ans := if canConfirm s then ok [] (confirmTrial s) else no 0x12 s

/-- UPD_REJECT (R560). -/
def cmdUpdReject (s : State) : Ans := if inTrial s && decide ((selectorOf s).trial ≠ 0) then ok [] (rejectTrial s) else no 0x12 s

/-- UPD_STATUS (R568). -/
def cmdUpdStatus (s : State) : Ans := ok ((List.range 5).flatMap (partRecord s)) s

/-- UPD_MANIFEST (R562, R563). -/
def cmdUpdManifest (m : List Byte) (s : State) : Ans :=
  let r := updManifestOp m s
  if r.1 = 0 ∧ r.2.2.sys.actPending then afterWrite (.twin 0) r.2.2 else answer r

/-! ## Redundancy group (R315, R390, R394) -/

/-- PAIR_STATUS (R315, R398). [Log: DEDUCED, unsafe, entry 139.] -/
def cmdPairStatus (s : State) : Ans :=
  let own := (s.red.role.setWidth 8, beBytes 2 (ownRdv s).toNat)
  let peer := (s.red.peerRole.setWidth 8, beBytes 2 s.red.peerRdv.toNat)
  let (a, b) := if s.sys.partner then (peer, own) else (own, peer)
  ok ([a.1, b.1, BitVec.ofNat 8 (bitAt s.red.pathSync 1 + b01 s.red.pathHb), 0] ++ beBytes 2 s.red.epoch.toNat ++ a.2 ++ b.2 ++
    beBytes 4 s.red.digestMis.toNat) s

/-- PAIR_SWITCHOVER (R315, R390). [Log: DEDUCED, unsafe, entry 253.] -/
def cmdPairSwitchover (c : Ctx) (s : State) : Ans :=
  if s.red.role ≠ 1 ∨ s.red.peerRole ≠ 3 then no 0x12 s
  else
    let t := s.tsk.tick + 100
    later (.recordAck (s.tsk.tick + 1).toNat) (outTick c s t)
      (sendControl 0x04 (beBytes 6 t.toNat) { s with red.switchAt := some t.toNat, red.items := s.red.items ++ [.switchover t] })

/-- PAIR_RESYNC (R368, R394) at the standby itself: a warm one takes it only with the sync link up. [Log: DEDUCED, unsafe, entry 140.] -/
def cmdPairResync (s : State) : Ans :=
  if s.red.role = 2 then no 0x11 s
  else if !standby s ∨ (s.red.role = 4 ∧ !syncReady s) then no 0x12 s
  else ok [] (enterSyncing s)

/-! ## Ports group (R316) -/

/-- FEATURE_CONFIG (R316, R375). -/
def cmdFeatureConfig (code inst : Byte) (st : Settings) (s : State) : Ans :=
  let r := applySettings code.toNat inst.toNat st s
  if r.1 ≠ 0 then no r.1 r.2
  else ok [] (noteSettings (.settings code inst st) r.2)

/-- FEATURE_ENABLE (R32, R316). [Log: DEDUCED, unsafe, entry 252.] -/
def cmdFeatureEnable (code inst : Byte) (s : State) : Ans :=
  let k := code.toNat
  if !featureKnown k inst.toNat ∨ !featureFree k ∨ (k = 0x21 ∧ 6 ≤ s.cast.pinSel.toNat) then no 0x10 s
  else
    let r := enableFeature k inst.toNat s
    match r.2 with
    | none => ok [] (if enabled s k inst.toNat then r.1 else noteSettings (.enable code inst true) r.1)
    | some n => replyWith 0x13 [BitVec.ofNat 8 n, (claimAt r.1 n).code, (claimAt r.1 n).inst, 0] r.1

/-- FEATURE_DISABLE (R34, R316). -/
def cmdFeatureDisable (code inst : Byte) (s : State) : Ans :=
  if !featureKnown code.toNat inst.toNat ∨ !featureFree code.toNat then no 0x10 s
  else ok [] (noteSettings (.enable code inst false) (disableFeature code.toNat inst.toNat s))

/-- The status block of a feature (R430, R431). -/
def statusBlock (code inst : Nat) (s : State) : List Byte :=
  match code with
  | 0x20 => [BitVec.ofNat 8 (b01 s.tsk.locked), s.tsk.activeSrc.setWidth 8, 0, 0] ++ beBytes 4 (s.tsk.offset.signExtend 32).toNat ++
      beBytes 4 s.ports.edges.toNat ++ beBytes 4 s.ports.rejected.toNat
  | 0x25 =>
    let g := gpio s inst
    [BitVec.ofNat 8 (b01 (s.ports.mfpLevel.getLsbD inst)), BitVec.ofNat 8 (b01 (enabled s 0x25 inst && decide (g.dir = 0) && g.level))]
  | _ => []

/-- FEATURE_STATUS (R316). -/
def cmdFeatureStatus (code inst : Byte) (s : State) : Ans :=
  if !featureKnown code.toNat inst.toNat then no 0x10 s
  else ok ([BitVec.ofNat 8 (b01 (enabled s code.toNat inst.toNat))] ++ statusBlock code.toNat inst.toNat s) s

/-- RES_QUERY (R37 to R40, R316). -/
def cmdResQuery (s : State) : Ans :=
  ok (((List.range 66).flatMap fun n => beBytes 4 (claimWord (claimAt s n))) ++ beBytes 4 (viewRes s 0).toNat ++ beBytes 4 (viewRes s 4).toNat) s

/-! ## Local I/O and safety group (R317, R449, R468) -/

/-- DIO_STATUS (R317, R468). -/
def cmdDioStatus (s : State) : Ans :=
  let f := dioFault s
  ok (beBytes 2 s.dio.inp.toNat ++ [s.dio.outSent, BitVec.ofNat 8 (field f.toNat 23 16)] ++ beBytes 4 f.toNat ++
    [BitVec.ofNat 8 (dioStatus s / 2 ^ 24)]) s

/-- DIO_CONFIG (R449). -/
def cmdDioConfig (block : List Byte) (s : State) : Ans := let r := dioConfigOp block s; replyWith r.1 [] r.2

/-- SAF_STATUS (R317). -/
def cmdSafStatus (s : State) : Ans :=
  ok (beBytes 4 (viewSaf s 0).toNat ++ beBytes 2 s.dio.safSwitch.toNat ++ beBytes 4 s.dio.lastDemand.toNat) s

/-! ## Cast and diagnostics group, register window group (R318, R319, R600) -/

/-- CAST_NOW (R42, R318, R352): the head raises its own trigger and spreads the cast. -/
def cmdCastNow (scope : Byte) (s : State) : Ans :=
  if scope = 0 then ok [] (raiseCast 0 s)
  else if scope = 1 ∧ inBasin s then ok [] (sendCastFrame 0 (raiseCast 0 s))
  else no 0x10 s

/-- CAST_ARM (R46). -/
def cmdCastArm (s : State) : Ans := ok [] (castArmOp s)

/-- The block bases of R599, in units of 0x10000. -/
def blockBase (b : Nat) : Bool := b % 2 ^ 16 = 0 && 1 ≤ b / 2 ^ 16 && b / 2 ^ 16 ≤ 0x16 && b / 2 ^ 16 ≠ 0x0B

/-- CAST_READ (R318, R600, R610, R611): SUP owns the CAST block, where the copies of every block lie (R599). -/
def cmdCastRead (c : Ctx) (base : W32) (offset count : BitVec 16) (s : State) : Ans :=
  let b := base.toNat
  let unitOk : Bool := match c.unit with | none => true | some u => decide (ownerOf b = some u ∨ u = 0)
  if count = 0 ∨ 2047 < count.toNat ∨ !blockBase b ∨ !unitOk then no 0x10 s
  else if !s.cast.held then no 0x12 s
  else
    let o := offset.toNat / 4 * 4
    let sec := 0x800 * (b / 2 ^ 16)
    let reg := fun (i : Nat) => if o + 4 * i < 0x800 then Tab.get 0 s.cast.copies (sec + o + 4 * i) else 0
    ok (beBytes 4 (peek s 0x40000).toNat ++ (List.range count.toNat).flatMap fun i => beBytes 4 (reg i).toNat) s

/-- REG_READ (R319, R600). -/
def cmdRegRead (c : Ctx) (addr : W32) (count : BitVec 16) (s : State) : Ans :=
  if count = 0 ∨ 2048 < count.toNat ∨ !unitReaches c.unit addr.toNat count.toNat then no 0x10 s
  else
    let r := readRegs addr.toNat count.toNat s
    ok (r.1.flatMap fun v => beBytes 4 v.toNat) r.2

/-- REG_WRITE (R319, R600). -/
def cmdRegWrite (c : Ctx) (addr : W32) (count : BitVec 16) (vals : List W32) (s : State) : Ans :=
  if vals.length ≠ count.toNat then no 0x01 s
  else if count = 0 ∨ 2048 < count.toNat ∨ !unitReaches c.unit addr.toNat count.toNat then no 0x10 s
  else ok [] (writeRegs addr.toNat vals s)

/-! ## Identity group (R320, R535 to R541) -/

/-- IDENT (R4, R320). -/
def cmdIdent (s : State) : Ans :=
  ok (padTo 16 (ascii (if Config.coated then "TLH-6424-IT-C" else "TLH-6424-IT")) ++ beBytes 16 Config.serial.toNat ++
    beBytes 6 Config.mac.toNat ++ ((List.range 5).flatMap fun k => beBytes 3 (runVer s k).toNat) ++ beBytes 3 Config.bootRomVersion.toNat) s

/-- ATTEST (R538). -/
def cmdAttest (nonce : List Byte) (s : State) : Ans := if nonce.length = 32 then ok (attestBytes nonce s) { s with free := s.free + 1 } else no 0x01 s

/-- CERT_READ (R537). -/
def cmdCertRead (key pos : Byte) (s : State) : Ans :=
  if 1 < key.toNat ∨ 2 < pos.toNat then no 0x10 s else ok ((Config.certificate (decide (key = 1)) pos.toNat).take 8192) s

/-- KEY_ENROL (R540, R541): the reply follows the write of page 0 of the slot. -/
def cmdKeyEnrol (index : BitVec 16) (role : Byte) (ed mldsa : List Byte) (s : State) : Ans :=
  if ed.length ≠ 32 ∨ mldsa.length ≠ 1952 then no 0x01 s
  else
    let r := keyEnrolOp index.toNat role.toNat ed mldsa s
    if r.1 = 0 then afterWrite (.depot r.2.1) r.2.2 else no r.1 r.2.2

/-- KEY_REMOVE (R540, R541). -/
def cmdKeyRemove (index : BitVec 16) (s : State) : Ans := let r := keyRemoveOp index.toNat s; replyWith r.1 [] r.2

/-- KEY_LIST (R320). -/
def cmdKeyList (s : State) : Ans := ok (keyListBytes s) s

end Sys2Proof.Machine
end

