-- ==== Sys2Proof/Machine/HostRun.lean ====
section
/-! DEFINITION. How requests are taken, placed, executed and answered: unit paths (R18 to R23), sessions and the steps of
R293, reply cache and fragments (R294 to R298), broadcast (R288, R289), forwarding to other modules (R351, R374). -/

namespace Sys2Proof.Machine

/-! ## Unit paths (R18 to R23) -/

/-- Where a unit path leads: to a unit that this module acts for, to another member, to the partner, or nowhere. -/
inductive Place where
  | unit (kind : Nat) (idx : Byte) (u : Option Nat)
  | ring (dst : Byte)
  | partner
  | nowhere (st : BitVec 16)
  deriving DecidableEq, Repr

/-- The rest of a path at this module; `idx` is the module's own index in its group. -/
def placeModule (idx : Byte) (hops : List (BitVec 6)) : Place :=
  match hops with
  | [] => .unit 1 idx none
  | [u] => if u.toNat < 6 then .unit 0 (u.setWidth 8) (some u.toNat) else .nowhere 0x101
  | _ => .nowhere 0x101

/-- To the other partner, over the sync link. Until start-up has ended the path leads there whether or not the link is up,
and R60 refuses the request. -/
def placePartner (s : State) : Place := if s.red.syncUp || s.sys.boot != .ready then .partner else .nowhere 0x102

/-- The index of this module in its pair (R19). -/
def partnerIdx (s : State) : Nat := b01 s.sys.partner

/-- The rest of a path at this module's pair: the active partner acts for the pair (R22). -/
def placePair (s : State) (idx : Byte) (hops : List (BitVec 6)) : Place :=
  match hops with
  | [] => if standby s then placePartner s else .unit 2 idx none
  | p :: rest =>
    if p.toNat = partnerIdx s then placeModule (BitVec.ofNat 8 (partnerIdx s)) rest
    else if p.toNat < 2 then placePartner s
    else .nowhere 0x101

/-- A path at the basin: its head acts for it (R22). -/
def placeBasin (s : State) (hops : List (BitVec 6)) : Place :=
  match hops with
  | [] =>
    if s.pas.head then .unit 3 0xFF none
    else if s.pas.headId = s.sys.ringId then placePartner s
    else .ring (memberDst s s.pas.headId.toNat)
  | m :: rest =>
    let k := Tab.get {} s.pas.memb m.toNat
    if m = s.sys.ringId then (if s.red.pairEn then placePair s (m.setWidth 8) rest else placeModule (m.setWidth 8) rest)
    else if k.inTopo then .ring (memberDst s m.toNat)
    else if k.lost then (if s.sys.boot != .ready then .ring (memberDst s m.toNat) else .nowhere 0x102)
    else .nowhere 0x101

/-- Where a path leads from the root (R21). -/
def placeOf (s : State) (hops : List (BitVec 6)) : Place :=
  if inBasin s then placeBasin s hops else if s.red.pairEn then placePair s 0xFF hops else placeModule 0xFF hops

/-- Whether a request goes to the children of its unit: a major version below 2 ignores BCAST (R284, R300). -/
def spreads (r : Req) : Bool := r.bcast && decide (2 ≤ r.major.toNat)

/-- Step 12 of R293, with what R287 and R300 say of the versions; the commands of the session group act on the module whose
port received them. [Log: DEDUCED, unsafe, entry 126; DEDUCED, unsafe, entry 137.] -/
def placeRequest (r : Req) (op : Nat) (s : State) : Place :=
  if r.major = 1 ∧ (r.hops ≠ [] ∨ r.ext) then .nowhere 0x101
  else if r.major = 2 ∧ r.ext then .nowhere 0x02
  else if r.hops = [] ∧ sessionSet op ∧ !spreads r then placeModule 0xFF []
  else placeOf s r.hops

/-! ## The command itself -/

/-- What a command of the session, unit, image, program and run control groups does at its unit. -/
def runLow (c : Ctx) (i : Instr) (s : State) : Option Ans :=
  match i with
  | .authChallenge _ k share ek => some (cmdAuthChallenge c k share ek s)
  | .authProve _ sig => some (cmdAuthProve c sig s)
  | .bye _ n => some (cmdBye c n s)
  | .sessionInfo _ => some (cmdSessionInfo c s)
  | .unitInfo _ => some (cmdUnitInfo c s)
  | .unitStatus _ => some (cmdUnitStatus c s)
  | .basinMap _ => some (cmdBasinMap s)
  | .startMode _ m => some (cmdStartMode m s)
  | .reset _ k => some (cmdReset k s)
  | .imgRead _ sp a n => some (cmdImgRead c sp a n s)
  | .imgWrite _ sp a n v => some (cmdImgWrite c sp a n v s)
  | .imgLayout _ => some (cmdImgLayout s)
  | .prgLoadOpen _ => some (cmdPrgLoadOpen s)
  | .prgLoadBlock _ o d => some (cmdPrgLoadBlock o d s)
  | .prgLoadClose _ => some (cmdPrgLoadClose s)
  | .prgInfo _ => some (cmdPrgInfo s)
  | .prgRead _ b q f n => some (cmdPrgRead b q f n s)
  | .editOpen _ => some (cmdEditOpen c s)
  | .editBlock _ o d => some (cmdEditBlock c o d s)
  | .editClose _ => some (cmdEditClose c s)
  | .editApply _ t => some (cmdEditApply c t s)
  | .editAbort _ => some (cmdEditAbort c s)
  | .undoEdit _ t => some (cmdUndoEdit c t s)
  | .editStatus _ => some (cmdEditStatus c s)
  | .run _ t => some (cmdRun c t s)
  | .stop _ => some (cmdStop c s)
  | .step _ n => some (cmdStep c n s)
  | .taskEnable _ n => some (cmdTaskEnable c n s)
  | .taskDisable _ n => some (cmdTaskDisable c n s)
  | .taskTrigger _ n => some (cmdTaskTrigger c n s)
  | .taskRestart _ n => some (cmdTaskRestart c n s)
  | .taskStatus _ n => some (cmdTaskStatus c n s)
  | .runStatus _ => some (cmdRunStatus c s)
  | _ => none

/-- What a command of the other groups does at its unit; HELLO, which opens sessions at the port that receives it, is no
command of a unit (R290). -/
def runHigh (c : Ctx) (seq : W32) (i : Instr) (s : State) : Ans :=
  match i with
  | .timeGet _ => cmdTimeGet c s
  | .timeSet _ f => cmdTimeSet f s
  | .wakeSet _ n => cmdWakeSet n s
  | .pwronRelease _ => cmdPwronRelease s
  | .depotRead _ p n => cmdDepotRead p n s
  | .depotWrite _ p d => cmdDepotWrite c seq p d s
  | .depotStatus _ => cmdDepotStatus s
  | .logRead _ f n l => cmdLogRead f n l s
  | .logFreeze _ f => cmdLogFreeze c f s
  | .logStatus _ => cmdLogStatus s
  | .noticeSubscribe _ l => cmdNoticeSubscribe c l s
  | .updBegin _ k n => cmdUpdBegin k n s
  | .updBlock _ k o d => cmdUpdBlock k o d s
  | .updVerify _ k => cmdUpdVerify k s
  | .updActivate _ k => cmdUpdActivate k s
  | .updConfirm _ => cmdUpdConfirm s
  | .updReject _ => cmdUpdReject s
  | .updStatus _ => cmdUpdStatus s
  | .updManifest _ m => cmdUpdManifest m s
  | .pairStatus _ => cmdPairStatus s
  | .pairSwitchover _ => cmdPairSwitchover c s
  | .pairResync _ => cmdPairResync s
  | .featureConfig _ k i st => cmdFeatureConfig k i st s
  | .featureEnable _ k i => cmdFeatureEnable k i s
  | .featureDisable _ k i => cmdFeatureDisable k i s
  | .featureStatus _ k i => cmdFeatureStatus k i s
  | .resQuery _ => cmdResQuery s
  | .dioStatus _ => cmdDioStatus s
  | .dioConfig _ b => cmdDioConfig b s
  | .safStatus _ => cmdSafStatus s
  | .castNow _ k => cmdCastNow k s
  | .castArm _ => cmdCastArm s
  | .castRead _ b o n => cmdCastRead c b o n s
  | .regRead _ a n => cmdRegRead c a n s
  | .regWrite _ a n v => cmdRegWrite c a n v s
  | .ident _ => cmdIdent s
  | .attest _ n => cmdAttest n s
  | .certRead _ k p => cmdCertRead k p s
  | .keyEnrol _ i r e m => cmdKeyEnrol i r e m s
  | .keyRemove _ i => cmdKeyRemove i s
  | .keyList _ => cmdKeyList s
  | _ => no 0x09 s

/-- Step 14 of R293. -/
def runCmd (c : Ctx) (seq : W32) (i : Instr) (s : State) : Ans := (runLow c i s).getD (runHigh c seq i s)

/-! ## Forwarding (R351, R374) -/

/-- A message as COMMAND frames: pieces of up to 1,016 bytes, MORE on every piece but the last. -/
def sendPieces (dst : Byte) (tag : W32) (origin : Byte) (bytes : List Byte) (s : State) : State :=
  let ps := chunks 1016 bytes.length bytes
  ps.zipIdx.foldl (fun s p =>
    sendRing 0x20 dst.toNat true (decide (p.2 + 1 < ps.length)) false (basinTick s) (commandBytes tag origin p.2 p.1) s) s

/-- Send a message towards another module and keep it until it is acknowledged; over the sync link no frame
acknowledges it. -/
def sendForward (viaSync : Bool) (dst : Byte) (tag : W32) (origin : Byte) (bytes : List Byte) (s : State) : State :=
  if viaSync then sendControlCommand tag origin bytes s
  else sendPieces dst tag origin bytes s

/-- The packet of a request as it is forwarded: without its auth tag, in one piece. -/
def requestPacket (r : Req) (op : BitVec 16) (params : List Byte) : List Byte :=
  let ext := match r.raw with | some w => w.2 | none => extPath r.ext r.hops
  let path := match r.raw with | some w => w.1.toNat / 64 * 64 | none => pathField r.ext r.hops 0
  header r.major.toNat r.minor.toNat (bitAt r.bcast 3) r.seq.toNat path op.toNat params.length 0 ++ ext ++ params

/-- Forward a request; its reply waits for the one that comes back under the forwarding tag. [Log: DEDUCED, unsafe, entry 127; DEDUCED, unsafe, entry 147.] -/
def forward (viaSync : Bool) (dst : Byte) (r : Req) (op : BitVec 16) (params : List Byte) (s : State) : Ans :=
  let tag := s.pas.nextTag
  let bytes := requestPacket r op params
  let f : Forward := { tag := tag, origin := ownSrc s, dst := dst, viaSync := viaSync, packet := bytes }
  later (.forward tag) [] (sendForward viaSync dst tag (ownSrc s) bytes
    { s with pas.nextTag := tag + 1, pas.forwards := s.pas.forwards ++ [f] })

/-- A request that a command sends on at the unit it reaches: a basin cast to the head (R352), and the resynchronisation of a
pair to its standby (R394). -/
def sendsOn (kind : Nat) (r : Req) (i : Instr) (s : State) : Option (Place × Req) :=
  match i with
  | .castNow _ k =>
    if k = 1 ∧ inBasin s ∧ !s.pas.head then some (placeBasin s [], { r with hops := [], ext := false, raw := none }) else none
  | .pairResync _ =>
    if kind = 2 ∧ s.red.role = 1 then
      some (placePartner s, { r with hops := r.hops ++ [BitVec.ofNat 6 (1 - partnerIdx s)], raw := none })
    else none
  | _ => none

/-! ## Steps 12 to 14 of R293 -/

/-- The parameters of a request, as bytes. -/
def bodyBytes (body : List Byte ⊕ Instr) : List Byte := match body with | .inl p => p | .inr i => paramsOf i

/-- The command of a request: none when its parameters have a wrong length (R303). -/
def bodyCmd (r : Req) (op : BitVec 16) (body : List Byte ⊕ Instr) : Option Instr :=
  match body with
  | .inl p => parseCmd r op.toNat p
  | .inr i => some i

/-- Whether the opcode is known at the request's version, the majors compared first (R299, R300), as the unit kind implements
it (R304). -/
def known (r : Req) (op kind : Nat) : Bool :=
  match fromVersion op with
  | none => false
  | some v => decide (v / 16 < r.major.toNat ∨ (v / 16 = r.major.toNat ∧ v % 16 ≤ r.minor.toNat)) && (kind ≠ 0 || internalSet op)

/-- Whether a request whose path has been resolved must wait for the end of start-up (R56, R60). An opcode that its unit does not
know is refused before it (step 13 of R293).
[Log: DEDUCED, unsafe, entry 174.] -/
def notReady (r : Req) (op : Nat) (p : Place) (s : State) : Bool :=
  if s.sys.boot = .ready then false
  else match p with
    | .unit k _ _ =>
      known r op (if spreads r then 1 else k) &&
      (if s.sys.boot = .rom then !romSet op else needsReady op || (spreads r && decide (2 ≤ k)))
    | .ring _ | .partner => true
    | .nowhere _ => false

/-- Forward a request to the other partner; over a sync link in management-only mode only one of the management set (R50).
[Log: DEDUCED, unsafe, entry 212.] -/
def forwardPartner (r : Req) (op : BitVec 16) (params : List Byte) (s : State) : Ans :=
  if s.red.syncMgmt && !mgmtSet op.toNat then no 0x06 s else forward true (peerDst s) r op params s

/-- A request that is no broadcast, at the place its path leads to. -/
def serveAt (whom : ReplyTo) (r : Req) (op : BitVec 16) (body : List Byte ⊕ Instr) (p : Place) (s : State) : Ans :=
  match p with
  | .nowhere st => no st s
  | .ring dst => forward false dst r op (bodyBytes body) s
  | .partner => forwardPartner r op (bodyBytes body) s
  | .unit kind idx u =>
    if !known r op.toNat kind then no 0x09 s
    else match bodyCmd r op body with
      | none => no 0x01 s
      | some i =>
        match sendsOn kind r i s with
        | some (.ring dst, r') => forward false dst r' op (paramsOf i) s
        | some (.partner, r') => forwardPartner r' op (paramsOf i) s
        | some (.nowhere st, _) => no st s
        | _ => runCmd { whom := whom, kind := kind, idx := idx, unit := u, basin := inBasin s && decide (r.ep ≠ .usb) } r.seq i s

/-! ## Broadcast (R288, R289) -/

/-- Enter a child's record in its gathering. -/
def addRecord (tag : W32) (i : Nat) (st : BitVec 16) (ps : List Byte) (s : State) : State :=
  { s with pas.gathers := s.pas.gathers.map fun g =>
      if g.tag = tag then { g with waiting := g.waiting.filter (· ≠ i), records := g.records ++ [(i, st, ps)] } else g }

/-- The record of a child in the reply to a broadcast (R289). -/
def childRecord (e : Nat × BitVec 16 × List Byte) : List Byte :=
  [BitVec.ofNat 8 e.1, 0] ++ beBytes 2 e.2.1.toNat ++ beBytes 2 e.2.2.length ++ e.2.2

/-- The records of a broadcast in ascending child index, and its status. A record enters in full when it and the six bytes
of every child after it stay within 8,192 bytes (R289, R298). [Log: DEDUCED, unsafe, entry 175.] -/
def gathered (l : List (Nat × BitVec 16 × List Byte)) : BitVec 16 × List Byte :=
  let sorted := (List.range 64).flatMap fun i => l.filter (·.1 = i)
  let body := sorted.zipIdx.foldl (fun (x : Bool × List Byte) e =>
    if 8192 < x.2.length + (childRecord e.1).length + 6 * (sorted.length - 1 - e.2) then
      (false, x.2 ++ childRecord (e.1.1, 0x0B, []))
    else (x.1 && decide (e.1.2.1 = 0), x.2 ++ childRecord e.1)) (true, [])
  (if body.1 then 0 else 0x0A, body.2)

/-- One child of a broadcast acts as if addressed by its own path. -/
def broadcastChild (r : Req) (op : BitVec 16) (body : List Byte ⊕ Instr) (tag : W32) (i : Nat) (s : State) : State :=
  let hops := r.hops ++ [BitVec.ofNat 6 i]
  let r' := { r with hops := hops, ext := decide (6 < hops.length), bcast := false, raw := none }
  let a := serveAt (.child tag i) r' op body (placeOf s hops) s
  match a.2.2.2 with
  | none => addRecord tag i a.2.1 a.2.2.1 a.1
  | some w => { a.1 with host.remote := a.1.host.remote ++ [(.child tag i, { req := r', opcode := op, params := a.2.2.1, wait := w })] }

/-- A packet of this module is executed, which `SYS_CMD_COUNT` counts once (R604): it has passed step 13. [Log: DEDUCED, unsafe, entry 154.] -/
def countCmd (s : State) : State := { s with sys.cmdCount := satInc s.sys.cmdCount }

/-- A packet that has passed step 13 at a unit of this module is counted. -/
def countAt (r : Req) (op : BitVec 16) (p : Place) (s : State) : State :=
  match p with
  | .unit kind _ _ => if known r op.toNat kind then countCmd s else s
  | _ => s

/-- A broadcast at the unit that its path names. -/
def broadcast (r : Req) (op : BitVec 16) (body : List Byte ⊕ Instr) (kind : Nat) (s : State) : Ans :=
  if !known r op.toNat 1 then no 0x09 s
  else if kind = 0 then ok [] (countCmd s)
  else
    let s := countCmd s
    let cs := mapMembers (childMap kind s)
    let tag := s.pas.nextTag
    let s := { s with pas.nextTag := tag + 1, pas.gathers := s.pas.gathers ++ [{ tag := tag, waiting := cs, records := [] }] }
    later (.gather tag) [] (cs.foldl (fun s i => broadcastChild r op body tag i s) s)

/-- The status of a command that must wait: it has no effect, and of its own faults and NOT_READY the lowest is given (R60, R302, R617).
What lies elsewhere, and the boot ROM, gives NOT_READY (R56). -/
def waitStatus (whom : ReplyTo) (r : Req) (op : BitVec 16) (body : List Byte ⊕ Instr) (p : Place) (s : State) : BitVec 16 :=
  match p with
  | .unit _ _ _ =>
    if s.sys.boot = .rom ∨ spreads r then 0x12
    else
      let st := (serveAt whom r op body p s).2.1
      if st ≠ 0 ∧ st.toNat < 0x12 then st else 0x12
  | _ => 0x12

/-- Steps 12 to 14 of a request, with R60. -/
def serveFrom12 (whom : ReplyTo) (r : Req) (op : BitVec 16) (body : List Byte ⊕ Instr) (s : State) : Ans :=
  let p := placeRequest r op.toNat s
  match p with
  | .nowhere st => no st s
  | _ =>
    if notReady r op.toNat p s then no (waitStatus whom r op body p s) s
    else match spreads r, p with
      | true, .unit kind _ _ => broadcast r op body kind s
      | _, _ => serveAt whom r op body p (countAt r op p s)

/-- Steps 9 to 14 of R293 for a request of a session whose turn has come. [Log: DEDUCED, unsafe, entry 125; DEDUCED, unsafe, entry 135.] -/
def serveFrom9 (x : Session) (r : Req) (op : BitVec 16) (body : List Byte ⊕ Instr) (s : State) : Ans :=
  let o := op.toNat
  if !x.mgmt ∧ o ≠ 1 ∧ (r.major ≠ x.major ∨ r.minor ≠ x.minor) then no 0x02 s
  else if !x.proved ∧ x.ep ≠ .usb ∧ !freeSet o then no 0x03 s
  else if x.proved ∧ !permitted x.role.toNat o then no 0x05 s
  else if x.mgmt ∧ !mgmtSet o then no 0x06 s
  else serveFrom12 (.session x.ep) r op body s

/-! ## Answers -/

/-- Whether the module answers at a port (R54, R56, R60, R483). -/
def portAnswers (s : State) (ep : Endpoint) : Bool :=
  supRuns s || (decide (s.sys.boot = .rom) && decide (ep = .usb))

/-- A reply packet to a forwarded request. -/
def replyPacket (r : Req) (op st : BitVec 16) (ps : List Byte) : List Byte :=
  let b := requestPacket r op ps
  b.take 3 ++ [BitVec.ofNat 8 (0x80 + bitAt r.bcast 3)] ++ ((b.drop 4).take 14) ++ beBytes 2 st.toNat ++ b.drop 20

/-- Keep the reply to a forwarded request (R351). -/
def keepReply (origin : Byte) (tag : W32) (bytes : List Byte) (s : State) : State :=
  { s with pas.executed := s.pas.executed.map fun e => if e.1 = origin ∧ e.2.1 = tag then (origin, tag, some bytes) else e }

/-- Send a stored reply back to the module that forwarded the request. -/
def sendBack (origin : Byte) (tag : W32) (bytes : List Byte) (s : State) : State :=
  let f : Forward := { tag := tag, origin := origin, dst := origin, viaSync := false, packet := bytes }
  sendPieces origin tag origin bytes { s with
    pas.forwards := (s.pas.forwards.filter fun e => !(e.tag = tag && e.origin = origin)) ++ [f] }

/-- The reply over SPI to a RESET, or to the REG_WRITE that wrote `RTC_PWR.SLEEP`, leaves when the host has read the outbound queue as
far as it (R280, R304, R483). -/
def noteReset (ep : Endpoint) (op : BitVec 16) (s : State) : State :=
  if ep = .spi ∧ (s.host.resetDue ∧ op = 0x0105 ∨ s.host.sleepDue ∧ op = 0x0D02) then { s with host.resetLeft := s.host.spiOut.length } else s

/-- Give an answer to where the request came from; a session takes it into its cache (R294), and one that BYE ends ends with
it (R305). -/
def answerTo (whom : ReplyTo) (r : Req) (op st : BitVec 16) (ps : List Byte) (s : State) : State :=
  match whom with
  | .session ep =>
    match sessionOf s ep with
    | none => s
    | some x =>
      let s := updSession ep (fun x => { x with
        waiting := none,
        cache := x.cache.map fun e => if e.seq = r.seq then { e with reply := some (st, ps) } else e }) s
      let s := noteReset ep op (sendReply r op st ps false s)
      if x.ending then endSession ep s else s
  | .ring origin tag =>
    let b := replyPacket r op st ps
    sendBack origin tag b (keepReply origin tag b s)
  | .sync tag =>
    let b := replyPacket r op st ps
    sendControlCommand tag (peerDst s) b (keepReply 0xFF tag b s)
  | .child tag i => addRecord tag i st ps s
  | .port _ => sendReply r op st ps false s

/-- Answer at once, or keep the answer until what it waits for comes about. [Log: DEDUCED, unsafe, entry 142.] -/
def conclude (whom : ReplyTo) (r : Req) (op : BitVec 16) (a : Ans) : State :=
  match a.2.2.2 with
  | none => answerTo whom r op a.2.1 a.2.2.1 a.1
  | some w =>
    let d : Deferred := { req := r, opcode := op, params := a.2.2.1, wait := w }
    match whom with
    | .session ep => updSession ep (fun x => { x with waiting := some d }) a.1
    | _ => { a.1 with host.remote := a.1.host.remote ++ [(whom, d)] }

/-! ## Replies that wait -/

/-- Whether the message under a forwarding tag can still be answered (R351): it has not been given up, and its target is
still there. -/
def stillForwarded (s : State) (tag : W32) : Bool :=
  s.pas.forwards.any fun f => f.tag = tag && f.origin = ownSrc s &&
    (if f.viaSync then s.red.syncUp else inBasin s && (Tab.get {} s.pas.memb (f.dst.toNat % 64)).inTopo)

/-- Whether the write that a reply waits for has ended (R505, R541). -/
def writeEnded (whom : ReplyTo) (d : Deferred) (p : Nat) (s : State) : Bool :=
  if d.opcode = 0x0602 then !(s.depot.queue.any fun w => w.srcs.contains (.host whom d.req.seq)) else !firmwareWaits s p

/-- What becomes of a reply that waits: nothing yet, another wait, or its status and parameters. [Log: DEDUCED, unsafe, entry 133.] -/
def progress (whom : ReplyTo) (d : Deferred) (s : State) : Option (State × (Wait ⊕ (BitVec 16 × List Byte))) :=
  let done := fun (st : BitVec 16) (ps : List Byte) (s : State) => some (s, Sum.inr (st, ps))
  match d.wait with
  | .tick t => if reached t s.tsk.tick.toNat then done 0 d.params s else none
  | .depot p => if writeEnded whom d p s then done 0 d.params s else none
  | .depotPlace p data =>
    let src := DepSrc.host whom d.req.seq
    if s.depot.pfail ∨ !s.depot.waiters.contains src then done 0x601 [] { s with depot.refused := satInc s.depot.refused }
    else if depotRoom s p src then some (depotEnter p data src s, .inl (.depot p))
    else none
  | .verify k =>
    let st := (idleSlot (partOf s k)).st
    if st = .verifying then none else done (if st = .valid then 0 else 0x801) [] s
  | .twin k => if twinEnded k s then done 0 d.params s else none
  | .forward tag =>
    if stillForwarded s tag then none
    else done 0x102 [] { s with pas.forwards := s.pas.forwards.filter fun f => !(f.tag = tag && f.origin = ownSrc s) }
  | .recordAck t => if reached t s.red.acked ∨ s.red.role ≠ 1 ∨ s.red.peerRole ≠ 3 then done 0 d.params s else none
  | .gather tag =>
    match s.pas.gathers.find? (·.tag = tag) with
    | none => done 0x102 [] s
    | some g =>
      if g.waiting = [] then
        let a := gathered g.records
        done a.1 a.2 { s with pas.gathers := s.pas.gathers.filter (·.tag ≠ tag) }
      else none
  | .never => none

/-- The next request of a session is executed (R292). -/
def pump (x : Session) (s : State) : Option State :=
  match x.waiting, x.queue with
  | none, (r, op, body) :: rest =>
    if portAnswers s x.ep then
      let s := updSession x.ep (fun y => { y with queue := rest }) s
      some (conclude (.session x.ep) r op (serveFrom9 x r op body s))
    else none
  | _, _ => none

/-- The reply that a session waits for. -/
def sessionMoves (x : Session) (s : State) : Option State :=
  match x.waiting with
  | none => none
  | some d =>
    if !portAnswers s x.ep then none
    else (progress (.session x.ep) d s).map fun r => match r.2 with
      | .inl w => updSession x.ep (fun y => { y with waiting := some { d with wait := w } }) r.1
      | .inr a => answerTo (.session x.ep) d.req d.opcode a.1 a.2 r.1

/-- The reply to a forwarded request, or a child's record, that waits at place k. -/
def remoteMoves (k : Nat) (s : State) : Option State :=
  match s.host.remote[k]? with
  | none => none
  | some (whom, d) =>
    if !supRuns s then none
    else (progress whom d s).map fun r => match r.2 with
      | .inl w => { r.1 with host.remote := r.1.host.remote.set k (whom, { d with wait := w }) }
      | .inr a => answerTo whom d.req d.opcode a.1 a.2 { r.1 with host.remote := r.1.host.remote.eraseIdx k }

/-- A page write of the firmware that waits takes a place (R507). -/
def firmwareMoves (s : State) : Option State :=
  match s.depot.waiters with
  | src :: _ =>
    match firmwarePageOf src with
    | some (p, data) => if depotRoom s p src then some (depotEnter p data src s) else none
    | none => none
  | [] => none

/-- One thing that can go on: a reply that waits, the next request of a session, a waiting write. -/
def settleOne (s : State) : Option State :=
  (s.host.sessions.findSome? fun x => sessionMoves x s) <|>
  ((List.range s.host.remote.length).findSome? fun k => remoteMoves k s) <|>
  firmwareMoves s <|>
  (s.host.sessions.findSome? fun x => pump x s)

/-- Everything that can go on does. -/
def settleN : Nat → State → State
  | 0, s => s
  | n + 1, s => match settleOne s with | none => s | some t => settleN n t

/-- A bound on what can go on: a request has at most 64 children, and a reply moves twice. -/
def settleBound (s : State) : Nat :=
  200 * (1 + s.host.remote.length + s.depot.waiters.length + (s.host.sessions.map fun x => 1 + x.queue.length).sum)

/-- The gatherings that a reply waits for. -/
def awaited (s : State) (tag : W32) : Bool :=
  (s.host.sessions.any fun x => match x.waiting with | some d => decide (d.wait = .gather tag) | none => false) ||
  s.host.remote.any fun e => decide (e.2.wait = .gather tag)

/-- A RESET that was accepted takes effect, or the sleep that a register write asked for: the reply is sent before (R304, R483). -/
def actAfterReply (s : State) : State :=
  if s.pas.gathers = [] ∧ s.host.resetLeft = 0 then
    if s.host.resetDue then commandReset { s with host.resetDue := false }
    else if s.host.sleepDue then sleepOp { s with host.sleepDue := false }
    else s
  else s

/-- Everything that can go on does, and then what an accepted command leaves until its reply is sent (R304, R483). -/
def settle (s : State) : State :=
  let s := settleN (settleBound s) s
  actAfterReply { s with pas.gathers := s.pas.gathers.filter fun g => awaited s g.tag }

/-! ## Admission (R292, R294, R295, R296) -/

/-- Whether an endpoint needs a proved session (R275). -/
def hostPort (ep : Endpoint) : Bool := decide (ep ≠ .usb)

/-- Whether a session is protected by steps 5 and 7. -/
def guardedSession (x : Session) : Bool := x.proved && hostPort x.ep

/-- Step 7 of R293: above the highest admitted SEQ, or among the 63 below it and not yet admitted. -/
def inWindow (x : Session) (seq : W32) : Bool :=
  match x.high with
  | none => true
  | some h => decide (h.toNat < seq.toNat) ||
      (decide (seq.toNat < h.toNat ∧ h.toNat ≤ seq.toNat + 63) && !x.admitted.contains seq)

/-- Whether the reply to a request still waits in the module behind a full outbound queue (R280, R294): a packet of it, which is no
cached reply, stands beyond the 16 of the queue. -/
def replyWaits (s : State) (ep : Endpoint) (seq : W32) : Bool :=
  decide (ep = .spi) && (s.host.spiOut.drop 16).any fun b =>
    (b.getD 3 0).getLsbD 7 && !(b.getD 3 0).getLsbD 4 && decide (bytesNat b 4 4 = seq.toNat)

/-- Room for one more entry in the reply cache: of the entries that `done` says are complete, the one with the lowest SEQ is evicted
(R294). -/
def cacheRoom (done : CacheEntry → Bool) (l : List CacheEntry) : Option (List CacheEntry) :=
  if l.length < 64 then some l
  else
    let whole := (l.filter done).map (·.seq.toNat)
    match whole with
    | [] => none
    | d :: ds => let low := ds.foldl min d
                 some (l.filter fun e => !(done e && decide (e.seq.toNat = low)))

/-- Whether an entry of a session's reply cache is complete: its reply is sent (R294). -/
def entryDone (s : State) (ep : Endpoint) (e : CacheEntry) : Bool := e.reply.isSome && !replyWaits s ep e.seq

/-- The highest of two SEQ values. -/
def highSeq (h : Option W32) (seq : W32) : W32 := match h with | some h => if h.toNat < seq.toNat then seq else h | none => seq

/-- Note a SEQ as admitted: the window of step 7 is kept, and the first 64 numbers (R614). -/
def noteSeq (seq : W32) (x : Session) : Session :=
  let h := highSeq x.high seq
  { x with high := some h, admitted := (seq :: x.admitted).filter fun q => decide (h.toNat ≤ q.toNat + 63 ∨ q.toNat < 64) }

/-- A message that is whole is admitted (R294), and its turn comes in the order of admission. -/
def admitRequest (r : Req) (op : BitVec 16) (body : List Byte ⊕ Instr) (s : State) : State :=
  match sessionOf s r.ep with
  | none => s
  | some x =>
    match cacheRoom (entryDone s r.ep) x.cache with
    | none => sendReply r op 0x11 [] false s
    | some l => settle (updSession r.ep (fun x => { noteSeq r.seq x with
        cache := l ++ [{ seq := r.seq, req := r, opcode := op, reply := none }], queue := x.queue ++ [(r, op, body)] }) s)

/-- Whether the SEQ of a session passes 0xFFFF_FFFF with a request, or has passed it (R292, R614): the highest is one of the last 64
numbers, and the request bears one of the first 64, which the session has not admitted before. [Log: DEDUCED, unsafe, entry 169.] -/
def seqPasses (x : Session) (seq : W32) : Bool :=
  x.passed || (match x.high with
    | some h => decide (2 ^ 32 - 64 ≤ h.toNat ∧ seq.toNat < 64) && !x.admitted.contains seq
    | none => false)


/-- Steps 6 and 7 of R293, then `f`. Where the SEQ of the session passes its end, free values say whether the request is dropped,
answered from the cache or taken (R614). -/
def passSeq (x : Session) (r : Req) (op : BitVec 16) (frag : Nat) (f : State → State) (s : State) : State :=
  if seqPasses x r.seq then
    let (w, s) := drawWord s
    let s := updSession x.ep (fun y => { y with passed := true }) s
    match w.toNat % 3, (x.cache.find? (·.seq = r.seq)).bind (·.reply) with
    | 0, _ => s
    | 1, some a => sendReply r op a.1 a.2 true s
    | _, _ => f s
  else match x.cache.find? (·.seq = r.seq) with
  | some e =>
    if frag ≠ 0 then s
    else if e.opcode ≠ op then sendReply r op 0x07 [] false s
    else if replyWaits s x.ep r.seq then s
    else match e.reply with
      | some a => sendReply { e.req with tag := r.tag } op a.1 a.2 true s
      | none => s
  | none =>
    if guardedSession x ∧ !inWindow x r.seq then
      updSession x.ep (fun y => { y with dis7 := satInc y.dis7 }) { s with upd.replay := satInc s.upd.replay }
    else f s

/-- What the fragments of one message share (R296). -/
def sameMessage (a b : Req) (opa opb : BitVec 16) : Bool :=
  decide (a.major = b.major ∧ a.minor = b.minor ∧ a.auth = b.auth ∧ a.bcast = b.bcast ∧ a.hops = b.hops ∧ a.ext = b.ext ∧
    a.raw.map (fun w => (w.1.toNat / 64, w.2)) = b.raw.map (fun w => (w.1.toNat / 64, w.2)) ∧ opa = opb)

/-- Faults of the fragments of a message (R295, R296): two without MORE, one without MORE below another, FRAG beyond 63,
more than 16,384 bytes. -/
def fragFault (l : List Fragment) : Bool :=
  decide (1 < (l.filter (·.last)).length) ||
  (l.any fun a => a.last && l.any fun b => decide (a.idx < b.idx)) ||
  (l.any fun a => !a.last && decide (63 ≤ a.idx)) ||
  decide (16384 < (l.map fun a => a.params.length).sum)

/-- The parameters of a message that holds every fragment up to the one without MORE. -/
def whole (l : List Fragment) : Option (List Byte) :=
  match l.find? (·.last) with
  | none => none
  | some z =>
    if l.length = z.idx + 1 then some ((List.range l.length).flatMap fun i => (l.filter (·.idx = i)).flatMap (·.params)) else none

/-- Give up a message in reassembly. -/
def dropMessage (ep : Endpoint) (seq : W32) (s : State) : State :=
  updSession ep (fun y => { y with reasm := y.reasm.filter fun m => m.req.seq ≠ seq }) s

/-- Step 8 of R293: a fragment is held for reassembly (R295, R296). -/
def holdFragment (x : Session) (r : Req) (op : BitVec 16) (f : Fragment) (s : State) : State :=
  let refuse := fun (st : BitVec 16) (s : State) => sendReply r op st [] false s
  match x.reasm.find? fun m => m.req.seq = r.seq with
  | none =>
    if 4 ≤ x.reasm.length then refuse 0x11 s
    else if fragFault [f] then refuse 0x01 s
    else match whole [f] with
      | some ps => admitRequest r op (.inl ps) s
      | none => updSession x.ep (fun y => { y with reasm := y.reasm ++ [{ req := r, opcode := op, frags := [f] }] }) s
  | some m =>
    if m.frags.any (·.idx = f.idx) then s
    else if !sameMessage m.req r m.opcode op ∨ fragFault (m.frags ++ [f]) then refuse 0x01 (dropMessage x.ep r.seq s)
    else match whole (m.frags ++ [f]) with
      | some ps => admitRequest m.req op (.inl ps) (dropMessage x.ep r.seq s)
      | none => updSession x.ep (fun y => { y with reasm := y.reasm.map fun k =>
          if k.req.seq = r.seq then { k with frags := k.frags ++ [f] } else k }) s

/-! ## HELLO (R290, R299) -/

/-- The command protocol versions of the module (R49). -/
def protocolRanges : List VerRange := [(1, 0, 4), (2, 0, 3), (3, 0, 2)]

/-- The lowest session index that is free: 0 to 3 over the host ports, 4 on USB. -/
def freeIndex (ep : Endpoint) (s : State) : Option Nat :=
  if ep = .usb then some 4
  else (List.range 4).find? fun i => !(s.host.sessions.any fun x => decide (x.ep ≠ ep) && decide (x.idx.toNat = i))

/-- Why a HELLO is refused (R290, R299); none when it is not. -/
def helloFault (r : Req) (i : Option Instr) (s : State) : Option (BitVec 16) :=
  match i with
  | some (.hello _ n m l) =>
    if n.toNat ≠ l.length then some 0x01
    else if m.toNat < 512 then some 0x10
    else if (freeIndex r.ep s).isNone then some 0x11
    else none
  | _ => some 0x01

/-- A session is opened, and the one that the endpoint held before ends (R290, R299, R542). [Log: DEDUCED, unsafe, entry 150.] -/
def openSession (r : Req) (m : BitVec 16) (l : List VerRange) (params : List Byte) (s : State) : State :=
  let v := negotiate protocolRanges l
  let idx := BitVec.ofNat 8 ((freeIndex r.ep s).getD 0)
  let s := endSession r.ep s
  let (a, b) := v.getD (0, 0)
  let pkt := min m.toNat (transportLimit r.ep)
  let proof : Byte := if r.ep = .usb then 0 else if s.upd.encReq then 2 else 1
  let reply := [BitVec.ofNat 8 a, BitVec.ofNat 8 b] ++ beBytes 2 pkt ++ [idx, proof]
  let st : BitVec 16 := if v.isNone then 0x06 else 0
  let x : Session := {
    ep := r.ep, idx := idx, major := BitVec.ofNat 8 a, minor := BitVec.ofNat 8 b, maxPkt := BitVec.ofNat 16 pkt, mgmt := v.isNone,
    hello := params ++ reply, high := some r.seq, admitted := [r.seq],
    cache := [{ seq := r.seq, req := r, opcode := 1, reply := some (st, reply) }] }
  sendReply r 1 st reply false { s with host.sessions := s.host.sessions ++ [x], sys.cmdCount := satInc s.sys.cmdCount }

/-- A HELLO is refused; a session that the endpoint holds stays, and caches the reply (R293). -/
def refuseHello (r : Req) (st : BitVec 16) (s : State) : State :=
  match sessionOf s r.ep with
  | none => sendReply r 1 st [] false s
  | some x => match cacheRoom (entryDone s r.ep) x.cache with
    | none => sendReply r 1 0x11 [] false s
    | some l => sendReply r 1 st [] false (updSession r.ep (fun x => { noteSeq r.seq x with
        cache := l ++ [{ seq := r.seq, req := r, opcode := 1, reply := some (st, []) }] }) s)

/-- Whether a HELLO is for the receiving module: its path is empty, as an extended path of no hops is too (R287), or names this module
by its place in its basin or pair (R21, R290). -/
def helloHere (r : Req) (s : State) : Bool :=
  !spreads r && if r.hops = [] then !r.ext || decide (3 ≤ r.major.toNat)
    else match placeRequest r 1 s with | .unit 1 _ none => true | _ => false

/-- HELLO to the receiving module; one to another unit, or one that goes to the children of a unit (R288), is a command that no unit
implements, and takes the steps of any command. -/
def helloNow (r : Req) (body : List Byte ⊕ Instr) (s : State) : State :=
  if !helloHere r s then
    match sessionOf s r.ep with
    | some _ => admitRequest r 1 body s
    | none => settle (conclude (.port r.ep) r 1 (serveFrom12 (.port r.ep) r 1 body s))
  else
    let i := bodyCmd r 1 body
    match helloFault r i s, i with
    | none, some (.hello _ _ m l) => openSession r m l (bodyBytes body) s
    | some st, _ => refuseHello r st s
    | none, _ => refuseHello r 0x01 s

/-! ## Incoming requests (R293) -/

/-- A request that has passed step 7 and is whole: HELLO is answered at once (R290), any other waits for its turn (R292). [Log: DEDUCED, unsafe, entry 124.] -/
def enter (r : Req) (op : BitVec 16) (body : List Byte ⊕ Instr) (s : State) : State :=
  if op = 1 then helloNow r body s else admitRequest r op body s

/-- A packet of an endpoint without a session: only HELLO is taken (step 4 of R293). -/
def noSession (r : Req) (op : BitVec 16) (body : List Byte ⊕ Instr) (s : State) : State :=
  if op = 1 then helloNow r body s else sendReply r op 0x02 [] false s

/-- A request as it comes in whole, from step 4 of R293. `r.auth` says that it carries an auth tag that verifies. -/
def request (r : Req) (op : BitVec 16) (body : List Byte ⊕ Instr) (s : State) : State :=
  if !portAnswers s r.ep then s
  else match sessionOf s r.ep with
    | none => noSession r op body s
    | some x =>
      if guardedSession x ∧ !r.auth then
        updSession x.ep (fun y => { y with dis5 := satInc y.dis5 }) { s with upd.tagFail := satInc s.upd.tagFail }
      else passSeq x r op 0 (enter r op body) s

/-- A packet of a session from step 5 of R293. -/
def sessionPacket (x : Session) (p : Packet) (s : State) : State :=
  match if guardedSession x then openPacket x p else some p.params with
  | none => updSession x.ep (fun y => { y with dis5 := satInc y.dis5 }) { s with upd.tagFail := satInc s.upd.tagFail }
  | some ps =>
    passSeq x p.req p.op p.frag (fun s =>
      if p.more ∨ p.frag ≠ 0 then holdFragment x p.req p.op { idx := p.frag, last := !p.more, params := ps } s
      else enter p.req p.op (.inl ps) s) s

/-- A packet from step 2 of R293. [Log: DEDUCED, unsafe, entry 251.] -/
def takePacket (ep : Endpoint) (tag : Option (BitVec 32)) (b : List Byte) (s : State) : State :=
  if !portAnswers s ep ∨ b.length < 20 ∨ b.getD 0 0 ≠ 0xC7 ∨ (b.getD 3 0).getLsbD 7 then s
  else
    let p := packetOf ep tag b
    if 8192 < p.plen ∨ b.length < p.declared ∨ (p.op = 1 ∧ (p.more ∨ p.frag ≠ 0)) then sendReply p.req p.op 0x01 [] false s
    else match sessionOf s ep with
      | none => noSession p.req p.op (.inl p.params) s
      | some x => sessionPacket x p s

/-- A packet with its trailer on SPI or USB: an SPI one that is shorter than the packet it declares (R280) and a USB one that is
shorter than that and its trailer (R281) is discarded, and so, counted, is one whose trailer does not match (R282, step 1 of
R293). -/
def takeTrailed (ep : Endpoint) (b : List Byte) (s : State) : State :=
  let n := declaredLength b
  if !portAnswers s ep ∨ b.length < n ∨ (ep = .usb ∧ b.length < n + 4) then s
  else if beBytes 4 (crc32c (b.take n)) ≠ (b.drop n).take 4 then
    let s := if ep = .spi then { s with host.spiCrc := true } else s
    updSession ep (fun y => { y with dis1 := satInc y.dis1 }) s
  else takePacket ep none (b.take n) s

end Sys2Proof.Machine
end

