-- ==== Sys2Proof/Machine/HostRows.lean ====
section
/-! DEFINITION. The rows of the host ports (R275 to R282, R290, R296, R297), of forwarding (R351, R374), and the rows at which
replies that wait can be sent: the tick edge, depot writes, verification, record acknowledgements, topology changes, and the
power-fail warning. -/

namespace Sys2Proof.Machine

/-! ## Transports -/

/-- HOST_ETHERNET_FRAME (R276): to the module's own MAC address, with or without a tag. [Log: DEDUCED, unsafe, entry 148.] -/
def execHostEthernetFrame (dst src : BitVec 48) (tag : Option (BitVec 32)) (pkt : List Byte) (s : State) :
    Host.Outcome State Fault Refusal :=
  .next (if dst = Config.mac then takePacket (.eth src) tag pkt s else s)

/-- UDP_DATAGRAM (R277): to the configured port, not fragmented. -/
def execUdpDatagram (addr : BitVec 128) (port dport : BitVec 16) (fragmented : Bool) (pkt : List Byte) (s : State) :
    Host.Outcome State Fault Refusal :=
  .next (if fragmented ∨ dport ≠ s.host.udpPort then s else takePacket (.udp addr port) none pkt s)

/-- ARP_REQUEST (R277): probes of the stored host address are answered. -/
def execArpRequest (kind : ProbeKind) (target : BitVec 128) (data : List Byte) (s : State) : Host.Outcome State Fault Refusal :=
  .next (if supRuns s ∧ target = s.host.hostAddr then emit (.probeReply kind target data) s else s)

/-- SUP takes the packets of the SPI inbound buffer, oldest first. [Log: DESIGN CHOICE, unsafe, entry 144.] -/
def spiTake (s : State) : State :=
  if supRuns s then s.host.spiIn.foldl (fun s b => takeTrailed .spi b s) { s with host.spiIn := [] } else s

/-- Whether the SPI port is served at all: SUP runs, so that the control die is neither off, in reset, in the boot ROM nor
asleep (R56, R61, R483). -/
def spiServed (s : State) : Bool := supRuns s

/-- The inbound buffer holds four packets; one more is discarded as an overrun, and one that ends before its declared length is
discarded (R280). -/
def spiWriteOp (bytes : List Byte) (s : State) : State :=
  if 4 ≤ s.host.spiIn.length then { s with host.spiOvr := true }
  else if bytes.length < declaredLength bytes then s
  else spiTake { s with host.spiIn := s.host.spiIn ++ [bytes] }

/-- A READ that clocks `clocked` bytes of the length and the oldest outbound packet; the packet leaves the queue only when all
of it has been clocked (R280), and then a RESET whose reply it was takes effect (R304). -/
def spiReadOp (clocked : Nat) (s : State) : State :=
  let b := s.host.spiOut.headD []
  let s := emit (.spiReturn ((beBytes 2 b.length ++ b).take clocked)) s
  if b ≠ [] ∧ 2 + b.length ≤ clocked then
    settle { s with host.spiOut := s.host.spiOut.drop 1, host.resetLeft := s.host.resetLeft - 1 }
  else s

/-- TX_PEND of the SPI status word (R279); HOST_IRQ_N is driven low while it is 1 and the port is served. -/
def txPend (s : State) : Bool := !s.host.spiOut.isEmpty

/-- Whether HOST_IRQ_N is driven low; otherwise it is released (R279). -/
def hostIrqLow (s : State) : Bool := spiServed s && txPend s

/-- The SPI status word (R279). -/
def spiStatusWord (s : State) : W32 :=
  BitVec.ofNat 32 (bitAt (decide (s.host.spiIn.length < 4)) 31 + bitAt (txPend s) 30 + bitAt s.host.spiCrc 29 +
    bitAt s.host.spiOvr 28 + (s.host.spiOut.headD []).length)

/-- An SPI transaction by the host's first byte (R278): 0x01 WRITE of `bytes`, during which the module returns 0xFF on every
byte; 0x02 READ of `clocked` bytes after the dummy byte; 0x03 STATUS, which clears the read-to-clear bits (R279). One with any
other first byte is ignored. -/
def spiTransaction (first : Byte) (bytes : List Byte) (clocked : Nat) (s : State) : State :=
  if !spiServed s then s
  else match first.toNat with
    | 0x01 => spiWriteOp bytes (emit (.spiReturn (List.replicate (1 + bytes.length) 0xFF)) s)
    | 0x02 => spiReadOp clocked s
    | 0x03 => { emit (.spiReturn (beBytes 4 (spiStatusWord s).toNat)) s with host.spiCrc := false, host.spiOvr := false }
    | _ => s

/-- SPI_WRITE (R278, R280). -/
def execSpiWrite (bytes : List Byte) (s : State) : Host.Outcome State Fault Refusal := .next (spiTransaction 0x01 bytes 0 s)

/-- SPI_READ (R278, R280). -/
def execSpiRead (clocked : Nat) (s : State) : Host.Outcome State Fault Refusal := .next (spiTransaction 0x02 [] clocked s)

/-- SPI_STATUS (R279). -/
def execSpiStatus (s : State) : Host.Outcome State Fault Refusal := .next (spiTransaction 0x03 [] 4 s)

/-- USB_BULK_TRANSFER (R281, R282). -/
def execUsbBulkTransfer (bytes : List Byte) (s : State) : Host.Outcome State Fault Refusal := .next (takeTrailed .usb bytes s)

/-- FRAGMENT (R296): one packet of a message in fragments, free of its transport. -/
def execFragment (ep : Endpoint) (pkt : List Byte) (s : State) : Host.Outcome State Fault Refusal := .next (takePacket ep none pkt s)

/-- FRAG_TIMEOUT (R297); a sleeping module sends nothing (R483). -/
def execFragTimeout (ep : Endpoint) (seq : W32) (s : State) : Host.Outcome State Fault Refusal :=
  .next (match (if s.sys.asleep then none else sessionOf s ep).bind fun x => x.reasm.find? fun m => m.req.seq = seq with
    | none => s
    | some m => sendReply m.req m.opcode 0x08 [] false (dropMessage ep seq s))

/-- A member whose host link is lost reports it (R353). -/
def reportHostLink (s : State) : State :=
  if memberHostUp s s.sys.ringId.toNat then s else report 4 4 [s.sys.ringId] 0 s

/-- HOST_LINK_CHANGE (R290, R353, R608): the loss of the host Ethernet link ends its sessions. -/
def execHostLinkChange (up : Bool) (s : State) : Host.Outcome State Fault Refusal :=
  .next (if up = s.sys.hostLink then s
    else if up then { s with sys.hostLink := true }
    else
      let gone := s.host.sessions.filter fun x => match x.ep with | .eth _ | .udp _ _ => true | _ => false
      let s := reportHostLink (loseClock 3 { s with sys.hostLink := false })
      settle (gone.foldl (fun s x => endSession x.ep s) s))

/-- USB_VBUS_CHANGE (R484, R592): the port attaches, which wakes a sleeping module, or detaches, which ends its session. -/
def execUsbVbusChange (present : Bool) (s : State) : Host.Outcome State Fault Refusal :=
  .next (if present then wakeDie 3 { s with sys.usbVbus := true } else settle (endSession .usb { s with sys.usbVbus := false }))

/-! ## Forwarded messages (R351, R374) -/

/-- Execute a request that another module has forwarded, once for each forwarding tag; a repeat is answered with the stored
reply. [Log: DEDUCED, unsafe, entry 128; DEDUCED, unsafe, entry 146.] -/
def takeForwarded (whom : ReplyTo) (origin : Byte) (tag : W32) (p : Packet) (s : State) : State :=
  match s.pas.executed.find? fun e => e.1 = origin && e.2.1 = tag with
  | some (_, _, some b) =>
    match whom with
    | .ring _ _ => sendBack origin tag b s
    | _ => sendControlCommand tag (peerDst s) b s
  | some (_, _, none) => s
  | none =>
    let s := { s with pas.executed := s.pas.executed ++ [(origin, tag, none)] }
    settle (conclude whom p.req p.op (serveFrom12 whom p.req p.op (.inl p.params) s))

/-- Whether a deferred reply waits for the reply under a forwarding tag. -/
def waitsFor (tag : W32) (d : Deferred) : Bool := decide (d.wait = .forward tag)

/-- The reply to a request that this module forwarded has come. -/
def takeReply (tag : W32) (p : Packet) (s : State) : State :=
  let s := { s with pas.forwards := s.pas.forwards.filter fun f => !(f.tag = tag && f.origin = ownSrc s) }
  let s := if s.red.infoTag = some tag then noteShadow p.params s else s
  let s := match s.host.sessions.find? fun x => x.waiting.any (waitsFor tag) with
    | some x =>
      match x.waiting with
      | some d => answerTo (.session x.ep) d.req d.opcode p.status p.params s
      | none => s
    | none =>
      match s.host.remote.find? fun e => waitsFor tag e.2 with
      | some (whom, d) => answerTo whom d.req d.opcode p.status p.params { s with host.remote := s.host.remote.filter fun e => !waitsFor tag e.2 }
      | none => s
  settle s

/-- A whole message: a request, or the reply to one of this module's own. [Log: DESIGN CHOICE, safe, entry 149.] -/
def takeMessage (whom : ReplyTo) (origin : Byte) (tag : W32) (own : Bool) (bytes : List Byte) (s : State) : State :=
  if bytes.length < 20 then s
  else
    let p := packetOf (.eth 0) none bytes
    if p.flags.getLsbD 7 then (if own then takeReply tag p s else s) else takeForwarded whom origin tag p s

/-- The pieces held of a message. -/
def piecesOf (s : State) (origin : Byte) (tag : W32) : List Fragment :=
  match s.pas.pieces.find? fun e => e.1 = origin && e.2.1 = tag with | some e => e.2.2 | none => []

/-- COMMAND (R351): a piece of a forwarded packet or reply; the whole message is acknowledged. [Log: DESIGN CHOICE, safe, entry 30.] -/
def commandOp (h : RingHdr) (tag : W32) (origin piece : Byte) (bytes : List Byte) (s : State) : State :=
  let l := (piecesOf s origin tag).filter (·.idx ≠ piece.toNat) ++ [{ idx := piece.toNat, last := !h.more, params := bytes }]
  let rest := s.pas.pieces.filter fun e => !(e.1 = origin && e.2.1 = tag)
  match whole l with
  | none => { s with pas.pieces := rest ++ [(origin, tag, l)] }
  | some b =>
    takeMessage (.ring origin tag) origin tag (origin = ownSrc s) b
      (sendRing 0x20 (srcByte h) true false true (basinTick s) (commandBytes tag origin 0 []) { s with pas.pieces := rest })

/-- COMMAND (R351). -/
def execCommand (h : RingHdr) (tag : W32) (origin piece : Byte) (bytes : List Byte) (s : State) : Host.Outcome State Fault Refusal :=
  .next (if supRuns s then ringRx 0x20 false (commandBytes tag origin piece.toNat bytes) h s (commandOp h tag origin piece bytes) else s)

/-- COMMAND_ACK (R351): a request that is acknowledged waits for its reply, and a reply that is acknowledged is done. -/
def execCommandAck (h : RingHdr) (tag : W32) (origin : Byte) (s : State) : Host.Outcome State Fault Refusal :=
  .next (ringRx 0x20 true (commandBytes tag origin 0 []) h s fun s =>
    let mine := fun (f : Forward) => f.tag = tag && f.origin = origin && !f.viaSync
    let l := if origin = ownSrc s then s.pas.forwards.map fun f => if mine f then { f with acked := true } else f
             else s.pas.forwards.filter fun f => !mine f
    { s with pas.forwards := l })

/-- COMMAND_RESEND (R351): at the edge of a DISCOVER round tick a message that is not acknowledged is sent again, or given up
after its third send. -/
def execCommandResend (s : State) : Host.Outcome State Fault Refusal :=
  .next (let due := fun (f : Forward) => !f.acked && !f.viaSync
    let again := s.pas.forwards.filter fun f => due f && decide (f.sends < 3)
    let kept := s.pas.forwards.filter fun f => !(due f && decide (3 ≤ f.sends))
    let s := { s with pas.forwards := kept.map fun f => if due f then { f with sends := f.sends + 1 } else f }
    settle (again.foldl (fun s f => sendPieces f.dst f.tag f.origin f.packet s) s))

/-- COMMAND_CONTROL (R374): a command packet, or the reply to one, over the sync link; in management-only mode the link carries
those of the management set alone (R50). [Log: DEDUCED, unsafe, entry 212.] -/
def execCommandControl (h : SyncHdr) (tag : W32) (pkt : List Byte) (s : State) : Host.Outcome State Fault Refusal :=
  .next (syncRx (mgmtGroup (pkt.getD 14 0).toNat) h s (takeMessage (.sync tag) 0xFF tag true pkt))

/-- TOPOLOGY_CHANGE_TICK (R335): the new topology is applied; the members that left end the requests forwarded to them
(R351), and a module that was forming ends its start-up (R54). -/
def execTopologyChangeTick (s : State) : Host.Outcome State Fault Refusal :=
  .next (match topologyDue s with
    | none => s
    | some t =>
      settle (formingEnds (applyTopology t s)))

/-- RECORD_ACK (R271, R390): the standby has taken the record of a tick. -/
def execRecordAck (h : SyncHdr) (s : State) : Host.Outcome State Fault Refusal :=
  .next (settle (syncRx false h s fun s => { s with red.acked := if reached s.red.acked h.tick.toNat then h.tick.toNat else s.red.acked }))

/-! ## What replies wait for -/

/-- TICK_EDGE (R84), and the replies that wait for it (R90). Start-up goes on (R54). -/
def execTickEdge (inp : TickIn) (s : State) : Host.Outcome State Fault Refusal :=
  .next (settle (if ticks s then startGoesOn (tickEdge inp s) else s))

/-- The page write in progress ends and the next starts (R505); a twin record whose next value waits is
written again, a save that waits follows, and a refresh that is due is queued when the queue is empty (R509). -/
def pageDone (s : State) : State :=
  match s.depot.busy, s.depot.queue with
  | true, w :: q =>
    let s := storePage w { s with depot.queue := q, depot.busy := !q.isEmpty }
    let s := match w.twin with
      | some (k, _) =>
        match Tab.get none s.depot.twinNext k with
        | some v => twinWrite k v { s with depot.twinNext := Tab.set none s.depot.twinNext k none }
        | none => s
      | none => s
    startRefresh (saveNext (finishStoring s))
  | _, _ => s

/-- PAGE_WRITE_DONE (R505, R507): writes that wait take the place, and the replies to the write are sent. -/
def execPageWriteDone (s : State) : Host.Outcome State Fault Refusal := .next (settle (pageDone s))

/-- The waiting writes without the host write that has waited longest. -/
def dropHostWaiter : List DepSrc → List DepSrc
  | [] => []
  | .host _ _ :: l => l
  | w :: l => w :: dropHostWaiter l

/-- DEPOT_BUSY_TIMEOUT (R507): the host write that has waited longest is refused. -/
def execDepotBusyTimeout (s : State) : Host.Outcome State Fault Refusal :=
  .next (settle { s with depot.waiters := dropHostWaiter s.depot.waiters })

/-- The part whose download is being verified. -/
def verifyingPart (s : State) : Option Nat := (List.range 5).find? fun k => (idleSlot (partOf s k)).st = .verifying

/-- VERIFICATION_END (R555). -/
def execVerificationEnd (s : State) : Host.Outcome State Fault Refusal :=
  .next (match verifyingPart s with
    | some k => settle (verifyEnd k s).2
    | none => s)

/-- A reply whose write the power-fail warning has discarded is never sent (R510); t is the state after the warning. [Log: DEDUCED, unsafe, entry 145.] -/
def loseWrite (t : State) (whom : ReplyTo) (d : Deferred) : Deferred :=
  match d.wait with
  | .depot p => if writeEnded whom d p t then { d with wait := .never } else d
  | .twin k => if twinEnded k t then { d with wait := .never } else d
  | _ => d

/-- POWER_FAIL_WARNING (R510, R525, R585): the depot starts no further write, and the power-fail image is written; releases,
commits and ports go on. -/
def execPowerFailWarning (s : State) : Host.Outcome State Fault Refusal :=
  .next (if s.sys.pfail ∨ !s.sys.vinGood ∨ s.sys.boot = .off ∨ s.sys.boot = .reset then s
    else
      let t := writeImage (depotPfail { s with sys.pfail := true })
      settle { t with
        host.sessions := t.host.sessions.map fun x => { x with waiting := x.waiting.map (loseWrite t (.session x.ep)) }
        host.remote := t.host.remote.map fun e => (e.1, loseWrite t e.1 e.2) })

end Sys2Proof.Machine
end

