-- ==== Sys2Proof/Machine/CmdRows.lean ====
section
/-! DEFINITION. The rows of the commands: each is a request that has come in whole, handled from step 4 of R293 on, of which
`r.auth` says that it carries an auth tag that verifies. What the command does at its unit stands in HostCmd.lean. -/

namespace Sys2Proof.Machine

/-- HELLO (R299). -/
def execHello (r : Req) (count : Byte) (maxPkt : BitVec 16) (ranges : List VerRange) (s : State) : Host.Outcome State Fault Refusal :=
  .next (request r 0x0001 (.inr (.hello r count maxPkt ranges)) s)

/-- AUTH_CHALLENGE (R542). -/
def execAuthChallenge (r : Req) (key : BitVec 16) (share ek : List Byte) (s : State) : Host.Outcome State Fault Refusal :=
  .next (request r 0x0002 (.inr (.authChallenge r key share ek)) s)

/-- AUTH_PROVE (R542). -/
def execAuthProve (r : Req) (sig : List Byte) (s : State) : Host.Outcome State Fault Refusal :=
  .next (request r 0x0003 (.inr (.authProve r sig)) s)

/-- BYE (R305). -/
def execBye (r : Req) (index : Byte) (s : State) : Host.Outcome State Fault Refusal :=
  .next (request r 0x0004 (.inr (.bye r index)) s)

/-- SESSION_INFO (R305). -/
def execSessionInfo (r : Req) (s : State) : Host.Outcome State Fault Refusal :=
  .next (request r 0x0005 (.inr (.sessionInfo r)) s)

/-- UNIT_INFO (R306). -/
def execUnitInfo (r : Req) (s : State) : Host.Outcome State Fault Refusal :=
  .next (request r 0x0101 (.inr (.unitInfo r)) s)

/-- UNIT_STATUS (R607). -/
def execUnitStatus (r : Req) (s : State) : Host.Outcome State Fault Refusal :=
  .next (request r 0x0102 (.inr (.unitStatus r)) s)

/-- BASIN_MAP (R362). -/
def execBasinMap (r : Req) (s : State) : Host.Outcome State Fault Refusal :=
  .next (request r 0x0103 (.inr (.basinMap r)) s)

/-- START_MODE (R306). -/
def execStartMode (r : Req) (mode : Byte) (s : State) : Host.Outcome State Fault Refusal :=
  .next (request r 0x0104 (.inr (.startMode r mode)) s)

/-- RESET (R304). -/
def execReset (r : Req) (kind : Byte) (s : State) : Host.Outcome State Fault Refusal :=
  .next (request r 0x0105 (.inr (.reset r kind)) s)

/-- IMG_READ (R90). -/
def execImgRead (r : Req) (space : Byte) (addr : W24) (count : BitVec 16) (s : State) : Host.Outcome State Fault Refusal :=
  .next (request r 0x0201 (.inr (.imgRead r space addr count)) s)

/-- IMG_WRITE (R90). -/
def execImgWrite (r : Req) (space : Byte) (addr : W24) (count : BitVec 16) (vals : List Byte) (s : State) : Host.Outcome State Fault Refusal :=
  .next (request r 0x0202 (.inr (.imgWrite r space addr count vals)) s)

/-- IMG_LAYOUT (R307). -/
def execImgLayout (r : Req) (s : State) : Host.Outcome State Fault Refusal :=
  .next (request r 0x0203 (.inr (.imgLayout r)) s)

/-- PRG_LOAD_OPEN (R308). -/
def execPrgLoadOpen (r : Req) (s : State) : Host.Outcome State Fault Refusal :=
  .next (request r 0x0301 (.inr (.prgLoadOpen r)) s)

/-- PRG_LOAD_BLOCK (R308). -/
def execPrgLoadBlock (r : Req) (offset : W32) (data : List Byte) (s : State) : Host.Outcome State Fault Refusal :=
  .next (request r 0x0302 (.inr (.prgLoadBlock r offset data)) s)

/-- PRG_LOAD_CLOSE (R309). -/
def execPrgLoadClose (r : Req) (s : State) : Host.Outcome State Fault Refusal :=
  .next (request r 0x0303 (.inr (.prgLoadClose r)) s)

/-- PRG_INFO (R308). -/
def execPrgInfo (r : Req) (s : State) : Host.Outcome State Fault Refusal :=
  .next (request r 0x0304 (.inr (.prgInfo r)) s)

/-- PRG_READ (R249). -/
def execPrgRead (r : Req) (bank part : Byte) (first : W24) (count : BitVec 16) (s : State) : Host.Outcome State Fault Refusal :=
  .next (request r 0x0305 (.inr (.prgRead r bank part first count)) s)

/-- EDIT_OPEN (R254). -/
def execEditOpen (r : Req) (s : State) : Host.Outcome State Fault Refusal :=
  .next (request r 0x0310 (.inr (.editOpen r)) s)

/-- EDIT_BLOCK (R254). -/
def execEditBlock (r : Req) (offset : W32) (data : List Byte) (s : State) : Host.Outcome State Fault Refusal :=
  .next (request r 0x0311 (.inr (.editBlock r offset data)) s)

/-- EDIT_CLOSE (R255). -/
def execEditClose (r : Req) (s : State) : Host.Outcome State Fault Refusal :=
  .next (request r 0x0312 (.inr (.editClose r)) s)

/-- EDIT_APPLY (R258). -/
def execEditApply (r : Req) (tick : Tick) (s : State) : Host.Outcome State Fault Refusal :=
  .next (request r 0x0313 (.inr (.editApply r tick)) s)

/-- EDIT_ABORT (R266). -/
def execEditAbort (r : Req) (s : State) : Host.Outcome State Fault Refusal :=
  .next (request r 0x0314 (.inr (.editAbort r)) s)

/-- UNDO_EDIT (R267). -/
def execUndoEdit (r : Req) (tick : Tick) (s : State) : Host.Outcome State Fault Refusal :=
  .next (request r 0x0315 (.inr (.undoEdit r tick)) s)

/-- EDIT_STATUS (R253). -/
def execEditStatus (r : Req) (s : State) : Host.Outcome State Fault Refusal :=
  .next (request r 0x0316 (.inr (.editStatus r)) s)

/-- RUN (R107). -/
def execRun (r : Req) (tick : Tick) (s : State) : Host.Outcome State Fault Refusal :=
  .next (request r 0x0401 (.inr (.run r tick)) s)

/-- STOP (R108). -/
def execStop (r : Req) (s : State) : Host.Outcome State Fault Refusal :=
  .next (request r 0x0402 (.inr (.stop r)) s)

/-- STEP (R109). -/
def execStep (r : Req) (task : Byte) (s : State) : Host.Outcome State Fault Refusal :=
  .next (request r 0x0403 (.inr (.step r task)) s)

/-- TASK_ENABLE (R105). -/
def execTaskEnable (r : Req) (task : Byte) (s : State) : Host.Outcome State Fault Refusal :=
  .next (request r 0x0404 (.inr (.taskEnable r task)) s)

/-- TASK_DISABLE (R105). -/
def execTaskDisable (r : Req) (task : Byte) (s : State) : Host.Outcome State Fault Refusal :=
  .next (request r 0x0405 (.inr (.taskDisable r task)) s)

/-- TASK_TRIGGER (R79). -/
def execTaskTrigger (r : Req) (task : Byte) (s : State) : Host.Outcome State Fault Refusal :=
  .next (request r 0x0406 (.inr (.taskTrigger r task)) s)

/-- TASK_RESTART (R98). -/
def execTaskRestart (r : Req) (task : Byte) (s : State) : Host.Outcome State Fault Refusal :=
  .next (request r 0x0407 (.inr (.taskRestart r task)) s)

/-- TASK_STATUS (R310). -/
def execTaskStatus (r : Req) (task : Byte) (s : State) : Host.Outcome State Fault Refusal :=
  .next (request r 0x0408 (.inr (.taskStatus r task)) s)

/-- RUN_STATUS (R310). -/
def execRunStatus (r : Req) (s : State) : Host.Outcome State Fault Refusal :=
  .next (request r 0x0409 (.inr (.runStatus r)) s)

/-- TIME_GET (R311). -/
def execTimeGet (r : Req) (s : State) : Host.Outcome State Fault Refusal :=
  .next (request r 0x0501 (.inr (.timeGet r)) s)

/-- TIME_SET (R479). -/
def execTimeSet (r : Req) (form : TimeForm) (s : State) : Host.Outcome State Fault Refusal :=
  .next (request r 0x0502 (.inr (.timeSet r form)) s)

/-- WAKE_SET (R481). -/
def execWakeSet (r : Req) (n : W24) (s : State) : Host.Outcome State Fault Refusal :=
  .next (request r 0x0503 (.inr (.wakeSet r n)) s)

/-- PWRON_RELEASE (R482). -/
def execPwronRelease (r : Req) (s : State) : Host.Outcome State Fault Refusal :=
  .next (request r 0x0504 (.inr (.pwronRelease r)) s)

/-- DEPOT_READ (R506). -/
def execDepotRead (r : Req) (page : BitVec 16) (pages : Byte) (s : State) : Host.Outcome State Fault Refusal :=
  .next (request r 0x0601 (.inr (.depotRead r page pages)) s)

/-- DEPOT_WRITE (R505). -/
def execDepotWrite (r : Req) (page : BitVec 16) (data : List Byte) (s : State) : Host.Outcome State Fault Refusal :=
  .next (request r 0x0602 (.inr (.depotWrite r page data)) s)

/-- DEPOT_STATUS (R530). -/
def execDepotStatus (r : Req) (s : State) : Host.Outcome State Fault Refusal :=
  .next (request r 0x0603 (.inr (.depotStatus r)) s)

/-- LOG_READ (R526). -/
def execLogRead (r : Req) (first : W32) (count lowest : Byte) (s : State) : Host.Outcome State Fault Refusal :=
  .next (request r 0x0701 (.inr (.logRead r first count lowest)) s)

/-- LOG_FREEZE (R527). -/
def execLogFreeze (r : Req) (freeze : Byte) (s : State) : Host.Outcome State Fault Refusal :=
  .next (request r 0x0702 (.inr (.logFreeze r freeze)) s)

/-- LOG_STATUS (R520). -/
def execLogStatus (r : Req) (s : State) : Host.Outcome State Fault Refusal :=
  .next (request r 0x0703 (.inr (.logStatus r)) s)

/-- NOTICE_SUBSCRIBE (R321). -/
def execNoticeSubscribe (r : Req) (lowest : Byte) (s : State) : Host.Outcome State Fault Refusal :=
  .next (request r 0x0704 (.inr (.noticeSubscribe r lowest)) s)

/-- UPD_BEGIN (R551). -/
def execUpdBegin (r : Req) (part : Byte) (length : W32) (s : State) : Host.Outcome State Fault Refusal :=
  .next (request r 0x0801 (.inr (.updBegin r part length)) s)

/-- UPD_BLOCK (R552). -/
def execUpdBlock (r : Req) (part : Byte) (offset : W32) (data : List Byte) (s : State) : Host.Outcome State Fault Refusal :=
  .next (request r 0x0802 (.inr (.updBlock r part offset data)) s)

/-- UPD_VERIFY (R555). -/
def execUpdVerify (r : Req) (part : Byte) (s : State) : Host.Outcome State Fault Refusal :=
  .next (request r 0x0803 (.inr (.updVerify r part)) s)

/-- UPD_ACTIVATE (R556). -/
def execUpdActivate (r : Req) (part : Byte) (s : State) : Host.Outcome State Fault Refusal :=
  .next (request r 0x0804 (.inr (.updActivate r part)) s)

/-- UPD_CONFIRM (R558). -/
def execUpdConfirm (r : Req) (s : State) : Host.Outcome State Fault Refusal :=
  .next (request r 0x0805 (.inr (.updConfirm r)) s)

/-- UPD_REJECT (R560). -/
def execUpdReject (r : Req) (s : State) : Host.Outcome State Fault Refusal :=
  .next (request r 0x0806 (.inr (.updReject r)) s)

/-- UPD_STATUS (R568). -/
def execUpdStatus (r : Req) (s : State) : Host.Outcome State Fault Refusal :=
  .next (request r 0x0807 (.inr (.updStatus r)) s)

/-- UPD_MANIFEST (R563). -/
def execUpdManifest (r : Req) (manifest : List Byte) (s : State) : Host.Outcome State Fault Refusal :=
  .next (request r 0x0808 (.inr (.updManifest r manifest)) s)

/-- PAIR_STATUS (R315). -/
def execPairStatus (r : Req) (s : State) : Host.Outcome State Fault Refusal :=
  .next (request r 0x0901 (.inr (.pairStatus r)) s)

/-- PAIR_SWITCHOVER (R390). -/
def execPairSwitchover (r : Req) (s : State) : Host.Outcome State Fault Refusal :=
  .next (request r 0x0902 (.inr (.pairSwitchover r)) s)

/-- PAIR_RESYNC (R394). -/
def execPairResync (r : Req) (s : State) : Host.Outcome State Fault Refusal :=
  .next (request r 0x0903 (.inr (.pairResync r)) s)

/-- FEATURE_CONFIG (R316). -/
def execFeatureConfig (r : Req) (code inst : Byte) (st : Settings) (s : State) : Host.Outcome State Fault Refusal :=
  .next (request r 0x0A01 (.inr (.featureConfig r code inst st)) s)

/-- FEATURE_ENABLE (R32). -/
def execFeatureEnable (r : Req) (code inst : Byte) (s : State) : Host.Outcome State Fault Refusal :=
  .next (request r 0x0A02 (.inr (.featureEnable r code inst)) s)

/-- FEATURE_DISABLE (R34). -/
def execFeatureDisable (r : Req) (code inst : Byte) (s : State) : Host.Outcome State Fault Refusal :=
  .next (request r 0x0A03 (.inr (.featureDisable r code inst)) s)

/-- FEATURE_STATUS (R316). -/
def execFeatureStatus (r : Req) (code inst : Byte) (s : State) : Host.Outcome State Fault Refusal :=
  .next (request r 0x0A04 (.inr (.featureStatus r code inst)) s)

/-- RES_QUERY (R316). -/
def execResQuery (r : Req) (s : State) : Host.Outcome State Fault Refusal :=
  .next (request r 0x0A05 (.inr (.resQuery r)) s)

/-- DIO_STATUS (R468). -/
def execDioStatus (r : Req) (s : State) : Host.Outcome State Fault Refusal :=
  .next (request r 0x0B01 (.inr (.dioStatus r)) s)

/-- DIO_CONFIG (R449). -/
def execDioConfig (r : Req) (block : List Byte) (s : State) : Host.Outcome State Fault Refusal :=
  .next (request r 0x0B02 (.inr (.dioConfig r block)) s)

/-- SAF_STATUS (R317). -/
def execSafStatus (r : Req) (s : State) : Host.Outcome State Fault Refusal :=
  .next (request r 0x0B03 (.inr (.safStatus r)) s)

/-- CAST_NOW (R352). -/
def execCastNow (r : Req) (scope : Byte) (s : State) : Host.Outcome State Fault Refusal :=
  .next (request r 0x0C01 (.inr (.castNow r scope)) s)

/-- CAST_ARM (R46). -/
def execCastArm (r : Req) (s : State) : Host.Outcome State Fault Refusal :=
  .next (request r 0x0C02 (.inr (.castArm r)) s)

/-- CAST_READ (R318). -/
def execCastRead (r : Req) (base : W32) (offset count : BitVec 16) (s : State) : Host.Outcome State Fault Refusal :=
  .next (request r 0x0C03 (.inr (.castRead r base offset count)) s)

/-- REG_READ (R319). -/
def execRegRead (r : Req) (addr : W32) (count : BitVec 16) (s : State) : Host.Outcome State Fault Refusal :=
  .next (request r 0x0D01 (.inr (.regRead r addr count)) s)

/-- REG_WRITE (R319). -/
def execRegWrite (r : Req) (addr : W32) (count : BitVec 16) (vals : List W32) (s : State) : Host.Outcome State Fault Refusal :=
  .next (request r 0x0D02 (.inr (.regWrite r addr count vals)) s)

/-- IDENT (R320). -/
def execIdent (r : Req) (s : State) : Host.Outcome State Fault Refusal :=
  .next (request r 0x0E01 (.inr (.ident r)) s)

/-- ATTEST (R538). -/
def execAttest (r : Req) (nonce : List Byte) (s : State) : Host.Outcome State Fault Refusal :=
  .next (request r 0x0E02 (.inr (.attest r nonce)) s)

/-- CERT_READ (R537). -/
def execCertRead (r : Req) (key pos : Byte) (s : State) : Host.Outcome State Fault Refusal :=
  .next (request r 0x0E03 (.inr (.certRead r key pos)) s)

/-- KEY_ENROL (R541). -/
def execKeyEnrol (r : Req) (index : BitVec 16) (role : Byte) (ed mldsa : List Byte) (s : State) : Host.Outcome State Fault Refusal :=
  .next (request r 0x0E04 (.inr (.keyEnrol r index role ed mldsa)) s)

/-- KEY_REMOVE (R540). -/
def execKeyRemove (r : Req) (index : BitVec 16) (s : State) : Host.Outcome State Fault Refusal :=
  .next (request r 0x0E05 (.inr (.keyRemove r index)) s)

/-- KEY_LIST (R320). -/
def execKeyList (r : Req) (s : State) : Host.Outcome State Fault Refusal :=
  .next (request r 0x0E06 (.inr (.keyList r)) s)

end Sys2Proof.Machine
end

