-- ==== Sys2Proof/Machine/Dispatch.lean ====
section
/-! DEFINITION. What each command does: one arm for each row of spec/opcode_table.json, in the table's order. -/

namespace Sys2Proof.Machine

/-- The effect of a command on everything but the queue of waiting commands (file 95). -/
def exec (i : Instr) (s : State) : Host.Outcome State Fault Refusal :=
  match i with
  | .powerOnReset env => Sys2Proof.Machine.execPowerOnReset env s
  | .pinReset lowUs env => Sys2Proof.Machine.execPinReset lowUs env s
  | .watchdogReset env => Sys2Proof.Machine.execWatchdogReset env s
  | .roleWaitExpiry => Sys2Proof.Machine.execRoleWaitExpiry s
  | .powerFailWarning => Sys2Proof.Machine.execPowerFailWarning s
  | .powerFailReset vinBelow => Sys2Proof.Machine.execPowerFailReset vinBelow s
  | .bkdSupplyChangeover vin => Sys2Proof.Machine.execBkdSupplyChangeover vin s
  | .bkdReset => Sys2Proof.Machine.execBkdReset s
  | .vbatBrownout => Sys2Proof.Machine.execVbatBrownout s
  | .crystalStop => Sys2Proof.Machine.execCrystalStop s
  | .tickEdge inp => Sys2Proof.Machine.execTickEdge inp s
  | .guardEdge task => Sys2Proof.Machine.execGuardEdge task s
  | .segmentSuspend core => Sys2Proof.Machine.execSegmentSuspend core s
  | .segmentCommit core => Sys2Proof.Machine.execSegmentCommit core s
  | .directModeEntry core => Sys2Proof.Machine.execDirectModeEntry core s
  | .coreFault core cause => Sys2Proof.Machine.execCoreFault core cause s
  | .sramUncorrectable place => Sys2Proof.Machine.execSramUncorrectable place s
  | .sramSingleBitError place => Sys2Proof.Machine.execSramSingleBitError place s
  | .trapAbandon core => Sys2Proof.Machine.execTrapAbandon core s
  | .supEmulationPass => Sys2Proof.Machine.execSupEmulationPass s
  | .nop core => Sys2Proof.Machine.execNop core s
  | .repi core => Sys2Proof.Machine.execRepi core s
  | .repn core => Sys2Proof.Machine.execRepn core s
  | .chk core => Sys2Proof.Machine.execChk core s
  | .cast core => Sys2Proof.Machine.execCast core s
  | .trap core => Sys2Proof.Machine.execTrap core s
  | .movsr core => Sys2Proof.Machine.execMovsr core s
  | .settsw core => Sys2Proof.Machine.execSettsw core s
  | .setb core => Sys2Proof.Machine.execSetb core s
  | .clrb core => Sys2Proof.Machine.execClrb core s
  | .movb core => Sys2Proof.Machine.execMovb core s
  | .notb core => Sys2Proof.Machine.execNotb core s
  | .andb core => Sys2Proof.Machine.execAndb core s
  | .orb core => Sys2Proof.Machine.execOrb core s
  | .xorb core => Sys2Proof.Machine.execXorb core s
  | .nandb core => Sys2Proof.Machine.execNandb core s
  | .norb core => Sys2Proof.Machine.execNorb core s
  | .xnorb core => Sys2Proof.Machine.execXnorb core s
  | .andnb core => Sys2Proof.Machine.execAndnb core s
  | .ornb core => Sys2Proof.Machine.execOrnb core s
  | .rise core => Sys2Proof.Machine.execRise core s
  | .fall core => Sys2Proof.Machine.execFall core s
  | .sr core => Sys2Proof.Machine.execSr core s
  | .rs core => Sys2Proof.Machine.execRs core s
  | .tglb core => Sys2Proof.Machine.execTglb core s
  | .mov core => Sys2Proof.Machine.execMov core s
  | .add core => Sys2Proof.Machine.execAdd core s
  | .sub core => Sys2Proof.Machine.execSub core s
  | .adds core => Sys2Proof.Machine.execAdds core s
  | .subs core => Sys2Proof.Machine.execSubs core s
  | .neg core => Sys2Proof.Machine.execNeg core s
  | .abs core => Sys2Proof.Machine.execAbs core s
  | .mul core => Sys2Proof.Machine.execMul core s
  | .mull core => Sys2Proof.Machine.execMull core s
  | .mullu core => Sys2Proof.Machine.execMullu core s
  | .div core => Sys2Proof.Machine.execDiv core s
  | .rem core => Sys2Proof.Machine.execRem core s
  | .divu core => Sys2Proof.Machine.execDivu core s
  | .remu core => Sys2Proof.Machine.execRemu core s
  | .and core => Sys2Proof.Machine.execAnd core s
  | .or core => Sys2Proof.Machine.execOr core s
  | .xor core => Sys2Proof.Machine.execXor core s
  | .not core => Sys2Proof.Machine.execNot core s
  | .shl core => Sys2Proof.Machine.execShl core s
  | .shr core => Sys2Proof.Machine.execShr core s
  | .sar core => Sys2Proof.Machine.execSar core s
  | .rol core => Sys2Proof.Machine.execRol core s
  | .ror core => Sys2Proof.Machine.execRor core s
  | .min core => Sys2Proof.Machine.execMin core s
  | .max core => Sys2Proof.Machine.execMax core s
  | .limit core => Sys2Proof.Machine.execLimit core s
  | .cmpeq core => Sys2Proof.Machine.execCmpeq core s
  | .cmpne core => Sys2Proof.Machine.execCmpne core s
  | .cmplt core => Sys2Proof.Machine.execCmplt core s
  | .cmple core => Sys2Proof.Machine.execCmple core s
  | .cmpgt core => Sys2Proof.Machine.execCmpgt core s
  | .cmpge core => Sys2Proof.Machine.execCmpge core s
  | .cmpltu core => Sys2Proof.Machine.execCmpltu core s
  | .cmpleu core => Sys2Proof.Machine.execCmpleu core s
  | .cmpgtu core => Sys2Proof.Machine.execCmpgtu core s
  | .cmpgeu core => Sys2Proof.Machine.execCmpgeu core s
  | .movl core => Sys2Proof.Machine.execMovl core s
  | .addl core => Sys2Proof.Machine.execAddl core s
  | .subl core => Sys2Proof.Machine.execSubl core s
  | .addsl core => Sys2Proof.Machine.execAddsl core s
  | .subsl core => Sys2Proof.Machine.execSubsl core s
  | .negl core => Sys2Proof.Machine.execNegl core s
  | .lmul core => Sys2Proof.Machine.execLmul core s
  | .divl core => Sys2Proof.Machine.execDivl core s
  | .reml core => Sys2Proof.Machine.execReml core s
  | .shll core => Sys2Proof.Machine.execShll core s
  | .shrl core => Sys2Proof.Machine.execShrl core s
  | .sarl core => Sys2Proof.Machine.execSarl core s
  | .cmpl core => Sys2Proof.Machine.execCmpl core s
  | .andl core => Sys2Proof.Machine.execAndl core s
  | .orl core => Sys2Proof.Machine.execOrl core s
  | .xorl core => Sys2Proof.Machine.execXorl core s
  | .movf core => Sys2Proof.Machine.execMovf core s
  | .addf core => Sys2Proof.Machine.execAddf core s
  | .subf core => Sys2Proof.Machine.execSubf core s
  | .mulf core => Sys2Proof.Machine.execMulf core s
  | .divf core => Sys2Proof.Machine.execDivf core s
  | .negf core => Sys2Proof.Machine.execNegf core s
  | .absf core => Sys2Proof.Machine.execAbsf core s
  | .sqrtf core => Sys2Proof.Machine.execSqrtf core s
  | .minf core => Sys2Proof.Machine.execMinf core s
  | .maxf core => Sys2Proof.Machine.execMaxf core s
  | .cmpf core => Sys2Proof.Machine.execCmpf core s
  | .roundf core => Sys2Proof.Machine.execRoundf core s
  | .truncf core => Sys2Proof.Machine.execTruncf core s
  | .cvtwf core => Sys2Proof.Machine.execCvtwf core s
  | .cvtuf core => Sys2Proof.Machine.execCvtuf core s
  | .cvtlf core => Sys2Proof.Machine.execCvtlf core s
  | .cvtfw core => Sys2Proof.Machine.execCvtfw core s
  | .cvtfl core => Sys2Proof.Machine.execCvtfl core s
  | .trnfw core => Sys2Proof.Machine.execTrnfw core s
  | .trnfl core => Sys2Proof.Machine.execTrnfl core s
  | .sxwl core => Sys2Proof.Machine.execSxwl core s
  | .zxwl core => Sys2Proof.Machine.execZxwl core s
  | .cvtlw core => Sys2Proof.Machine.execCvtlw core s
  | .bcdw core => Sys2Proof.Machine.execBcdw core s
  | .wbcd core => Sys2Proof.Machine.execWbcd core s
  | .movblk core => Sys2Proof.Machine.execMovblk core s
  | .fill core => Sys2Proof.Machine.execFill core s
  | .scan core => Sys2Proof.Machine.execScan core s
  | .lookup core => Sys2Proof.Machine.execLookup core s
  | .pids core => Sys2Proof.Machine.execPids core s
  | .movblkb core => Sys2Proof.Machine.execMovblkb core s
  | .fillb core => Sys2Proof.Machine.execFillb core s
  | .deprd core => Sys2Proof.Machine.execDeprd core s
  | .depwr core => Sys2Proof.Machine.execDepwr core s
  | .msgsnd core => Sys2Proof.Machine.execMsgsnd core s
  | .jmp core => Sys2Proof.Machine.execJmp core s
  | .bz core => Sys2Proof.Machine.execBz core s
  | .bnz core => Sys2Proof.Machine.execBnz core s
  | .call core => Sys2Proof.Machine.execCall core s
  | .ret core => Sys2Proof.Machine.execRet core s
  | .segend core => Sys2Proof.Machine.execSegend core s
  | .ton core => Sys2Proof.Machine.execTon core s
  | .tof core => Sys2Proof.Machine.execTof core s
  | .tp core => Sys2Proof.Machine.execTp core s
  | .tonr core => Sys2Proof.Machine.execTonr core s
  | .ctu core => Sys2Proof.Machine.execCtu core s
  | .ctd core => Sys2Proof.Machine.execCtd core s
  | .elt core => Sys2Proof.Machine.execElt core s
  | .tod core => Sys2Proof.Machine.execTod core s
  | .customerOpcode core => Sys2Proof.Machine.execCustomerOpcode core s
  | .reservedOpcode core => Sys2Proof.Machine.execReservedOpcode core s
  | .hostEthernetFrame dst src tag pkt => Sys2Proof.Machine.execHostEthernetFrame dst src tag pkt s
  | .udpDatagram addr port dport fragmented pkt => Sys2Proof.Machine.execUdpDatagram addr port dport fragmented pkt s
  | .arpRequest kind target data => Sys2Proof.Machine.execArpRequest kind target data s
  | .spiWrite bytes => Sys2Proof.Machine.execSpiWrite bytes s
  | .spiRead clocked => Sys2Proof.Machine.execSpiRead clocked s
  | .spiStatus => Sys2Proof.Machine.execSpiStatus s
  | .usbBulkTransfer bytes => Sys2Proof.Machine.execUsbBulkTransfer bytes s
  | .fragment ep pkt => Sys2Proof.Machine.execFragment ep pkt s
  | .fragTimeout ep seq => Sys2Proof.Machine.execFragTimeout ep seq s
  | .hostLinkChange up => Sys2Proof.Machine.execHostLinkChange up s
  | .hello r count maxPkt ranges => Sys2Proof.Machine.execHello r count maxPkt ranges s
  | .authChallenge r key share ek => Sys2Proof.Machine.execAuthChallenge r key share ek s
  | .authProve r sig => Sys2Proof.Machine.execAuthProve r sig s
  | .bye r index => Sys2Proof.Machine.execBye r index s
  | .sessionInfo r => Sys2Proof.Machine.execSessionInfo r s
  | .unitInfo r => Sys2Proof.Machine.execUnitInfo r s
  | .unitStatus r => Sys2Proof.Machine.execUnitStatus r s
  | .basinMap r => Sys2Proof.Machine.execBasinMap r s
  | .startMode r mode => Sys2Proof.Machine.execStartMode r mode s
  | .reset r kind => Sys2Proof.Machine.execReset r kind s
  | .imgRead r space addr count => Sys2Proof.Machine.execImgRead r space addr count s
  | .imgWrite r space addr count vals => Sys2Proof.Machine.execImgWrite r space addr count vals s
  | .imgLayout r => Sys2Proof.Machine.execImgLayout r s
  | .prgLoadOpen r => Sys2Proof.Machine.execPrgLoadOpen r s
  | .prgLoadBlock r offset data => Sys2Proof.Machine.execPrgLoadBlock r offset data s
  | .prgLoadClose r => Sys2Proof.Machine.execPrgLoadClose r s
  | .prgInfo r => Sys2Proof.Machine.execPrgInfo r s
  | .prgRead r bank part first count => Sys2Proof.Machine.execPrgRead r bank part first count s
  | .editOpen r => Sys2Proof.Machine.execEditOpen r s
  | .editBlock r offset data => Sys2Proof.Machine.execEditBlock r offset data s
  | .editClose r => Sys2Proof.Machine.execEditClose r s
  | .editApply r tick => Sys2Proof.Machine.execEditApply r tick s
  | .editAbort r => Sys2Proof.Machine.execEditAbort r s
  | .undoEdit r tick => Sys2Proof.Machine.execUndoEdit r tick s
  | .editStatus r => Sys2Proof.Machine.execEditStatus r s
  | .editBuildDone ecc => Sys2Proof.Machine.execEditBuildDone ecc s
  | .editTick => Sys2Proof.Machine.execEditTick s
  | .editDrainEnd => Sys2Proof.Machine.execEditDrainEnd s
  | .editStored => Sys2Proof.Machine.execEditStored s
  | .run r tick => Sys2Proof.Machine.execRun r tick s
  | .runStartTick => Sys2Proof.Machine.execRunStartTick s
  | .stop r => Sys2Proof.Machine.execStop r s
  | .step r task => Sys2Proof.Machine.execStep r task s
  | .taskEnable r task => Sys2Proof.Machine.execTaskEnable r task s
  | .taskDisable r task => Sys2Proof.Machine.execTaskDisable r task s
  | .taskTrigger r task => Sys2Proof.Machine.execTaskTrigger r task s
  | .taskRestart r task => Sys2Proof.Machine.execTaskRestart r task s
  | .taskStatus r task => Sys2Proof.Machine.execTaskStatus r task s
  | .runStatus r => Sys2Proof.Machine.execRunStatus r s
  | .timeGet r => Sys2Proof.Machine.execTimeGet r s
  | .timeSet r form => Sys2Proof.Machine.execTimeSet r form s
  | .wakeSet r n => Sys2Proof.Machine.execWakeSet r n s
  | .pwronRelease r => Sys2Proof.Machine.execPwronRelease r s
  | .depotRead r page pages => Sys2Proof.Machine.execDepotRead r page pages s
  | .depotWrite r page data => Sys2Proof.Machine.execDepotWrite r page data s
  | .depotStatus r => Sys2Proof.Machine.execDepotStatus r s
  | .logRead r first count lowest => Sys2Proof.Machine.execLogRead r first count lowest s
  | .logFreeze r freeze => Sys2Proof.Machine.execLogFreeze r freeze s
  | .logStatus r => Sys2Proof.Machine.execLogStatus r s
  | .noticeSubscribe r lowest => Sys2Proof.Machine.execNoticeSubscribe r lowest s
  | .updBegin r part length => Sys2Proof.Machine.execUpdBegin r part length s
  | .updBlock r part offset data => Sys2Proof.Machine.execUpdBlock r part offset data s
  | .updVerify r part => Sys2Proof.Machine.execUpdVerify r part s
  | .updActivate r part => Sys2Proof.Machine.execUpdActivate r part s
  | .activationReset => Sys2Proof.Machine.execActivationReset s
  | .updConfirm r => Sys2Proof.Machine.execUpdConfirm r s
  | .updAutoConfirm => Sys2Proof.Machine.execUpdAutoConfirm s
  | .updTrialExpired => Sys2Proof.Machine.execUpdTrialExpired s
  | .updReject r => Sys2Proof.Machine.execUpdReject r s
  | .updStatus r => Sys2Proof.Machine.execUpdStatus r s
  | .updManifest r manifest => Sys2Proof.Machine.execUpdManifest r manifest s
  | .pairStatus r => Sys2Proof.Machine.execPairStatus r s
  | .pairSwitchover r => Sys2Proof.Machine.execPairSwitchover r s
  | .pairResync r => Sys2Proof.Machine.execPairResync r s
  | .featureConfig r code inst st => Sys2Proof.Machine.execFeatureConfig r code inst st s
  | .featureEnable r code inst => Sys2Proof.Machine.execFeatureEnable r code inst s
  | .featureDisable r code inst => Sys2Proof.Machine.execFeatureDisable r code inst s
  | .featureStatus r code inst => Sys2Proof.Machine.execFeatureStatus r code inst s
  | .resQuery r => Sys2Proof.Machine.execResQuery r s
  | .dioStatus r => Sys2Proof.Machine.execDioStatus r s
  | .dioConfig r block => Sys2Proof.Machine.execDioConfig r block s
  | .safStatus r => Sys2Proof.Machine.execSafStatus r s
  | .castNow r scope => Sys2Proof.Machine.execCastNow r scope s
  | .castArm r => Sys2Proof.Machine.execCastArm r s
  | .castRead r base offset count => Sys2Proof.Machine.execCastRead r base offset count s
  | .regRead r addr count => Sys2Proof.Machine.execRegRead r addr count s
  | .regWrite r addr count vals => Sys2Proof.Machine.execRegWrite r addr count vals s
  | .ident r => Sys2Proof.Machine.execIdent r s
  | .attest r nonce => Sys2Proof.Machine.execAttest r nonce s
  | .certRead r key pos => Sys2Proof.Machine.execCertRead r key pos s
  | .keyEnrol r index role ed mldsa => Sys2Proof.Machine.execKeyEnrol r index role ed mldsa s
  | .keyRemove r index => Sys2Proof.Machine.execKeyRemove r index s
  | .keyList r => Sys2Proof.Machine.execKeyList r s
  | .authLockoutEnd => Sys2Proof.Machine.execAuthLockoutEnd s
  | .enableBitWrite code inst => Sys2Proof.Machine.execEnableBitWrite code inst s
  | .enableBitClear code inst => Sys2Proof.Machine.execEnableBitClear code inst s
  | .rtcCommit => Sys2Proof.Machine.execRtcCommit s
  | .sleep => Sys2Proof.Machine.execSleep s
  | .wakeFromSleep source => Sys2Proof.Machine.execWakeFromSleep source s
  | .wakeFiring => Sys2Proof.Machine.execWakeFiring s
  | .rtcTrimStep => Sys2Proof.Machine.execRtcTrimStep s
  | .wdtEnable => Sys2Proof.Machine.execWdtEnable s
  | .wdtLock => Sys2Proof.Machine.execWdtLock s
  | .wdtService => Sys2Proof.Machine.execWdtService s
  | .wdtTimeout => Sys2Proof.Machine.execWdtTimeout s
  | .wdtWindowOpen => Sys2Proof.Machine.execWdtWindowOpen s
  | .wdtKeyWrite key => Sys2Proof.Machine.execWdtKeyWrite key s
  | .wdtKeyLapse => Sys2Proof.Machine.execWdtKeyLapse s
  | .castTriggerWrite => Sys2Proof.Machine.execCastTriggerWrite s
  | .castCtrlArm => Sys2Proof.Machine.execCastCtrlArm s
  | .castInEdge widthNs => Sys2Proof.Machine.execCastInEdge widthNs s
  | .crcPresetLoad ch value => Sys2Proof.Machine.execCrcPresetLoad ch value s
  | .userCrcChunk ch => Sys2Proof.Machine.execUserCrcChunk ch s
  | .settingsStore => Sys2Proof.Machine.execSettingsStore s
  | .ringEnClear => Sys2Proof.Machine.execRingEnClear s
  | .pasPubWrite index a b => Sys2Proof.Machine.execPasPubWrite index a b s
  | .pasSubWrite index a b => Sys2Proof.Machine.execPasSubWrite index a b s
  | .pasEvtWrite event data => Sys2Proof.Machine.execPasEvtWrite event data s
  | .fldEvtWrite bit data => Sys2Proof.Machine.execFldEvtWrite bit data s
  | .healthEnWrite value => Sys2Proof.Machine.execHealthEnWrite value s
  | .flushStep => Sys2Proof.Machine.execFlushStep s
  | .freezeExpired => Sys2Proof.Machine.execFreezeExpired s
  | .pageWriteDone => Sys2Proof.Machine.execPageWriteDone s
  | .depotBusyTimeout => Sys2Proof.Machine.execDepotBusyTimeout s
  | .patrolRead weak corrected => Sys2Proof.Machine.execPatrolRead weak corrected s
  | .barrierSlot => Sys2Proof.Machine.execBarrierSlot s
  | .downFrameRx b => Sys2Proof.Machine.execDownFrameRx b s
  | .upFrameRx b => Sys2Proof.Machine.execUpFrameRx b s
  | .barrierSilence => Sys2Proof.Machine.execBarrierSilence s
  | .barrierLost => Sys2Proof.Machine.execBarrierLost s
  | .resetPattern => Sys2Proof.Machine.execResetPattern s
  | .vdoLow => Sys2Proof.Machine.execVdoLow s
  | .doThermalRetry ch => Sys2Proof.Machine.execDoThermalRetry ch s
  | .safCycle inp => Sys2Proof.Machine.execSafCycle inp s
  | .darkPulseTest ch2 offSeen onSeen => Sys2Proof.Machine.execDarkPulseTest ch2 offSeen onSeen s
  | .switchBankRead switches => Sys2Proof.Machine.execSwitchBankRead switches s
  | .phyPoll links => Sys2Proof.Machine.execPhyPoll links s
  | .fieldFrameRx port f => Sys2Proof.Machine.execFieldFrameRx port f s
  | .gptpFrame port m => Sys2Proof.Machine.execGptpFrame port m s
  | .qbvGateEntry port => Sys2Proof.Machine.execQbvGateEntry port s
  | .frerRecoveryReset pair => Sys2Proof.Machine.execFrerRecoveryReset pair s
  | .plPollExpiry node => Sys2Proof.Machine.execPlPollExpiry node s
  | .plInFrame f => Sys2Proof.Machine.execPlInFrame f s
  | .plRespExpiry node => Sys2Proof.Machine.execPlRespExpiry node s
  | .plCfgResponse f offer map => Sys2Proof.Machine.execPlCfgResponse f offer map s
  | .plDiagPoll => Sys2Proof.Machine.execPlDiagPoll s
  | .plDiagResponse f => Sys2Proof.Machine.execPlDiagResponse f s
  | .modbusTransactionDue port index => Sys2Proof.Machine.execModbusTransactionDue port index s
  | .modbusResponse port adu => Sys2Proof.Machine.execModbusResponse port adu s
  | .modbusTimeout port => Sys2Proof.Machine.execModbusTimeout port s
  | .modbusSlaveRequest port adu => Sys2Proof.Machine.execModbusSlaveRequest port adu s
  | .portMessageStart port => Sys2Proof.Machine.execPortMessageStart port s
  | .mbusPoll meter => Sys2Proof.Machine.execMbusPoll meter s
  | .mbusAnswer port telegram => Sys2Proof.Machine.execMbusAnswer port telegram s
  | .mbusAnswerTimeout port => Sys2Proof.Machine.execMbusAnswerTimeout port s
  | .mbusOvercurrent port => Sys2Proof.Machine.execMbusOvercurrent port s
  | .canRx port f => Sys2Proof.Machine.execCanRx port f s
  | .canTxPeriod port obj => Sys2Proof.Machine.execCanTxPeriod port obj s
  | .canBusOff port => Sys2Proof.Machine.execCanBusOff port s
  | .canBusOffRecovery port => Sys2Proof.Machine.execCanBusOffRecovery port s
  | .timeInEdge rising offsetNs => Sys2Proof.Machine.execTimeInEdge rising offsetNs s
  | .ppsPulseEnd => Sys2Proof.Machine.execPpsPulseEnd s
  | .timebaseLock e => Sys2Proof.Machine.execTimebaseLock e s
  | .passLinkBreak east => Sys2Proof.Machine.execPassLinkBreak east s
  | .passLinkUp east offer => Sys2Proof.Machine.execPassLinkUp east offer s
  | .discoverRound => Sys2Proof.Machine.execDiscoverRound s
  | .discover h d => Sys2Proof.Machine.execDiscover h d s
  | .discoverRoundClose => Sys2Proof.Machine.execDiscoverRoundClose s
  | .topology h t => Sys2Proof.Machine.execTopology h t s
  | .topologyChangeTick => Sys2Proof.Machine.execTopologyChangeTick s
  | .tickSyncSend => Sys2Proof.Machine.execTickSyncSend s
  | .tickSync h ns correction => Sys2Proof.Machine.execTickSync h ns correction s
  | .exchangeTick => Sys2Proof.Machine.execExchangeTick s
  | .region h index word count offset data => Sys2Proof.Machine.execRegion h index word count offset data s
  | .event h event => Sys2Proof.Machine.execEvent h event s
  | .command h tag origin piece bytes => Sys2Proof.Machine.execCommand h tag origin piece bytes s
  | .commandAck h tag origin => Sys2Proof.Machine.execCommandAck h tag origin s
  | .commandResend => Sys2Proof.Machine.execCommandResend s
  | .castFrame h ns source => Sys2Proof.Machine.execCastFrame h ns source s
  | .castFrameTrigger => Sys2Proof.Machine.execCastFrameTrigger s
  | .report h q => Sys2Proof.Machine.execReport h q s
  | .originRecordClose => Sys2Proof.Machine.execOriginRecordClose s
  | .heartbeatSend => Sys2Proof.Machine.execHeartbeatSend s
  | .heartbeat sync h hb => Sys2Proof.Machine.execHeartbeat sync h hb s
  | .hbPathLoss sync => Sys2Proof.Machine.execHbPathLoss sync s
  | .takeover => Sys2Proof.Machine.execTakeover s
  | .autoResyncTimer => Sys2Proof.Machine.execAutoResyncTimer s
  | .record h body => Sys2Proof.Machine.execRecord h body s
  | .recordAck h => Sys2Proof.Machine.execRecordAck h s
  | .fetch h source => Sys2Proof.Machine.execFetch h source s
  | .supplement h source offset data => Sys2Proof.Machine.execSupplement h source offset data s
  | .standbyPresume wait => Sys2Proof.Machine.execStandbyPresume wait s
  | .done h task lt => Sys2Proof.Machine.execDone h task lt s
  | .verdict h entries => Sys2Proof.Machine.execVerdict h entries s
  | .digest h task lt digest => Sys2Proof.Machine.execDigest h task lt digest s
  | .state h data => Sys2Proof.Machine.execState h data s
  | .resyncRequest h rdv => Sys2Proof.Machine.execResyncRequest h rdv s
  | .resyncRound => Sys2Proof.Machine.execResyncRound s
  | .join h tick => Sys2Proof.Machine.execJoin h tick s
  | .joinTick => Sys2Proof.Machine.execJoinTick s
  | .dropToWarm h cause => Sys2Proof.Machine.execDropToWarm h cause s
  | .switchover h tick => Sys2Proof.Machine.execSwitchover h tick s
  | .switchoverTick => Sys2Proof.Machine.execSwitchoverTick s
  | .edit h opcode params => Sys2Proof.Machine.execEdit h opcode params s
  | .commandControl h tag pkt => Sys2Proof.Machine.execCommandControl h tag pkt s
  | .built h digest => Sys2Proof.Machine.execBuilt h digest s
  | .crystalRestart => Sys2Proof.Machine.execCrystalRestart s
  | .vdoRecovery => Sys2Proof.Machine.execVdoRecovery s
  | .doShort ch => Sys2Proof.Machine.execDoShort ch s
  | .doThermal ch => Sys2Proof.Machine.execDoThermal ch s
  | .iodSlot inp => Sys2Proof.Machine.execIodSlot inp s
  | .usbVbusChange present => Sys2Proof.Machine.execUsbVbusChange present s
  | .syncLinkTraining up offer => Sys2Proof.Machine.execSyncLinkTraining up offer s
  | .verificationEnd => Sys2Proof.Machine.execVerificationEnd s
  | .canTxComplete port => Sys2Proof.Machine.execCanTxComplete port s
  | .modbusFrameGapError port => Sys2Proof.Machine.execModbusFrameGapError port s
  | .gptpMessageSend port => Sys2Proof.Machine.execGptpMessageSend port s
  | .ringEnSet => Sys2Proof.Machine.execRingEnSet s

end Sys2Proof.Machine
end

