-- ==== Sys2Proof/Machine/Step.lean ====
section
/-! DEFINITION. One step of the module: the command at the front of the queue, or, where no command waits, one edge
of the backup domain's clock. -/

namespace Sys2Proof.Machine

/-- Take the command at the front of the queue and run it on the state with the queue's rest. On an empty queue the
block is idle but for the backup domain, whose 32,768 Hz crystal counts on (R464, R477): the step is one edge of
that clock (DESIGN CHOICE, log entry 1). [Log: DESIGN CHOICE, unsafe, entry 1.] -/
def step (s : State) : Host.Outcome State Fault Refusal :=
  match s.pending with
  | [] => .next (bkdClock s)
  | c :: cs => exec c { s with pending := cs }

/-- The command that a word spells is put at the front of the queue. The command table gives no row any bits, so no
word spells a command and the state is unchanged. -/
def State.withFetchWord (s : State) (nbits w : Nat) : State :=
  match decodeTableWord nbits w with
  | none => s
  | some c => { s with pending := c :: s.pending }

end Sys2Proof.Machine
end

