-- ==== Sys2Proof/WellFormed.lean ====
section
/-! DEFINITION. Which commands are well formed: operands that the manual bounds more narrowly than their type does. A command that is
not is no packet, frame or event of this module's; `exec` is total on it all the same. -/

namespace Sys2Proof

/-- A core number: 0 to 7, or 8 for SCX (R18, R161). -/
def wfCore (c : Nat) : Bool := decide (c < 9)

/-- A block of a program or an update in one command: 512 to 8,192 bytes (R308, R314). -/
def wfBlock (d : List Byte) : Bool := decide (512 ≤ d.length ∧ d.length ≤ 8192)

/-- A settings block: PLAINLINE has four group addresses, and kinds 0 to 2 have their own forms (R407). -/
def wfSettings (st : Settings) : Bool :=
  match st with
  | .plGroups g => decide (g.length = 4)
  | .plKind k => decide (3 ≤ k.toNat)
  | .empty | .malformed | .plNodes _ | .plClear | .fieldEth _ | .rs485 _ | .mbus _ | .can _ | .timebase .. | .castPin _ | .gpio .. | .userCrc .. =>
    true

/-- A form of TIME_SET: forms 0 and 1 have fields (R311). -/
def wfTime (f : TimeForm) : Bool :=
  match f with
  | .other k => decide (2 ≤ k.toNat)
  | .binary .. | .calendar .. => true

/-- A feature whose enable is a register bit (R33). -/
def wfEnable (code : Byte) : Bool := [0x03, 0x10, 0x12, 0x13, 0x14, 0x21, 0x26].contains code.toNat

/-- The well-formed commands. Every value of the operand types belongs to the commands of the last arm. -/
def wellFormed (i : Instr) : Bool :=
  match i with
  | .segmentSuspend c | .segmentCommit c | .directModeEntry c | .trapAbandon c | .nop c | .repi c | .repn c | .chk c
  | .cast c | .trap c | .movsr c | .settsw c | .setb c | .clrb c | .movb c | .notb c | .andb c | .orb c | .xorb c
  | .nandb c | .norb c | .xnorb c | .andnb c | .ornb c | .rise c | .fall c | .sr c | .rs c | .tglb c | .mov c
  | .add c | .sub c | .adds c | .subs c | .neg c | .abs c | .mul c | .mull c | .mullu c | .div c | .rem c | .divu c
  | .remu c | .and c | .or c | .xor c | .not c | .shl c | .shr c | .sar c | .rol c | .ror c | .min c | .max c
  | .limit c | .cmpeq c | .cmpne c | .cmplt c | .cmple c | .cmpgt c | .cmpge c | .cmpltu c | .cmpleu c | .cmpgtu c
  | .cmpgeu c | .movl c | .addl c | .subl c | .addsl c | .subsl c | .negl c | .lmul c | .divl c | .reml c | .shll c
  | .shrl c | .sarl c | .cmpl c | .andl c | .orl c | .xorl c | .movf c | .addf c | .subf c | .mulf c | .divf c
  | .negf c | .absf c | .sqrtf c | .minf c | .maxf c | .cmpf c | .roundf c | .truncf c | .cvtwf c | .cvtuf c
  | .cvtlf c | .cvtfw c | .cvtfl c | .trnfw c | .trnfl c | .sxwl c | .zxwl c | .cvtlw c | .bcdw c | .wbcd c
  | .movblk c | .fill c | .scan c | .lookup c | .pids c | .movblkb c | .fillb c | .deprd c | .depwr c | .msgsnd c
  | .jmp c | .bz c | .bnz c | .call c | .ret c | .segend c | .ton c | .tof c | .tp c | .tonr c | .ctu c | .ctd c
  | .elt c | .tod c | .customerOpcode c | .reservedOpcode c => wfCore c
  | .coreFault c _ => wfCore c
  | .hello _ n _ l => decide (n.toNat = l.length)
  | .authChallenge _ _ share ek => decide (share.length = 32 ∧ ek.length = 1184)
  | .authProve _ sig => decide (sig.length = 3373)
  | .prgLoadBlock _ _ d | .editBlock _ _ d | .updBlock _ _ _ d => wfBlock d
  | .timeSet _ f => wfTime f
  | .depotWrite _ _ d => decide (d.length = 256)
  | .updManifest _ m => decide (m.length ≤ 4096)
  | .featureConfig _ _ _ st => wfSettings st
  | .dioConfig _ b => decide (b.length = 26)
  | .regWrite _ _ n v => decide (n.toNat = v.length)
  | .attest _ n => decide (n.length = 32)
  | .keyEnrol _ _ _ e m => decide (e.length = 32 ∧ m.length = 1952)
  | .enableBitWrite code _ | .enableBitClear code _ => wfEnable code
  | .downFrameRx b | .upFrameRx b => decide (b.length = 32)
  | .region _ k _ _ _ d => decide (k.toNat < 64 ∧ d.length ≤ 1024)
  | .event _ e => decide (e.toNat < 64)
  | .command _ _ _ _ b => decide (b.length ≤ 1016)
  | .record _ b => decide (b.digests.length = 15)
  | .fetch _ k | .supplement _ k _ _ => decide (k.toNat < 15)
  | .edit _ op _ => [0x0310, 0x0311, 0x0312, 0x0314].contains op.toNat
  | _ => true

end Sys2Proof
end

