-- ==== Sys2Proof/Safety.lean ====
section
/-! DEFINITION. The terms in which the statements about the module are made: when an instruction stands at a core, what an
operation computes, when a request is served, what a safe state of the watchdog is. -/

namespace Sys2Proof.Safety

open Sys2Proof.Machine

/-! ## SWM instructions -/

/-- Core c holds run r, which can execute an instruction now, and the instruction at its PC is i. -/
structure AtIns (s : State) (c : Nat) (r : Run) (i : Ins) : Prop where
  holds : (Machine.core s c).run = some r
  free  : canRun r = true
  here  : decodeIns (rowEnv s c r).fetch r.pc = i

/-- Row `row` of opcode `op` completes on every core at which its instruction stands, in direct mode where the instruction is
serial, and what it makes of the run at the start of the instruction is `m`. -/
def Executes (row : Nat → Instr) (op : Nat) (m : Env → Ins → X → X) : Prop :=
  ∀ c s r i, AtIns s c r i → i.op = op → (serialOp op = true → r.direct = true) →
    exec (row c) s =
      .next (landIns c (rowEnv s c r) i r (m (rowEnv s c r) i (startIns (rowEnv s c r) i r)) s)

/-- A := f A B C on BIT operands; `tb` and `tc` say whether B and C are used, `ra` whether A is read. -/
def bitOp (tb tc : Option Ty) (ra : Bool) (f : Bool → Bool → Bool → Bool) : Env → Ins → X → X :=
  insAlu .bit tb tc ra fun _ a b c => (if f (a != 0) (b != 0) (c != 0) then 1 else 0, 0)

/-- A := f B C on WORD operands, with the sticky conditions. -/
def wordOp (f : W24 → W24 → W24 × Sticky) : Env → Ins → X → X :=
  insAlu .word (some .word) (some .word) false fun _ _ b c =>
    let r := f (b.setWidth 24) (c.setWidth 24)
    (r.1.setWidth 48, r.2)

/-- A := f B on WORD operands, with the sticky conditions. -/
def wordOp1 (f : W24 → W24 × Sticky) : Env → Ins → X → X :=
  insAlu .word (some .word) none false fun _ _ b _ =>
    let r := f (b.setWidth 24)
    (r.1.setWidth 48, r.2)

/-- A (a LONG) := f B C on WORD operands. -/
def wideOp (f : W24 → W24 → L48) : Env → Ins → X → X :=
  insAlu .long (some .word) (some .word) false fun _ _ b c => (f (b.setWidth 24) (c.setWidth 24), 0)

/-- A (a BIT) := 1 where p B C holds of the WORD operands, else 0. -/
def cmpOp (p : W24 → W24 → Bool) : Env → Ins → X → X :=
  insAlu .bit (some .word) (some .word) false fun _ _ b c =>
    (if p (b.setWidth 24) (c.setWidth 24) then 1 else 0, 0)

/-- A := f B C on LONG operands, with the sticky conditions. -/
def longOp (f : L48 → L48 → L48 × Sticky) : Env → Ins → X → X :=
  insAlu .long (some .long) (some .long) false fun _ _ b c => f b c

/-- A := f B on LONG operands, with the sticky conditions. -/
def longOp1 (f : L48 → L48 × Sticky) : Env → Ins → X → X :=
  insAlu .long (some .long) none false fun _ _ b _ => f b

/-- A (a LONG) := B (a LONG) shifted by C (a WORD read as unsigned). -/
def longShift (f : L48 → Nat → L48) : Env → Ins → X → X :=
  insAlu .long (some .long) (some .word) false fun _ _ b c => (f b c.toNat, 0)

/-- The least and the greatest signed number of w bits. -/
def minS (w : Nat) : BitVec w := BitVec.intMin w
/-- The greatest signed number of w bits. -/
def maxS (w : Nat) : BitVec w := BitVec.intMax w

/-- OVF (TSW bit 4) where the condition holds. -/
def ovfIf (p : Bool) : Sticky := if p then 16 else 0
/-- RANGE (TSW bit 0) where the condition holds. -/
def rangeIf (p : Bool) : Sticky := if p then 1 else 0

/-- B + C, wrapped (R209, R210). -/
def addOf {w : Nat} (b c : BitVec w) : BitVec w × Sticky := (b + c, ovfIf (b.saddOverflow c))
/-- B − C, wrapped. -/
def subOf {w : Nat} (b c : BitVec w) : BitVec w × Sticky := (b - c, ovfIf (b.ssubOverflow c))
/-- An integer held within the signed range of w bits. -/
def clampTo (w : Nat) (n : Int) : BitVec w :=
  BitVec.ofInt w (max (-(2 ^ (w - 1))) (min (2 ^ (w - 1) - 1) n))
/-- B + C, saturated. -/
def addSatOf {w : Nat} (b c : BitVec w) : BitVec w × Sticky := (clampTo w (b.toInt + c.toInt), 0)
/-- B − C, saturated. -/
def subSatOf {w : Nat} (b c : BitVec w) : BitVec w × Sticky := (clampTo w (b.toInt - c.toInt), 0)
/-- −B. -/
def negOf {w : Nat} (b : BitVec w) : BitVec w × Sticky := (-b, ovfIf (b == minS w))
/-- The magnitude of B. -/
def absOf {w : Nat} (b : BitVec w) : BitVec w × Sticky := (if b.msb then -b else b, ovfIf (b == minS w))
/-- The low half of the signed product. -/
def mulOf {w : Nat} (b c : BitVec w) : BitVec w × Sticky := (b * c, ovfIf (b.smulOverflow c))
/-- The signed quotient, truncated toward zero (R209, R210). -/
def divOf {w : Nat} (b c : BitVec w) : BitVec w × Sticky :=
  if c = 0 then (if b = 0 then 0 else if b.msb then minS w else maxS w, 8)
  else (b.sdiv c, ovfIf (b == minS w && c == BitVec.allOnes w))
/-- The signed remainder, with the sign of B. -/
def remOf {w : Nat} (b c : BitVec w) : BitVec w × Sticky :=
  if c = 0 then (b, 8) else (b.srem c, ovfIf (b == minS w && c == BitVec.allOnes w))
/-- The unsigned quotient. -/
def divuOf {w : Nat} (b c : BitVec w) : BitVec w × Sticky :=
  if c = 0 then (if b = 0 then 0 else BitVec.allOnes w, 8) else (b / c, 0)
/-- The unsigned remainder. -/
def remuOf {w : Nat} (b c : BitVec w) : BitVec w × Sticky :=
  if c = 0 then (b, 8) else (b % c, 0)

/-- The condition of CMPL under a SUBOP (R213). -/
def cmplOf (sub : Nat) (b c : L48) : Bool :=
  match sub with
  | 0 => b == c | 1 => b != c | 2 => b.slt c | 3 => b.sle c | 4 => c.slt b | 5 => c.sle b
  | 6 => b.ult c | 7 => b.ule c | 8 => c.ult b | 9 => c.ule b | _ => false

/-- The word and the bit that a run reads at an address: its newest journal entry, else its task's view (R128). -/
def peekWord (env : Env) (x : X) (n : Nat) : W24 := (jWord n x.run.journal).getD (env.vWord n)
/-- The bit that a run reads at an address. -/
def peekBit (env : Env) (x : X) (n : Nat) : Bool := (jBit n x.run.journal).getD (env.vBit n)

/-- Whether writing a result of a type to a location writes word n. -/
def storesWord (ty : Ty) (l : Loc) (n : Nat) : Bool :=
  match l with
  | .word a a2 => n == wordA a || ((ty == .long || ty == .real) && n == wordA a2)
  | .wbit a _ => n == wordA a
  | _ => false
/-- Whether it writes bit n. -/
def storesBit (l : Loc) (n : Nat) : Bool :=
  match l with
  | .bit a => n == bitA a
  | _ => false
/-- Whether it writes scratch register n. -/
def storesReg (ty : Ty) (l : Loc) (n : Nat) : Bool :=
  match l with
  | .reg k => n == k % 16 || ((ty == .long || ty == .real) && n == (k + 1) % 16)
  | _ => false
/-- Whether forming an operand steps scratch register n (AINC, ADEC). -/
def stepsReg (o : Opnd) (n : Nat) : Bool :=
  (o.mode == 0x0C || o.mode == 0x0D) && n == o.p1.toNat / 2 ^ 20

/-- What an instruction may change of a run: its registers, read map, journal and recorded miss; nothing else. -/
def SameButData (r r' : Run) : Prop :=
  r' = { r with regs := r'.regs, readMap := r'.readMap, journal := r'.journal, miss := r'.miss }

/-- Control and bit rows, each with its opcode. -/
def bitRows : List ((Nat → Instr) × Nat) :=
  [(.nop, 0x00), (.repi, 0x01), (.repn, 0x02), (.chk, 0x03), (.trap, 0x05), (.movsr, 0x06), (.settsw, 0x07), (.setb, 0x08),
   (.clrb, 0x09), (.movb, 0x0A), (.notb, 0x0B), (.andb, 0x0C), (.orb, 0x0D), (.xorb, 0x0E), (.nandb, 0x0F), (.norb, 0x10),
   (.xnorb, 0x11), (.andnb, 0x12), (.ornb, 0x13), (.rise, 0x14), (.fall, 0x15), (.sr, 0x16), (.rs, 0x17), (.tglb, 0x18)]

/-- WORD rows, each with its opcode. -/
def wordRows : List ((Nat → Instr) × Nat) :=
  [(.mov, 0x20), (.add, 0x21), (.sub, 0x22), (.adds, 0x23), (.subs, 0x24), (.neg, 0x25), (.abs, 0x26), (.mul, 0x27),
   (.mull, 0x28), (.mullu, 0x29), (.div, 0x2A), (.rem, 0x2B), (.divu, 0x2C), (.remu, 0x2D), (.and, 0x2E), (.or, 0x2F),
   (.xor, 0x30), (.not, 0x31), (.shl, 0x32), (.shr, 0x33), (.sar, 0x34), (.rol, 0x35), (.ror, 0x36), (.min, 0x37),
   (.max, 0x38), (.limit, 0x39), (.cmpeq, 0x40), (.cmpne, 0x41), (.cmplt, 0x42), (.cmple, 0x43), (.cmpgt, 0x44),
   (.cmpge, 0x45), (.cmpltu, 0x46), (.cmpleu, 0x47), (.cmpgtu, 0x48), (.cmpgeu, 0x49)]

/-- LONG rows, each with its opcode. -/
def longRows : List ((Nat → Instr) × Nat) :=
  [(.movl, 0x50), (.addl, 0x51), (.subl, 0x52), (.addsl, 0x53), (.subsl, 0x54), (.negl, 0x55), (.lmul, 0x56), (.divl, 0x57),
   (.reml, 0x58), (.shll, 0x59), (.shrl, 0x5A), (.sarl, 0x5B), (.cmpl, 0x5C), (.andl, 0x5D), (.orl, 0x5E), (.xorl, 0x5F)]

/-- REAL48, block, flow, timer and counter rows, each with its opcode. -/
def realFlowRows : List ((Nat → Instr) × Nat) :=
  [(.movf, 0x60), (.addf, 0x61), (.subf, 0x62), (.mulf, 0x63), (.divf, 0x64), (.negf, 0x65), (.absf, 0x66), (.sqrtf, 0x67),
   (.minf, 0x68), (.maxf, 0x69), (.cmpf, 0x6A), (.roundf, 0x6B), (.truncf, 0x6C), (.movblk, 0x70), (.fill, 0x71),
   (.scan, 0x72), (.lookup, 0x73), (.pids, 0x74), (.movblkb, 0x75), (.fillb, 0x76), (.jmp, 0x80), (.bz, 0x81), (.bnz, 0x82),
   (.call, 0x83), (.ret, 0x84), (.segend, 0x85), (.ton, 0x90), (.tof, 0x91), (.tp, 0x92), (.tonr, 0x93), (.ctu, 0x94),
   (.ctd, 0x95), (.elt, 0x96), (.tod, 0x97)]

/-- Conversion rows, each with its opcode. -/
def convertRows : List ((Nat → Instr) × Nat) :=
  [(.cvtwf, 0xA0), (.cvtuf, 0xA1), (.cvtlf, 0xA2), (.cvtfw, 0xA3), (.cvtfl, 0xA4), (.trnfw, 0xA5), (.trnfl, 0xA6),
   (.sxwl, 0xA7), (.zxwl, 0xA8), (.cvtlw, 0xA9), (.bcdw, 0xAA), (.wbcd, 0xAB)]

/-- The rows of the speculative instructions of the opcode map, each with its opcode: every one but CAST, DEPRD, DEPWR, MSGSND
(serial), and the customer and reserved opcodes. -/
def speculativeRows : List ((Nat → Instr) × Nat) := bitRows ++ wordRows ++ longRows ++ realFlowRows ++ convertRows

/-- A := f B C on REAL48 operands, with the sticky conditions. -/
def realOp (f : L48 → L48 → L48 × Sticky) : Env → Ins → X → X :=
  insAlu .real (some .real) (some .real) false fun _ _ b c => f b c
/-- A (of type ta) := f B (of type tb), with the sticky conditions. -/
def unaryOp (ta tb : Ty) (f : L48 → L48 × Sticky) : Env → Ins → X → X :=
  insAlu ta (some tb) none false fun _ _ b _ => f b

/-- q × 2^k is (n / d) × 2^e rounded to a 37-bit significand, ties to even (R173). -/
def NearestQuotient37 (n d : Nat) (e : Int) (q : Nat) (k : Int) : Prop :=
  let x := n * 2 ^ (e - min k e).toNat
  let u := d * 2 ^ (k - min k e).toNat
  2 ^ 36 ≤ q ∧ q < 2 ^ 37 ∧ 2 * (q * u) ≤ 2 * x + u ∧ 2 * x ≤ 2 * (q * u) + u ∧
  (2 * (q * u) = 2 * x + u ∨ 2 * x = 2 * (q * u) + u → q % 2 = 0)

/-- q × 2^k is the square root of m × 2^e rounded to a 37-bit significand (R173); no root of 37 bits lies half-way between two. -/
def NearestRoot37 (m : Nat) (e : Int) (q : Nat) (k : Int) : Prop :=
  let x := 4 * (m * 2 ^ (e - min (2 * k) e).toNat)
  let u := 2 ^ (2 * k - min (2 * k) e).toNat
  2 ^ 36 ≤ q ∧ q < 2 ^ 37 ∧ (2 * q - 1) ^ 2 * u ≤ x ∧ x ≤ (2 * q + 1) ^ 2 * u

/-- r is the REAL48 result of the rounded value (−1)^neg × q × 2^k: below 2^−1022 a zero of its sign, above the largest finite value an
infinity of its sign with OVF (R173). -/
def Packs37 (neg : Bool) (q : Nat) (k : Int) (r : L48 × Sticky) : Prop :=
  if k + 36 < -1022 then r = (if neg then 0x800000000000 else 0, 0)
  else if k + 36 > 1023 then r = (if neg then 0xFFF000000000 else 0x7FF000000000, 16)
  else realVal r.1 = .fin neg q k ∧ r.2 = 0

/-- q × 2^k is m × 2^e rounded to a 37-bit significand, ties to even (R173). -/
def Nearest37 (m : Nat) (e : Int) (q : Nat) (k : Int) : Prop :=
  2 ^ 36 ≤ q ∧ q < 2 ^ 37 ∧
  if k ≤ e then q = m * 2 ^ (e - k).toNat
  else
    let d := 2 ^ (k - e).toNat
    2 * (q * d) ≤ 2 * m + d ∧ 2 * m ≤ 2 * (q * d) + d ∧
    (2 * (q * d) = 2 * m + d ∨ 2 * m = 2 * (q * d) + d → q % 2 = 0)

/-- The value of LOOKUP at x = v in a table of n pairs (R220). -/
def lookupValue (n : Nat) (xs ys : Nat → Int) (v : Int) : Int :=
  if n = 0 then 0
  else if v < xs 0 then ys 0
  else match (List.range (n - 1)).find? fun i => decide (xs i ≤ v ∧ v < xs (i + 1)) with
    | some i => ys i + roundHalfAway ((v - xs i) * (ys (i + 1) - ys i)) (xs (i + 1) - xs i)
    | none => ys (n - 1)

/-- A FLAGS word with Q, RUN and INPREV as given and its other bits as they were (R230). -/
def flagWord (w : W24) (q run inPrev : Bool) : W24 :=
  (w &&& 0xFFFFF8) ||| (if q then 1 else 0) ||| (if run then 2 else 0) ||| (if inPrev then 4 else 0)

/-- What a timer finds: Q, RUN, INPREV, START, LT, PT and IN. -/
structure TimerIn where
  q      : Bool
  run    : Bool
  inPrev : Bool
  start  : L48
  lt     : L48
  pt     : L48
  inp    : Bool

/-- A timer that starts now, or ran already, has elapsed: LT − START ≥ PT modulo 2^48. -/
def TimerIn.elapsed (t : TimerIn) (begins : Bool) : Bool :=
  decide (t.pt.toNat ≤ (t.lt - if begins then t.lt else t.start).toNat)

/-- Q, RUN, INPREV after a step, and whether the step sets START to LT (R231). -/
structure TimerOut where
  q      : Bool
  run    : Bool
  inPrev : Bool
  starts : Bool

/-- TON (R231). -/
def tonOf (t : TimerIn) : TimerOut :=
  let begins := t.inp && !t.run && !t.q
  let runs := t.inp && (t.run || begins)
  let fires := runs && t.elapsed begins
  ⟨(t.inp && t.q) || fires, runs && !fires, t.inPrev, begins⟩
/-- TOF (R231). -/
def tofOf (t : TimerIn) : TimerOut :=
  let begins := !t.inp && t.q && !t.run
  let runs := !t.inp && (t.run || begins)
  let fires := runs && t.elapsed begins
  ⟨(t.inp || t.q) && !fires, runs && !fires, t.inPrev, begins⟩
/-- TP (R231). -/
def tpOf (t : TimerIn) : TimerOut :=
  let begins := !t.run && t.inp && !t.inPrev
  let fires := (t.run || begins) && t.elapsed begins
  ⟨(t.q || begins) && !fires, (t.run || begins) && !fires, t.inp, begins⟩

/-- The meaning of a timer instruction whose step is `f`: a 3-word record at A, IN = B, PT = C. -/
def timerOp (f : TimerIn → TimerOut) : Env → Ins → X → X := fun env i x =>
  let la := formOp env .word true i.a x
  let lb := formOp env .bit false i.b la.2
  let lc := formOp env .long false i.c lb.2
  let b := readLoc env .bit lb.1 lc.2
  let pt := readLoc env .long lc.1 b.2
  let w := readAt env (addrOf la.1) 0 pt.2
  let st := readLongAt env (addrOf la.1) 1 w.2
  let o := f ⟨w.1.getLsbD 0, w.1.getLsbD 1, w.1.getLsbD 2, st.1, env.lt, pt.1, b.1 != 0⟩
  let x := writeAt env (addrOf la.1) 0 (flagWord w.1 o.q o.run o.inPrev) st.2
  if o.starts then writeLongAt env (addrOf la.1) 1 env.lt x else x

/-- The meaning of a counter instruction: CV moves by `step` on a rising B, saturating; `q` compares CV with C. -/
def counterOp (step : Int) (q : W24 → W24 → Bool) : Env → Ins → X → X := fun env i x =>
  let la := formOp env .word true i.a x
  let lb := formOp env .bit false i.b la.2
  let lc := formOp env .word false i.c lb.2
  let b := readLoc env .bit lb.1 lc.2
  let c := readLoc env .word lc.1 b.2
  let w := readAt env (addrOf la.1) 0 c.2
  let v := readAt env (addrOf la.1) 1 w.2
  let rises := (b.1 != 0) && !w.1.getLsbD 2
  let cv := if rises then clampTo 24 (v.1.toInt + step) else v.1
  let x := writeAt env (addrOf la.1) 0 (flagWord w.1 (q cv (c.1.setWidth 24)) (w.1.getLsbD 1) (b.1 != 0)) v.2
  if rises then writeAt env (addrOf la.1) 1 cv x else x

/-- The meaning of a repeat prefix (R202 to R204, R142): the count is read from A, or is the saved REPC when the run resumes inside
the repetition. -/
def prefixOp (repn : Bool) : Env → Ins → X → X := fun env i x =>
  let nxt := decodeIns env.fetch i.next
  let illegal := (0x80 ≤ nxt.op && nxt.op ≤ 0x8F) || [0x01, 0x02, 0x03, 0x05].contains nxt.op
  if illegal then { x with run.pc := nxt.next, trap := some 0x010 }
  else
    let a := formOp env .word false i.a x
    let v := readLoc env .word a.1 a.2
    let n := if x.run.resumed then x.run.repc.toNat else v.1.toNat
    let x := if x.run.resumed then x else v.2
    let n := if repn then min n 256 else n
    let x := { x with run.resumed := false }
    if n = 0 then { x with run.pc := nxt.next, run.repc := 0 }
    else
      let asRepi := passedToSup env nxt.op || [0x77, 0x78, 0x79].contains nxt.op
      { x with run.pc := i.next, run.repc := BitVec.ofNat 24 n,
               run.rep := some ⟨i.pc, i.next, !repn || asRepi⟩ }

/-- The trap that an instruction raises: the one it raises itself, else the first of DIVZ, FDZ (enable TDZ, bit 9), FINV (TFINV,
bit 8) and OVF (TOVF, bit 10) that it produced and that is enabled (R233, R234). -/
def trapOf (tsw : W24) (x : X) : Option (BitVec 16) :=
  match x.trap with
  | some t => some t
  | none =>
    if x.raised.getLsbD 3 && tsw.getLsbD 9 then some 0x002
    else if x.raised.getLsbD 1 && tsw.getLsbD 9 then some 0x003
    else if x.raised.getLsbD 2 && tsw.getLsbD 8 then some 0x004
    else if x.raised.getLsbD 4 && tsw.getLsbD 10 then some 0x001
    else none

/-! ## Requests of the host -/

/-- The request and the opcode (R305 to R320) of a command row other than HELLO. -/
def requestOf (i : Instr) : Option (Req × BitVec 16) :=
  match i with
  | .authChallenge r _ _ _ => some (r, 0x0002) | .authProve r _ => some (r, 0x0003) | .bye r _ => some (r, 0x0004)
  | .sessionInfo r => some (r, 0x0005) | .unitInfo r => some (r, 0x0101) | .unitStatus r => some (r, 0x0102)
  | .basinMap r => some (r, 0x0103) | .startMode r _ => some (r, 0x0104) | .reset r _ => some (r, 0x0105)
  | .imgRead r _ _ _ => some (r, 0x0201) | .imgWrite r _ _ _ _ => some (r, 0x0202) | .imgLayout r => some (r, 0x0203)
  | .prgLoadOpen r => some (r, 0x0301) | .prgLoadBlock r _ _ => some (r, 0x0302) | .prgLoadClose r => some (r, 0x0303)
  | .prgInfo r => some (r, 0x0304) | .prgRead r _ _ _ _ => some (r, 0x0305) | .editOpen r => some (r, 0x0310)
  | .editBlock r _ _ => some (r, 0x0311) | .editClose r => some (r, 0x0312) | .editApply r _ => some (r, 0x0313)
  | .editAbort r => some (r, 0x0314) | .undoEdit r _ => some (r, 0x0315) | .editStatus r => some (r, 0x0316)
  | .run r _ => some (r, 0x0401) | .stop r => some (r, 0x0402) | .step r _ => some (r, 0x0403)
  | .taskEnable r _ => some (r, 0x0404) | .taskDisable r _ => some (r, 0x0405) | .taskTrigger r _ => some (r, 0x0406)
  | .taskRestart r _ => some (r, 0x0407) | .taskStatus r _ => some (r, 0x0408) | .runStatus r => some (r, 0x0409)
  | .timeGet r => some (r, 0x0501) | .timeSet r _ => some (r, 0x0502) | .wakeSet r _ => some (r, 0x0503)
  | .pwronRelease r => some (r, 0x0504) | .depotRead r _ _ => some (r, 0x0601) | .depotWrite r _ _ => some (r, 0x0602)
  | .depotStatus r => some (r, 0x0603) | .logRead r _ _ _ => some (r, 0x0701) | .logFreeze r _ => some (r, 0x0702)
  | .logStatus r => some (r, 0x0703) | .noticeSubscribe r _ => some (r, 0x0704) | .updBegin r _ _ => some (r, 0x0801)
  | .updBlock r _ _ _ => some (r, 0x0802) | .updVerify r _ => some (r, 0x0803) | .updActivate r _ => some (r, 0x0804)
  | .updConfirm r => some (r, 0x0805) | .updReject r => some (r, 0x0806) | .updStatus r => some (r, 0x0807)
  | .updManifest r _ => some (r, 0x0808) | .pairStatus r => some (r, 0x0901) | .pairSwitchover r => some (r, 0x0902)
  | .pairResync r => some (r, 0x0903) | .featureConfig r _ _ _ => some (r, 0x0A01) | .featureEnable r _ _ => some (r, 0x0A02)
  | .featureDisable r _ _ => some (r, 0x0A03) | .featureStatus r _ _ => some (r, 0x0A04) | .resQuery r => some (r, 0x0A05)
  | .dioStatus r => some (r, 0x0B01) | .dioConfig r _ => some (r, 0x0B02) | .safStatus r => some (r, 0x0B03)
  | .castNow r _ => some (r, 0x0C01) | .castArm r => some (r, 0x0C02) | .castRead r _ _ _ => some (r, 0x0C03)
  | .regRead r _ _ => some (r, 0x0D01) | .regWrite r _ _ _ => some (r, 0x0D02) | .ident r => some (r, 0x0E01)
  | .attest r _ => some (r, 0x0E02) | .certRead r _ _ => some (r, 0x0E03) | .keyEnrol r _ _ _ _ => some (r, 0x0E04)
  | .keyRemove r _ => some (r, 0x0E05) | .keyList r => some (r, 0x0E06)
  | _ => none

/-- Session x of the request's port can take request r of opcode op now, and its path leads to a unit of this module: the module
answers, start-up has ended, the session is open at the request's version, the SEQ is new and in the window, the reply cache has
room, the command is permitted, and nothing else waits to be executed or answered (R54, R275, R293, R294, R304). `c` is how the
command reaches the unit. -/
structure Quiet (s : State) (x : Session) (r : Req) (op : BitVec 16) (i : Instr) (c : Ctx) : Prop where
  answers : portAnswers s r.ep = true
  started : s.sys.boot = .ready
  session : sessionOf s r.ep = some x
  tagged  : guardedSession x = true → r.auth = true ∧ inWindow x r.seq = true
  counts  : seqPasses x r.seq = false
  fresh   : x.cache.find? (·.seq = r.seq) = none
  room    : x.cache.length < 64
  version : x.mgmt = false ∧ r.major = x.major ∧ r.minor = x.minor
  rights  : (x.proved = true → permitted x.role.toNat op.toNat = true) ∧
            (x.proved = false → x.ep = .usb ∨ freeSet op.toNat = true)
  single  : r.bcast = false
  place   : placeRequest r op.toNat s = .unit c.kind c.idx c.unit
  reached : c.whom = .session r.ep ∧ c.basin = (inBasin s && decide (r.ep ≠ .usb))
  known   : known r op.toNat c.kind = true
  here    : sendsOn c.kind r i s = none
  idle    : s.host.sessions.all (fun y => y.waiting.isNone && y.queue.isEmpty) = true
  calm    : s.host.remote = [] ∧ s.depot.waiters = []

/-- The session after it has admitted the request (R294). -/
def admitTo (r : Req) (op : BitVec 16) (i : Instr) (x : Session) (s : State) : State :=
  updSession r.ep (fun y => { noteSeq r.seq y with
    cache := x.cache ++ [{ seq := r.seq, req := r, opcode := op, reply := none }], queue := y.queue ++ [(r, op, .inr i)] }) s

/-- The state in which the command acts: the request is admitted and counted. -/
def taken (r : Req) (op : BitVec 16) (i : Instr) (x : Session) (s : State) : State :=
  let t := updSession r.ep (fun y => { y with queue := [] }) (admitTo r op i x s)
  { t with sys.cmdCount := satInc t.sys.cmdCount }

/-- What else can go on after an answer does: at most n replies and requests that wait, then a reset or a sleep that was accepted. -/
def goOn (n : Nat) (s : State) : State :=
  let t := settleN n s
  actAfterReply { t with pas.gathers := t.pas.gathers.filter fun g => awaited t g.tag }

/-- Command i completes whenever its session is quiet and `P` holds of the state in which it acts: it answers `f`, a state with a
status and parameters (`ok`), or with a reply that waits (`later`), and then what else can go on does. -/
def Serves (i : Instr) (P : Ctx → State → Prop) (f : Ctx → State → Ans) : Prop :=
  ∀ s x r op c, requestOf i = some (r, op) → Quiet s x r op i c → P c (taken r op i x s) →
    exec i s = .next (goOn (settleBound (admitTo r op i x s) - 1)
      (conclude (.session r.ep) r op (f c (taken r op i x s))))

/-- The tick at which a command accepted now acts: the next one, or the one after it where the next is the tick of a switchover that
this active partner makes (R110, R390). -/
def actsAt (s : State) : Tick :=
  let leaves := match s.red.switchAt with | some u => reached u (s.tsk.tick + 1).toNat | none => false
  if s.red.role = 1 ∧ leaves = true then s.tsk.tick + 2 else s.tsk.tick + 1

/-- The bytes of a tick count in a reply: a basin tick for a member of a basin, except on USB (R340). -/
def tickBytes (c : Ctx) (s : State) (t : Tick) : List Byte := beBytes 6 (if c.basin then t + s.pas.ofs else t).toNat

/-- A tick count of the parameters as the module's own tick (R340). -/
def ownTick (c : Ctx) (s : State) (t : Tick) : Tick := if c.basin then t - s.pas.ofs else t

/-- The command is not one that a single partner of a running pair refuses (R110, R269). -/
def PartnerFree (c : Ctx) (s : State) : Prop := ¬ (c.kind = 1 ∧ s.red.role ≠ 0 ∧ pairRuns s = true)

/-! ## States of the module -/

/-- The indices of a table rise, as every operation of `Tab` keeps them. -/
def Rising {α : Type} (t : Tab α) : Prop := t.Pairwise fun a b => a.1 < b.1

/-- The addressed memories of the module hold their canonical form: the images, the latches of the inputs, the copies of the outputs
and the depot. -/
def Memory.wf (s : State) : Bool :=
  Tab.wf false s.tsk.bits && Tab.wf 0 s.tsk.words && Tab.wf false s.tsk.inBits && Tab.wf 0 s.tsk.inWords &&
  Tab.wf false s.tsk.outBits && Tab.wf 0 s.tsk.outWords && Tab.wf 0 s.depot.bytes

/-- A module of the ring, as the records of this one hold it (R323). -/
def ringModule (s : State) (m : Nat) (part : Bool) : RingModule := moduleOf (Tab.get {} s.pas.memb m) part

/-- Nothing waits to be executed or answered. -/
def Calm (s : State) : Prop :=
  s.host.sessions.all (fun y => y.waiting.isNone && y.queue.isEmpty) = true ∧ s.host.remote = [] ∧ s.depot.waiters = [] ∧
  s.pas.gathers = [] ∧ s.host.resetDue = false ∧ s.host.sleepDue = false

/-- The view of task n in t is its view in s with the writes of journal j, newest first (R89, R130). -/
def ViewTakes (s t : State) (n : Nat) (j : List JEntry) : Prop :=
  (∀ a, viewBit t n a = (jBit a j).getD (viewBit s n a)) ∧ (∀ a, viewWord t n a = (jWord a j).getD (viewWord s n a))

/-- A pass ring frame of a type is taken (R329, R330, R338): the by-pass is open, its link carries the type, its CRC is right, it comes
from another module, it is the first copy, and it is addressed to this one. -/
structure HeardRing (type : Nat) (ack : Bool) (payload : List Byte) (h : RingHdr) (s : State) : Prop where
  bypass  : s.pas.bypass = false
  carried : linkCarries s h type ack payload = true
  crc     : h.crcOk = true
  other   : ownFrame s h = false
  listed  : h.other = none
  first   : s.pas.seen.contains (srcByte h, type, h.seq) = false
  mine    : forMe s h = true

/-- The frame is counted and goes on with the payload `out`, and is noted, so that a later copy of it is discarded (R327, R329). -/
def noted (type : Nat) (ack : Bool) (out : List Byte) (h : RingHdr) (s : State) : State := noteFrame type h (passOn type ack out h s)

/-- A frame of the sync link is taken by a module that presumes nothing (R50, R372): `mgmt` says that a link in management-only mode
carries it. -/
structure HeardSync (mgmt : Bool) (h : SyncHdr) (s : State) : Prop where
  pair    : s.red.pairEn = true
  runs    : supRuns s = true
  up      : s.red.syncUp = true
  crc     : h.crcOk = true
  other   : h.src ≠ s.sys.partner
  carried : s.red.syncMgmt = true → mgmt = true
  calm    : s.red.presuming = false

/-- A frame of the HB pair is taken by a module that presumes nothing (R372). -/
structure HeardHb (h : SyncHdr) (s : State) : Prop where
  pair  : s.red.pairEn = true
  runs  : supRuns s = true
  step  : fromStep6 s = true
  crc   : h.crcOk = true
  other : h.src ≠ s.sys.partner
  calm  : s.red.presuming = false

/-- A frame on the path that `sync` names is taken. -/
def HeardOn (sync mgmt : Bool) (h : SyncHdr) (s : State) : Prop := if sync then HeardSync mgmt h s else HeardHb h s

/-- A frame of the sync link, or of the HB pair, as this module sends it in one piece (R372, R373). -/
def syncFrame (hb : Bool) (type : Nat) (payload : List Byte) (s : State) : Sent :=
  .sync hb (syncBytes type s.red.syncVer.toNat (if s.sys.partner then 1 else 0) false s.tsk.tick.toNat payload)

/-- Both pass links are up at a common major version and the by-pass is open: a frame leaves on its own ring (R325, R328, R338). -/
structure WholeRing (s : State) : Prop where
  bypass : s.pas.bypass = false
  east   : s.pas.eUp = true ∧ s.pas.eMgmt = false
  west   : s.pas.wUp = true ∧ s.pas.wMgmt = false

/-- A frame for all, as this module sends it on a ring (R329, R330). -/
def ringFrame (east : Bool) (type tick : Nat) (payload : List Byte) (s : State) : Sent :=
  .ring east (ringBytes {
    type := type, ver := 16 + s.pas.minor.toNat,
    src := (if s.red.pairEn && s.sys.partner then 128 else 0) + s.sys.ringId.toNat, dst := 0xFF, hops := 0, east := east, more := false,
    wrapped := false, ack := false, tick := tick, seq := (Tab.get 0 s.pas.seqs type).toNat, payload := payload })

/-- The other partner is alive (R379). -/
def alive (s : State) : State := { s with red.peerFrame := s.tsk.tick.toNat }

/-- The command's parameters have a layout that the manual gives: all but the settings blocks of the features whose blocks it does not
lay out byte by byte, and a block that belongs to another feature. -/
def laidOut (i : Instr) : Bool :=
  match i with
  | .featureConfig _ code _ st =>
    match st with
    | .plGroups _ | .plNodes _ | .plClear | .plKind _ => code = 0x11
    | .timebase .. => code = 0x20
    | .castPin _ => code = 0x21
    | .empty => code = 0x24
    | .gpio .. => code = 0x25
    | _ => false
  | _ => true

/-- The limits of the watchdog (R485): PERIOD is 33 to 2^21 clocks and WOPEN at least 1, as configured, in the window that runs and as
stored, and in that window WOPEN and the count C stay within PERIOD. -/
structure WatchdogLimits (s : State) : Prop where
  period : 33 ≤ s.bkd.period.toNat ∧ s.bkd.period.toNat ≤ 2097152
  wopen  : 1 ≤ s.bkd.wopen.toNat
  now    : 33 ≤ s.bkd.periodNow.toNat ∧ s.bkd.periodNow.toNat ≤ 2097152
  opens  : 1 ≤ s.bkd.wopenNow.toNat ∧ s.bkd.wopenNow.toNat ≤ s.bkd.periodNow.toNat
  count  : s.bkd.c.toNat ≤ s.bkd.periodNow.toNat
  gen0   : 33 ≤ s.upd.gen0.wdtPeriod.toNat ∧ s.upd.gen0.wdtPeriod.toNat ≤ 2097152 ∧ 1 ≤ s.upd.gen0.wdtWopen.toNat
  gen1   : 33 ≤ s.upd.gen1.wdtPeriod.toNat ∧ s.upd.gen1.wdtPeriod.toNat ≤ 2097152 ∧ 1 ≤ s.upd.gen1.wdtWopen.toNat

/-- The value that the host writes `ws` give bit point a, the last of them first; addresses wrap (R90, R175). -/
def bitWritten (ws : List HostWrite) (a : Nat) : Option Bool :=
  ws.foldl (fun m w => ((if w.word ∨ 2 ^ 22 ≤ a then none else
    w.vals[(a + 2 ^ 22 - w.addr.toNat % 2 ^ 22) % 2 ^ 22]?).map fun v => decide (v ≠ 0)).or m) none

/-- The same for word a of the word image and data memory. -/
def wordWritten (ws : List HostWrite) (a : Nat) : Option W24 :=
  ws.foldl (fun m w => (if w.word = false ∨ 2 ^ 21 ≤ a then none else
    w.vals[(a + 2 ^ 21 - w.addr.toNat % 2 ^ 21) % 2 ^ 21]?).or m) none

/-- A module alone comes to a tick edge at which no task holds a release, none is released, and nothing but host writes and the latch
changes the image: no STOP, no edit, no directive. -/
structure EdgeQuiet (s : State) : Prop where
  awake   : s.sys.asleep = false
  ready   : s.sys.boot = .ready
  alone   : s.red.role = 0 ∧ s.red.switchAt = none ∧ s.red.owed = false ∧ s.red.dirsOwed = false
  unheld  : ∀ n, released (task s n) = false
  stays   : s.tsk.mode = .stop ∧ s.tsk.steps = [] ∧ s.tsk.runAt = none ∧ stopsAt (s.tsk.tick + 1) s = false
  program : s.prog.edit = .none ∧ s.prog.owned = []
  memory  : Memory.wf s = true

/-- The image after a tick edge with the host writes of s: each INPUT point takes its input buffer, a host write stands over that and
over what was committed, and the OUTPUT points go to the output buffers (R84, R87, R88, R90). -/
def EdgeImage (s t : State) : Prop :=
  (∀ a, Tab.get false t.tsk.bits a = (bitWritten s.tsk.writes a).getD
    (if isInput (bitRegion s a) then Tab.get false t.tsk.inBits a else Tab.get false s.tsk.bits a)) ∧
  (∀ a, Tab.get 0 t.tsk.words a = (wordWritten s.tsk.writes a).getD
    (if isInput (wordRegion s a) then Tab.get 0 t.tsk.inWords a else Tab.get 0 s.tsk.words a)) ∧
  (∀ a, Tab.get false t.tsk.outBits a = if isOutput (bitRegion s a) then Tab.get false t.tsk.bits a else false) ∧
  (∀ a, Tab.get 0 t.tsk.outWords a = if isOutput (wordRegion s a) then Tab.get 0 t.tsk.words a else 0)

/-- A port has no further work: no message and no transaction waits (R225, R417). -/
def PortIdle (s : State) (q : Nat) : Prop := (ser s q).queue = [] ∧ (ser s q).due = [] ∧ (ser s q).txQueue = []

end Sys2Proof.Safety
end

