-- ==== Sys2Proof/Certificates/Slice0/Obligations.lean ====
section
/-! DEFINITION. The statements about the module for the provers. Each docstring says what is stated and the rule of spec/ it
comes from. -/

open Sys2Proof Sys2Proof.Machine Sys2Proof.Safety

/-! ## Scan cores: the instructions of SWM -/

/-- R192: an instruction forms the addresses of its used operands in the order A, B, C, then reads its sources (in the order B, C, A, the
model's choice: log entry 18), then computes and applies its conditions, then writes A. (Model's choices where the manual leaves a point
open: log entry 18.) -/
def Obligations.FourStepsInOrder : Prop :=
  ∀ (ta tb tc : Ty) (f : Nat → L48 → L48 → L48 → L48 × Sticky) (env : Env) (i : Ins) (x : X),
    let a1 := formOp env ta false i.a x
    let b1 := formOp env tb false i.b a1.2
    let c1 := formOp env tc false i.c b1.2
    let b2 := readLoc env tb b1.1 c1.2
    let c2 := readLoc env tc c1.1 b2.2
    let a2 := readLoc env ta a1.1 c2.2
    let r := f i.sub a2.1 b2.1 c2.1
    insAlu ta (some tb) (some tc) true f env i x =
      writeLoc env ta a1.1 r.1 { a2.2 with raised := a2.2.raised ||| r.2 }

/-- R207, R208: the bit logic group. Each row completes, and A takes the value of the table; RISE and FALL write A and then
C := B. No condition is raised. -/
def Obligations.BitLogicResults : Prop :=
  Executes .setb 0x08 (bitOp none none false fun _ _ _ => true) ∧
  Executes .clrb 0x09 (bitOp none none false fun _ _ _ => false) ∧
  Executes .movb 0x0A (bitOp (some .bit) none false fun _ b _ => b) ∧
  Executes .notb 0x0B (bitOp (some .bit) none false fun _ b _ => !b) ∧
  Executes .andb 0x0C (bitOp (some .bit) (some .bit) false fun _ b c => b && c) ∧
  Executes .orb 0x0D (bitOp (some .bit) (some .bit) false fun _ b c => b || c) ∧
  Executes .xorb 0x0E (bitOp (some .bit) (some .bit) false fun _ b c => xor b c) ∧
  Executes .nandb 0x0F (bitOp (some .bit) (some .bit) false fun _ b c => !(b && c)) ∧
  Executes .norb 0x10 (bitOp (some .bit) (some .bit) false fun _ b c => !(b || c)) ∧
  Executes .xnorb 0x11 (bitOp (some .bit) (some .bit) false fun _ b c => !(xor b c)) ∧
  Executes .andnb 0x12 (bitOp (some .bit) (some .bit) false fun _ b c => b && !c) ∧
  Executes .ornb 0x13 (bitOp (some .bit) (some .bit) false fun _ b c => b || !c) ∧
  Executes .sr 0x16 (bitOp (some .bit) (some .bit) true fun a b c => b || (a && !c)) ∧
  Executes .rs 0x17 (bitOp (some .bit) (some .bit) true fun a b c => !c && (a || b)) ∧
  Executes .tglb 0x18 (bitOp none none true fun a _ _ => !a) ∧
  (∀ rise : Bool, Executes (if rise then .rise else .fall) (if rise then 0x14 else 0x15) fun env i x =>
    let a1 := formOp env .bit false i.a x
    let b1 := formOp env .bit false i.b a1.2
    let c1 := formOp env .bit false i.c b1.2
    let x1 := (readLoc env .bit a1.1 c1.2).2
    let b2 := readLoc env .bit b1.1 x1
    let c2 := readLoc env .bit c1.1 b2.2
    let v := if rise then (b2.1 != 0) && !(c2.1 != 0) else (c2.1 != 0) && !(b2.1 != 0)
    writeLoc env .bit c1.1 b2.1 (writeLoc env .bit a1.1 (if v then 1 else 0) c2.2))

/-- R209, R210: the WORD group. Each row completes; sums, differences and products wrap, OVF is raised on signed overflow of the
exact result, DIVZ on division by 0 with the results of R210, and shifts by 24 or more have shifted every bit out. -/
def Obligations.WordResults : Prop :=
  Executes .mov 0x20 (wordOp1 fun b => (b, 0)) ∧
  Executes .add 0x21 (wordOp addOf) ∧ Executes .sub 0x22 (wordOp subOf) ∧
  Executes .adds 0x23 (wordOp addSatOf) ∧ Executes .subs 0x24 (wordOp subSatOf) ∧
  Executes .neg 0x25 (wordOp1 negOf) ∧ Executes .abs 0x26 (wordOp1 absOf) ∧
  Executes .mul 0x27 (wordOp mulOf) ∧
  Executes .mull 0x28 (wideOp fun b c => b.signExtend 48 * c.signExtend 48) ∧
  Executes .mullu 0x29 (wideOp fun b c => b.setWidth 48 * c.setWidth 48) ∧
  Executes .div 0x2A (wordOp divOf) ∧ Executes .rem 0x2B (wordOp remOf) ∧
  Executes .divu 0x2C (wordOp divuOf) ∧ Executes .remu 0x2D (wordOp remuOf) ∧
  Executes .and 0x2E (wordOp fun b c => (b &&& c, 0)) ∧ Executes .or 0x2F (wordOp fun b c => (b ||| c, 0)) ∧
  Executes .xor 0x30 (wordOp fun b c => (b ^^^ c, 0)) ∧ Executes .not 0x31 (wordOp1 fun b => (~~~b, 0)) ∧
  Executes .shl 0x32 (wordOp fun b c => (b <<< c.toNat, 0)) ∧
  Executes .shr 0x33 (wordOp fun b c => (b >>> c.toNat, 0)) ∧
  Executes .sar 0x34 (wordOp fun b c => (b.sshiftRight c.toNat, 0)) ∧
  Executes .rol 0x35 (wordOp fun b c => (b.rotateLeft (c.toNat % 24), 0)) ∧
  Executes .ror 0x36 (wordOp fun b c => (b.rotateRight (c.toNat % 24), 0)) ∧
  Executes .min 0x37 (wordOp fun b c => (if b.slt c then b else c, 0)) ∧
  Executes .max 0x38 (wordOp fun b c => (if b.slt c then c else b, 0)) ∧
  Executes .limit 0x39 (insAlu .word (some .word) (some .word) true fun _ a b c =>
    let a : W24 := a.setWidth 24
    let b : W24 := b.setWidth 24
    let c : W24 := c.setWidth 24
    let m := if a.slt b then b else a
    ((if m.slt c then m else c).setWidth 48, 0))

/-- R211: the WORD compares write 1 to the BIT operand A where the condition holds, otherwise 0, and raise nothing. -/
def Obligations.WordCompares : Prop :=
  Executes .cmpeq 0x40 (cmpOp fun b c => b == c) ∧ Executes .cmpne 0x41 (cmpOp fun b c => b != c) ∧
  Executes .cmplt 0x42 (cmpOp fun b c => b.slt c) ∧ Executes .cmple 0x43 (cmpOp fun b c => b.sle c) ∧
  Executes .cmpgt 0x44 (cmpOp fun b c => c.slt b) ∧ Executes .cmpge 0x45 (cmpOp fun b c => c.sle b) ∧
  Executes .cmpltu 0x46 (cmpOp fun b c => decide (b.toNat < c.toNat)) ∧
  Executes .cmpleu 0x47 (cmpOp fun b c => decide (b.toNat ≤ c.toNat)) ∧
  Executes .cmpgtu 0x48 (cmpOp fun b c => decide (b.toNat > c.toNat)) ∧
  Executes .cmpgeu 0x49 (cmpOp fun b c => decide (b.toNat ≥ c.toNat))

/-- R212, R213: the LONG group, with the rules of the WORD group at 48 bits. -/
def Obligations.LongResults : Prop :=
  Executes .movl 0x50 (longOp1 fun b => (b, 0)) ∧
  Executes .addl 0x51 (longOp addOf) ∧ Executes .subl 0x52 (longOp subOf) ∧
  Executes .addsl 0x53 (longOp addSatOf) ∧ Executes .subsl 0x54 (longOp subSatOf) ∧
  Executes .negl 0x55 (longOp1 negOf) ∧ Executes .lmul 0x56 (longOp mulOf) ∧
  Executes .divl 0x57 (longOp divOf) ∧ Executes .reml 0x58 (longOp remOf) ∧
  Executes .shll 0x59 (longShift fun b n => b <<< n) ∧ Executes .shrl 0x5A (longShift fun b n => b >>> n) ∧
  Executes .sarl 0x5B (longShift fun b n => b.sshiftRight n) ∧
  Executes .cmpl 0x5C (insAlu .bit (some .long) (some .long) false fun sub _ b c =>
    (if cmplOf sub b c then 1 else 0, 0)) ∧
  Executes .andl 0x5D (longOp fun b c => (b &&& c, 0)) ∧ Executes .orl 0x5E (longOp fun b c => (b ||| c, 0)) ∧
  Executes .xorl 0x5F (longOp fun b c => (b ^^^ c, 0))

/-- R214: the REAL48 group. Each row completes on every core at which its instruction stands; A takes the result of the
operation on the operands as R172 reads them (the statements RealRounded and RealSpecialResults say what it
is). -/
def Obligations.RealRows : Prop :=
  Executes .movf 0x60 (unaryOp .real .real realCanon) ∧
  Executes .addf 0x61 (realOp realAdd) ∧ Executes .subf 0x62 (realOp realSub) ∧
  Executes .mulf 0x63 (realOp realMul) ∧ Executes .divf 0x64 (realOp realDiv) ∧
  Executes .negf 0x65 (unaryOp .real .real realNeg) ∧ Executes .absf 0x66 (unaryOp .real .real realAbs) ∧
  Executes .sqrtf 0x67 (unaryOp .real .real realSqrt) ∧
  Executes .minf 0x68 (realOp realMin) ∧ Executes .maxf 0x69 (realOp realMax) ∧
  Executes .cmpf 0x6A (insAlu .bit (some .real) (some .real) false fun sub _ b c =>
    (if (realCompare sub b c).1 then 1 else 0, (realCompare sub b c).2)) ∧
  Executes .roundf 0x6B (unaryOp .real .real (realIntegral false)) ∧
  Executes .truncf 0x6C (unaryOp .real .real (realIntegral true))

/-- R172, R173, R215: of finite operands, the results of ADDF, SUBF, MULF, DIVF and SQRTF are the exact result rounded once to a 37-bit
significand, ties to even, with an unbounded exponent; below 2^−1022 the result is a zero of its sign, above the largest finite value an
infinity of its sign with OVF. A sum or difference that is exactly 0 is +0, but for the sum of two negative zeros; a zero product or
quotient has the XOR of the signs, and the root of a zero is that zero. -/
def Obligations.RealRounded : Prop :=
  (∀ (neg : Bool) (m : Nat) (e : Int), m ≠ 0 → ∃ q k, Nearest37 m e q k ∧ Packs37 neg q k (realRound neg m e false)) ∧
  (∀ (neg sticky : Bool) (e : Int), realRound neg 0 e sticky = (if neg then 0x800000000000 else 0, 0)) ∧
  (∀ b c nb mb eb nc mc ec, realVal b = .fin nb mb eb → realVal c = .fin nc mc ec →
    realMul b c = realRound (xor nb nc) (mb * mc) (eb + ec) false) ∧
  (∀ b c nb mb eb nc mc ec, realVal b = .fin nb mb eb → realVal c = .fin nc mc ec → mb ≠ 0 → mc ≠ 0 →
    let e := min eb ec
    let n : Int := (if nb then -1 else 1) * mb * 2 ^ (eb - e).toNat + (if nc then -1 else 1) * mc * 2 ^ (ec - e).toNat
    realAdd b c = if n = 0 then (0, 0) else realRound (decide (n < 0)) n.natAbs e false) ∧
  (∀ b c nb mb eb nc mc ec, realVal b = .fin nb mb eb → realVal c = .fin nc mc ec → mb ≠ 0 → mc ≠ 0 →
    let e := min eb ec
    let n : Int := (if nb then -1 else 1) * mb * 2 ^ (eb - e).toNat - (if nc then -1 else 1) * mc * 2 ^ (ec - e).toNat
    realSub b c = if n = 0 then (0, 0) else realRound (decide (n < 0)) n.natAbs e false) ∧
  (∀ b c nb eb nc ec, realVal b = .fin nb 0 eb → realVal c = .fin nc 0 ec →
    realAdd b c = (if nb && nc then 0x800000000000 else 0, 0) ∧ realSub b c = (if nb && !nc then 0x800000000000 else 0, 0)) ∧
  (∀ b c nb eb nc mc ec, realVal b = .fin nb 0 eb → realVal c = .fin nc mc ec → mc ≠ 0 →
    realAdd b c = realRound nc mc ec false ∧ realAdd c b = realRound nc mc ec false ∧
    realSub b c = realRound (!nc) mc ec false ∧ realSub c b = realRound nc mc ec false ∧
    realDiv b c = (if xor nb nc then 0x800000000000 else 0, 0)) ∧
  (∀ b c nb mb eb nc mc ec, realVal b = .fin nb mb eb → realVal c = .fin nc mc ec → mb ≠ 0 → mc ≠ 0 →
    ∃ q k, NearestQuotient37 mb mc (eb - ec) q k ∧ Packs37 (xor nb nc) q k (realDiv b c)) ∧
  (∀ b m e, realVal b = .fin false m e → m ≠ 0 → ∃ q k, NearestRoot37 m e q k ∧ Packs37 false q k (realSqrt b)) ∧
  (∀ b neg e, realVal b = .fin neg 0 e → realSqrt b = (if neg then 0x800000000000 else 0, 0))

/-- R174, R215: the special results of the REAL48 group. Every result that is NaN is the canonical NaN, whatever NaN the operands were;
a compare treats −0 as +0, and with a NaN operand writes 0, or 1 for not-equal. FINV is bit 2 of TSW, FDZ bit 1. -/
def Obligations.RealSpecialResults : Prop :=
  let nan : L48 × Sticky := (0x7FF800000000, 4)
  let inf (neg : Bool) : L48 := if neg then 0xFFF000000000 else 0x7FF000000000
  let zero (neg : Bool) : L48 := if neg then 0x800000000000 else 0
  (∀ b c, realVal b = .nan ∨ realVal c = .nan →
    realAdd b c = nan ∧ realSub b c = nan ∧ realMul b c = nan ∧ realDiv b c = nan ∧ realMin b c = nan ∧
    realMax b c = nan ∧ ∀ sub, realCompare sub b c = (sub == 1, 4)) ∧
  (∀ b, realVal b = .nan → realCanon b = nan ∧ realNeg b = nan ∧ realAbs b = nan ∧ realSqrt b = nan ∧
    realIntegral false b = nan ∧ realIntegral true b = nan) ∧
  (∀ neg, realAdd (inf neg) (inf !neg) = nan ∧ realSub (inf neg) (inf neg) = nan) ∧
  (∀ b c nb eb nc, realVal b = .fin nb 0 eb → realVal c = .inf nc → realMul b c = nan ∧ realMul c b = nan) ∧
  (∀ b c nb eb nc ec, realVal b = .fin nb 0 eb → realVal c = .fin nc 0 ec → realDiv b c = nan) ∧
  (∀ b c nb nc, realVal b = .inf nb → realVal c = .inf nc → realDiv b c = nan) ∧
  (∀ b c nb mb eb nc ec, realVal b = .fin nb mb eb → mb ≠ 0 → realVal c = .fin nc 0 ec →
    realDiv b c = (inf (xor nb nc), 2)) ∧
  (∀ b c nb mb eb nc, realVal b = .fin nb mb eb → realVal c = .inf nc → realDiv b c = (zero (xor nb nc), 0)) ∧
  (∀ b m e, realVal b = .fin true m e → m ≠ 0 → realSqrt b = nan) ∧
  realSqrt 0xFFF000000000 = nan ∧ realSqrt 0x800000000000 = (0x800000000000, 0) ∧
  (∀ b c, ∀ r ∈ [realAdd b c, realSub b c, realMul b c, realDiv b c, realMin b c, realMax b c, realCanon b, realNeg b, realAbs b,
    realSqrt b, realIntegral false b, realIntegral true b], realVal r.1 = .nan → r.1 = 0x7FF800000000) ∧
  (∀ sub b, realCompare sub 0x800000000000 b = realCompare sub 0 b ∧ realCompare sub b 0x800000000000 = realCompare sub b 0)

/-- R216: the conversion group. Each row completes, with its operand types.
Conversions to an integer round to nearest, ties to even, or truncate toward zero; they saturate at the limits of the destination and
convert a NaN to 0, both with RANGE; −0 converts to 0 with no
bit; and a WORD or a LONG of at most 37 significant bits converts to REAL48 and back unchanged, rounded or truncated. -/
def Obligations.ConversionRows : Prop :=
  Executes .cvtwf 0xA0 (unaryOp .real .word fun b => (realOfInt (b.setWidth 24 : W24).toInt, 0)) ∧
  Executes .cvtuf 0xA1 (unaryOp .real .word fun b => (realOfInt ((b.setWidth 24 : W24).toNat : Int), 0)) ∧
  Executes .cvtlf 0xA2 (unaryOp .real .long fun b => (realOfInt b.toInt, 0)) ∧
  Executes .cvtfw 0xA3 (unaryOp .word .real (realToInt false 24)) ∧
  Executes .cvtfl 0xA4 (unaryOp .long .real (realToInt false 48)) ∧
  Executes .trnfw 0xA5 (unaryOp .word .real (realToInt true 24)) ∧
  Executes .trnfl 0xA6 (unaryOp .long .real (realToInt true 48)) ∧
  Executes .sxwl 0xA7 (unaryOp .long .word fun b => ((b.setWidth 24 : W24).signExtend 48, 0)) ∧
  Executes .zxwl 0xA8 (unaryOp .long .word fun b => (b, 0)) ∧
  Executes .cvtlw 0xA9 (unaryOp .word .long fun b =>
    ((clampTo 24 b.toInt).setWidth 48, rangeIf (decide (b.toInt < -8388608 ∨ 8388607 < b.toInt)))) ∧
  Executes .bcdw 0xAA (unaryOp .word .word fun b =>
    let n := b.toNat % 2 ^ 24
    let d (k : Nat) := n / 16 ^ k % 16
    if [d 0, d 1, d 2, d 3, d 4, d 5].any (9 < ·) then (0, 1)
    else (BitVec.ofNat 48 (d 0 + 10 * d 1 + 100 * d 2 + 1000 * d 3 + 10000 * d 4 + 100000 * d 5), 0)) ∧
  Executes .wbcd 0xAB (unaryOp .word .word fun b =>
    let n := (b.setWidth 24 : W24).toInt
    if n < 0 then (0, 1)
    else if n > 999999 then (0x999999, 1)
    else
      let d (k : Nat) := n.toNat / 10 ^ k % 10
      (BitVec.ofNat 48 (d 0 + 16 * d 1 + 256 * d 2 + 4096 * d 3 + 65536 * d 4 + 1048576 * d 5), 0)) ∧
  (∀ (t : Bool) (w : Nat) (b : L48), realVal b = .nan → realToInt t w b = (0, 1)) ∧
  (∀ t : Bool, realToInt t 24 0x7FF000000000 = (0x7FFFFF, 1) ∧ realToInt t 24 0xFFF000000000 = (0xFFFFFF800000, 1) ∧
    realToInt t 48 0x7FF000000000 = (0x7FFFFFFFFFFF, 1) ∧ realToInt t 48 0xFFF000000000 = (0x800000000000, 1) ∧
    realToInt t 24 0x800000000000 = (0, 0) ∧ realToInt t 48 0x800000000000 = (0, 0)) ∧
  (∀ (t : Bool) (w : Nat) (b : L48) (neg : Bool) (m : Nat) (e : Int), realVal b = .fin neg m e → 0 ≤ e →
    let n : Int := (if neg then -1 else 1) * (m * 2 ^ e.toNat : Nat)
    realToInt t w b =
      (BitVec.ofInt 48 (max (-(2 ^ (w - 1))) (min (2 ^ (w - 1) - 1) n)),
       rangeIf (decide (n < -(2 ^ (w - 1)) ∨ 2 ^ (w - 1) - 1 < n)))) ∧
  (∀ (t : Bool) (w : Nat) (b : L48) (neg : Bool) (m : Nat) (e : Int), realVal b = .fin neg m e → e < 0 →
    let p := 2 ^ (-e).toNat
    ∃ i : Nat, (if t then i = m / p
        else 2 * (i * p) ≤ 2 * m + p ∧ 2 * m ≤ 2 * (i * p) + p ∧ (2 * (i * p) = 2 * m + p ∨ 2 * m = 2 * (i * p) + p → i % 2 = 0)) ∧
      let n : Int := (if neg then -1 else 1) * i
      realToInt t w b =
        (BitVec.ofInt 48 (max (-(2 ^ (w - 1))) (min (2 ^ (w - 1) - 1) n)),
         rangeIf (decide (n < -(2 ^ (w - 1)) ∨ 2 ^ (w - 1) - 1 < n)))) ∧
  (∀ (t : Bool) (b : L48), b.toInt.natAbs < 2 ^ 37 → realToInt t 48 (realOfInt b.toInt) = (b, 0)) ∧
  (∀ (t : Bool) (b : W24), realToInt t 24 (realOfInt b.toInt) = (b.signExtend 48, 0))

/-- R218 to R222, R196: the block and table group. Each row completes: address operands give the addresses, counts act as at most
256, and every source element is read before any is written; PIDS writes nothing to the record when an operation gives a NaN.
(Model's choices where the manual leaves a point open: log entry 21.) -/
def Obligations.BlockRows : Prop :=
  Executes .movblk 0x70 (fun env i x =>
    let la := formOp env .word true i.a x
    let lb := formOp env .word true i.b la.2
    let lc := formOp env .word false i.c lb.2
    let n := readLoc env .word lc.1 lc.2
    let ws := readWords env (addrOf lb.1) 0 (min n.1.toNat 256) n.2
    writeWords env (addrOf la.1) 0 ws.1 ws.2) ∧
  Executes .fill 0x71 (fun env i x =>
    let la := formOp env .word true i.a x
    let lb := formOp env .word false i.b la.2
    let lc := formOp env .word false i.c lb.2
    let v := readLoc env .word lb.1 lc.2
    let n := readLoc env .word lc.1 v.2
    writeWords env (addrOf la.1) 0 (List.replicate (min n.1.toNat 256) (v.1.setWidth 24)) n.2) ∧
  Executes .scan 0x72 (fun env i x =>
    let la := formOp env .word false i.a x
    let lb := formOp env .word true i.b la.2
    let lc := formOp env .word false i.c lb.2
    let v := readLoc env .word lc.1 lc.2
    let n := readAt env (addrOf lb.1) 0 v.2
    let r := scanTable env (addrOf lb.1) (v.1.setWidth 24) 0 (min n.1.toNat 4096) n.2
    writeLoc env .word la.1 (r.1.setWidth 48) r.2) ∧
  Executes .lookup 0x73 (fun env i x =>
    let la := formOp env .word false i.a x
    let lb := formOp env .word true i.b la.2
    let lc := formOp env .word false i.c lb.2
    let v := readLoc env .word lc.1 lc.2
    let w := readAt env (addrOf lb.1) 0 v.2
    let n := min w.1.toNat 256
    let x0 : W24 := v.1.setWidth 24
    let p := readPair env (addrOf lb.1) 0 w.2
    let r := lookupFrom env (addrOf lb.1) x0.toInt 0 p.1.1 p.1.2 (n - 1) p.2
    let o : Int × X := if n = 0 then (0, w.2) else if x0.toInt < p.1.1 then (p.1.2, p.2) else r
    writeLoc env .word la.1 ((BitVec.ofInt 24 o.1).setWidth 48) o.2) ∧
  Executes .pids 0x74 (fun env i x =>
    let la := formOp env .word true i.a x
    let lb := formOp env .real false i.b la.2
    let lc := formOp env .real false i.c lb.2
    let b := readLoc env .real lb.1 lc.2
    let c := readLoc env .real lc.1 b.2
    let rec' := readWords env (addrOf la.1) 0 17 c.2
    let f (k : Nat) : L48 := (rec'.1.getD k 0) ++ (rec'.1.getD (k + 1) 0)
    let ctrl := rec'.1.getD 16 0
    let pv := if realVal b.1 = .nan then b.1 else (realCanon b.1).1
    let r := pidStep (f 0) (f 2) (f 4) (f 6) (f 8) (f 10) (if ctrl.getLsbD 2 then pv else f 12) (f 14) pv c.1
      (ctrl.getLsbD 0) (ctrl.getLsbD 1)
    let x := rec'.2
    if r.nan then { x with raised := x.raised ||| (r.st &&& 16) ||| 4 }
    else
      let x := { x with raised := x.raised ||| r.st }
      let x := writeLongAt env (addrOf la.1) 10 r.i x
      let x := writeLongAt env (addrOf la.1) 12 pv x
      let x := if ctrl.getLsbD 0 then x else writeLongAt env (addrOf la.1) 14 r.out x
      if ctrl.getLsbD 2 then writeAt env (addrOf la.1) 16 (ctrl &&& 0xFFFFFB) x else x) ∧
  Executes .movblkb 0x75 (fun env i x =>
    let la := formOp env .bit true i.a x
    let lb := formOp env .bit true i.b la.2
    let lc := formOp env .word false i.c lb.2
    let n := readLoc env .word lc.1 lc.2
    let bs := readBits env (addrOf lb.1) 0 (min n.1.toNat 256) n.2
    writeBits env (addrOf la.1) 0 bs.1 bs.2) ∧
  Executes .fillb 0x76 (fun env i x =>
    let la := formOp env .bit true i.a x
    let lb := formOp env .bit false i.b la.2
    let lc := formOp env .word false i.c lb.2
    let v := readLoc env .bit lb.1 lc.2
    let n := readLoc env .word lc.1 v.2
    writeBits env (addrOf la.1) 0 (List.replicate (min n.1.toNat 256) (v.1 != 0)) n.2)

/-- R219, R220: a block copy of words or of bits writes to element A + k what element B + k held before the copy, whether or not the
blocks overlap, and leaves every other point as it was; a block of 0 elements reads and writes nothing. SCAN finds the first equal entry, and LOOKUP the value
that the table gives at x, from the pairs as they stand. -/
def Obligations.BlockCopyAndSearch : Prop :=
  (∀ (env : Env) (a b : W24) (n : Nat) (x : X), n ≤ 256 →
    let r := readWords env (some b) 0 n x
    let y := writeWords env (some a) 0 r.1 r.2
    (∀ k < n, peekWord env y (wordA (a + BitVec.ofNat 24 k)) = peekWord env x (wordA (b + BitVec.ofNat 24 k))) ∧
    (∀ m, (∀ k < n, m ≠ wordA (a + BitVec.ofNat 24 k)) → peekWord env y m = peekWord env x m) ∧
    (∀ m, peekBit env y m = peekBit env x m) ∧ (n = 0 → y = x)) ∧
  (∀ (env : Env) (a b : W24) (n : Nat) (x : X), n ≤ 256 →
    let r := readBits env (some b) 0 n x
    let y := writeBits env (some a) 0 r.1 r.2
    (∀ k < n, peekBit env y (bitA (a + BitVec.ofNat 24 k)) = peekBit env x (bitA (b + BitVec.ofNat 24 k))) ∧
    (∀ m, (∀ k < n, m ≠ bitA (a + BitVec.ofNat 24 k)) → peekBit env y m = peekBit env x m) ∧
    (∀ m, peekWord env y m = peekWord env x m) ∧ (n = 0 → y = x)) ∧
  (∀ (env : Env) (b v : W24) (n : Nat) (x : X), n ≤ 4096 →
    let e (k : Nat) := peekWord env x (wordA (b + BitVec.ofNat 24 (1 + k)))
    let r := (scanTable env (some b) v 0 n x).1
    (r.toNat < n ∧ e r.toNat = v ∧ ∀ j < r.toNat, e j ≠ v) ∨ (r = 0xFFFFFF ∧ ∀ j < n, e j ≠ v)) ∧
  (∀ (env : Env) (b : W24) (v : Int) (n : Nat) (x : X), 0 < n → n ≤ 256 →
    let xs (k : Nat) := (peekWord env x (wordA (b + BitVec.ofNat 24 (1 + 2 * k)))).toInt
    let ys (k : Nat) := (peekWord env x (wordA (b + BitVec.ofNat 24 (2 + 2 * k)))).toInt
    let p := readPair env (some b) 0 x
    (if v < p.1.1 then p.1.2 else (lookupFrom env (some b) v 0 p.1.1 p.1.2 (n - 1) p.2).1) = lookupValue n xs ys v)

/-- R199 to R204, R227, R228: the control, repeat and flow rows. Each completes, with the PC, REPC, call stack, TSW or special register
that the rule gives; MOVSR of a code that names no special register writes the 0 as a WORD (the model's choice: log entry 219). (Model's
choices where the manual leaves a point open: log entry 219.) -/
def Obligations.FlowRows : Prop :=
  Executes .nop 0x00 (fun _ _ x => x) ∧
  Executes .repi 0x01 (prefixOp false) ∧ Executes .repn 0x02 (prefixOp true) ∧
  Executes .chk 0x03 (fun _ _ x => { x with run.chk := true }) ∧
  Executes .trap 0x05 (fun env i x =>
    let la := formOp env .word false i.a x
    let a := readLoc env .word la.1 la.2
    { a.2 with trap := some (0x100 + (a.1.setWidth 8).setWidth 16) }) ∧
  Executes .movsr 0x06 (fun env i x =>
    let ty : Ty := if i.sub = 3 then .long else .word
    let la := formOp env ty false i.a x
    let v : L48 :=
      if i.sub = 0 then i.pc.setWidth 48 else if i.sub = 1 then la.2.run.repc.setWidth 48
      else if i.sub = 2 then la.2.run.tsw.setWidth 48 else if i.sub = 3 then env.lt
      else if i.sub = 4 then BitVec.ofNat 48 la.2.run.task else if i.sub = 5 then BitVec.ofNat 48 la.2.run.seg
      else if i.sub = 6 then BitVec.ofNat 48 env.core else 0
    writeLoc env ty la.1 v la.2) ∧
  Executes .settsw 0x07 (fun env i x =>
    let la := formOp env .word false i.a x
    let a := readLoc env .word la.1 la.2
    { a.2 with run.tsw := a.1.setWidth 24 &&& 0x00071F }) ∧
  Executes .jmp 0x80 (fun env i x =>
    let la := formOp env .word false i.a x
    let a := readLoc env .word la.1 la.2
    { a.2 with run.pc := a.1.setWidth 21 }) ∧
  (∀ z : Bool, Executes (if z then .bz else .bnz) (if z then 0x81 else 0x82) fun env i x =>
    let la := formOp env .word false i.a x
    let lb := formOp env .word false i.b la.2
    let a := readLoc env .word la.1 lb.2
    let b := readLoc env .word lb.1 a.2
    if (a.1 == 0) = z then { b.2 with run.pc := b.1.setWidth 21 } else b.2) ∧
  Executes .call 0x83 (fun env i x =>
    let la := formOp env .word false i.a x
    let a := readLoc env .word la.1 la.2
    if a.2.run.stack.length < 32 then { a.2 with run.stack := i.next :: a.2.run.stack, run.pc := a.1.setWidth 21 }
    else { a.2 with trap := some 0x012 }) ∧
  Executes .ret 0x84 (fun _ i x =>
    match x.run.stack with
    | p :: q => { x with run.pc := p, run.stack := q }
    | [] => { x with run.ended := true, run.pc := i.pc }) ∧
  Executes .segend 0x85 (fun _ i x => { x with run.ended := true, run.pc := i.pc })

/-- R229 to R232: the timer, counter and time-of-day rows. Each completes, and its record takes the values of the steps of R231; TOD with
a code outside its table writes its 0 as a WORD (the model's choice: log entry 221). (Model's choices where the manual leaves a point
open: log entries 2, 221.) -/
def Obligations.TimerRows : Prop :=
  Executes .ton 0x90 (timerOp tonOf) ∧ Executes .tof 0x91 (timerOp tofOf) ∧ Executes .tp 0x92 (timerOp tpOf) ∧
  Executes .tonr 0x93 (fun env i x =>
    let la := formOp env .word true i.a x
    let lb := formOp env .bit false i.b la.2
    let lc := formOp env .long false i.c lb.2
    let b := readLoc env .bit lb.1 lc.2
    let pt := readLoc env .long lc.1 b.2
    let w := readAt env (addrOf la.1) 0 pt.2
    let acc := readLongAt env (addrOf la.1) 1 w.2
    let last := readLongAt env (addrOf la.1) 3 acc.2
    let on := (b.1 != 0) && w.1.getLsbD 2
    let sum := acc.1.toNat + (env.lt - last.1).toNat
    let v : L48 := if on then BitVec.ofNat 48 (min sum (2 ^ 48 - 1)) else acc.1
    let x := writeAt env (addrOf la.1) 0 (flagWord w.1 (decide (pt.1.toNat ≤ v.toNat)) (w.1.getLsbD 1) (b.1 != 0)) last.2
    writeLongAt env (addrOf la.1) 3 env.lt (if on then writeLongAt env (addrOf la.1) 1 v x else x)) ∧
  Executes .ctu 0x94 (counterOp 1 fun cv c => c.sle cv) ∧
  Executes .ctd 0x95 (counterOp (-1) fun cv _ => cv.sle 0) ∧
  Executes .elt 0x96 (fun env i x =>
    let la := formOp env .long false i.a x
    let lb := formOp env .word true i.b la.2
    let w := readAt env (addrOf lb.1) 0 lb.2
    let st := readLongAt env (addrOf lb.1) 1 w.2
    writeLoc env .long la.1 (if w.1.getLsbD 1 then env.lt - st.1 else 0) st.2) ∧
  Executes .tod 0x97 (fun env i x =>
    let ty : Ty := if i.sub = 0 then .long else .word
    let la := formOp env ty false i.a x
    let t := env.tod.toNat % 2 ^ 47
    let sec := t / 2 ^ 15
    let day := calendar (sec / 86400)
    let v : Nat :=
      if i.sub = 0 then t
      else if i.sub = 1 then (day.1 - 2000) * 65536 + day.2.1 * 256 + day.2.2
      else if i.sub = 2 then sec / 3600 % 24 * 65536 + sec / 60 % 60 * 256 + sec % 60
      else if i.sub = 3 then ((sec / 86400 + 5) % 7 + 1) * 2 ^ 21 + (t % 2 ^ 15) * 1000 / 2 ^ 15
      else if i.sub = 4 then env.todFlags.toNat else 0
    writeLoc env ty la.1 (BitVec.ofNat 48 v) la.2)

/-- R223 to R225, R200: the serial rows complete in direct mode: DEPRD writes the 86 words of the page and the count of its
uncorrectable groups, DEPWR, MSGSND and CAST hand the page write, the message and the trigger to the module; and a run that is
not in direct mode stalls before them (R137). A page write that finds no place in the queue makes the core wait and does nothing yet;
otherwise the page write enters the queue, or is lost after the power-fail warning; a message is queued, or closed as not sent (3) or,
with eight queued, as dropped (4), and one to a number above 5 goes nowhere; the trigger takes the cast copies or, while a cast is held,
counts a miss. (Model's choices where the manual leaves a point open: log entries 46, 123, 171, 206, 244.) -/
def Obligations.SerialRows : Prop :=
  Executes .cast 0x04 (fun _ _ x => { x with outs := x.outs ++ [.cast] }) ∧
  Executes .deprd 0x77 (fun env i x =>
    let la := formOp env .word true i.a x
    let lb := formOp env .word false i.b la.2
    let lc := formOp env .word false i.c lb.2
    let b := readLoc env .word lb.1 lc.2
    let p := 512 + b.1.toNat % 512
    let x := writeWords env (addrOf la.1) 0 (words3 (padTo 258 (env.page p).1)) b.2
    writeLoc env .word lc.1 (BitVec.ofNat 48 (env.page p).2) { x with outs := x.outs ++ [.depRead p] }) ∧
  Executes .depwr 0x78 (fun env i x =>
    let la := formOp env .word false i.a x
    let lb := formOp env .word true i.b la.2
    let a := readLoc env .word la.1 lb.2
    let ws := readWords env (addrOf lb.1) 0 86 a.2
    { ws.2 with outs := ws.2.outs ++
        [.depWrite (512 + a.1.toNat % 512) ((ws.1.flatMap fun w => beBytes 3 w.toNat).take 256)] }) ∧
  Executes .msgsnd 0x79 (fun env i x =>
    let la := formOp env .word true i.a x
    let lb := formOp env .word false i.b la.2
    let q := readLoc env .word lb.1 lb.2
    let n := readAt env (addrOf la.1) 0 q.2
    let tag := readAt env (addrOf la.1) 1 n.2
    let ok := decide (1 ≤ n.1.toNat ∧ n.1.toNat ≤ 258)
    let ws := readWords env (addrOf la.1) 2 (if ok then (n.1.toNat + 2) / 3 else 0) tag.2
    { ws.2 with outs := ws.2.outs ++
        [.msg q.1.toNat tag.1 ((ws.1.flatMap fun w => beBytes 3 w.toNat).take n.1.toNat) ok] }) ∧
  (∀ c s r i row, (row, i.op) ∈ [(Instr.cast c, 0x04), (.deprd c, 0x77), (.depwr c, 0x78), (.msgsnd c, 0x79)] →
    AtIns s c r i → r.direct = false → exec row s = .next (putRun c { r with stalled := true } s)) ∧
  (∀ c env i r x s, r.direct = true →
    (x.outs.any (mustWait s c) = true →
      landIns c env i r x s = if s.depot.waiters.contains (.program c) then s else { s with depot.waiters := s.depot.waiters ++ [.program c] }) ∧
    (x.outs.any (mustWait s c) = false → slotsFit s r.task x.run.journal = true →
      landIns c env i r x s = x.outs.foldl (applyOut c) (landIns c env i r { x with outs := [] } s))) ∧
  (∀ c s p d, mustWait s c (.depWrite p d) = (!s.depot.pfail && !depotRoom s p (.program c))) ∧
  (∀ c s, s.cast.held = false → applyOut c s .cast = { s with
    cast.held := true, cast.trigAt := s.tsk.tick, cast.source := s.cast.source ||| 2, cast.count := satInc s.cast.count,
    cast.copies := (castCopies s).foldl (fun t e => Tab.set 0 t e.1 e.2) s.cast.copies, free := s.free + 1 }) ∧
  (∀ c s, s.cast.held = true → applyOut c s .cast = if sameSupEdge 1 s then { s with
    cast.source := s.cast.source ||| 2, free := s.free + 1 } else { s with
    cast.missed := satInc s.cast.missed, cast.missedTotal := satInc s.cast.missedTotal, free := s.free + 1 }) ∧
  (∀ c s p, (pageRead s p).2 = 0 → Tab.get 0 s.depot.wear p ≤ 1000000 →
    applyOut c s (.depRead p) = { s with depot.corrected := satAdd s.depot.corrected (badGroups (softGroups s p)) }) ∧
  (∀ c s p d, (s.depot.pfail = true → applyOut c s (.depWrite p d) = s) ∧
    (s.depot.pfail = false → replaces s p = false → applyOut c s (.depWrite p d) = { s with
      depot.queue := s.depot.queue ++ [{ page := p, data := d, srcs := [.program c] }], depot.busy := true,
      depot.waiters := s.depot.waiters.filter (· ≠ .program c) })) ∧
  (∀ c s q tag b ok, (6 ≤ q → applyOut c s (.msg q tag b ok) = s) ∧
    (q < 6 → ok = false ∨ takesMessages s q = false ∨ messageFits q b = false →
      applyOut c s (.msg q tag b ok) = updSer q (fun x => { x with closing := x.closing ++ [(⟨tag, b⟩, 3)] }) s) ∧
    (q < 6 → ok = true → takesMessages s q = true → messageFits q b = true →
      applyOut c s (.msg q tag b ok) = updSer q (fun x =>
        if (ser s q).queue.length < 8 then { x with queue := x.queue ++ [⟨tag, b⟩] } else { x with closing := x.closing ++ [(⟨tag, b⟩, 4)] }) s))

/-- R237, R239, R243: a reserved opcode without a valid decode entry is passed to the supervisor, last in its queue, and the core waits; a
customer opcode with a valid entry runs its microprogram; and the supervisor ends the pass at the head of its queue, with the emulation's
result where the firmware emulates the opcode, with RESERVED_OP where it does not; EMULATED_OP carries the opcode in one byte (the model's
choice: log entries 25, 249). (Model's choices where the manual leaves a point open: log entries 20, 25, 163, 249.) -/
def Obligations.PassedOpcodes : Prop :=
  (∀ c s r i, AtIns s c r i → passedToSup (rowEnv s c r) i.op = true →
    exec (.reservedOpcode c) s = .next { updCore c (fun k => { k with run := some { r with supWait := true } }) s with
      scan.supQueue := s.scan.supQueue ++ [c] }) ∧
  (∀ c s r i, AtIns s c r i → 0xE0 ≤ i.op → i.op ≤ 0xEF →
    ((rowEnv s c r).dec (i.op - 0xE0)).getLsbD 31 = true →
    exec (.customerOpcode c) s =
      .next (landIns c (rowEnv s c r) i r (insCustomer (rowEnv s c r) i (startIns (rowEnv s c r) i r)) s)) ∧
  (∀ c q s r, s.scan.supQueue = c :: q → (Machine.core s c).run = some r → r.supWait = true →
    let s1 := { s with scan.supQueue := q }
    let r1 := { r with supWait := false }
    let env := rowEnv s1 c r1
    let i := decodeIns env.fetch r1.pc
    serialOp i.op = false →
    (Config.emulates (supVersion s1) (BitVec.ofNat 8 i.op) = false →
      exec .supEmulationPass s =
        .next (landIns c env i r1 { startIns env i r1 with trap := some 0x011 } s1)) ∧
    (Config.emulates (supVersion s1) (BitVec.ofNat 8 i.op) = true → s.prog.emulSeen.contains i.op = true →
      exec .supEmulationPass s = .next (landIns c env i r1 (insEmulated env i (startIns env i r1)) s1)) ∧
    (Config.emulates (supVersion s1) (BitVec.ofNat 8 i.op) = true → s.prog.emulSeen.contains i.op = false →
      exec .supEmulationPass s = .next (landIns c env i r1 (insEmulated env i (startIns env i r1))
        (accession 0 0x0304 2 [BitVec.ofNat 8 i.op] { s1 with prog.emulSeen := i.op :: s.prog.emulSeen })))) ∧
  (∀ s, s.scan.supQueue = [] → exec .supEmulationPass s = .next s)

/-- R233 to R236: what follows an instruction. Its conditions join TSW; with the handler bit, the first trap in the order of R234
enters the handler as R235 lays down; without it, for CALL_DEPTH, and when the call stack is full, the run stops at the trap;
without a trap a repetition goes to its next iteration or ends (R202). -/
def Obligations.TrapsAndRepeats : Prop :=
  ∀ (env : Env) (i : Ins) (r : Run) (x : X), Rising x.run.regs →
    let tsw := x.run.tsw ||| x.raised.setWidth 24
    let t := afterIns env i r x
    let at_ := match r.rep with | some p => p.prefixPc | none => i.pc
    let left := if r.rep.isSome then r.repc.toNat - 1 else 0
    t.tsw = tsw ∧ t.journal = x.run.journal ∧ t.readMap = x.run.readMap ∧ t.task = x.run.task ∧ t.seg = x.run.seg ∧
    (∀ code v, trapOf tsw x = some code → env.handler = some v → code ≠ 0x012 → x.run.stack.length < 32 →
      t.pc = v ∧ t.repc = 0 ∧ t.rep = none ∧
      t.stack = (if code = 0x010 then x.run.pc else i.next) :: x.run.stack ∧
      Tab.get 0 t.regs 15 = code.setWidth 24 ∧ Tab.get 0 t.regs 14 = at_.setWidth 24 ∧
      Tab.get 0 t.regs 13 = BitVec.ofNat 24 left ∧ (∀ n < 13, Tab.get 0 t.regs n = Tab.get 0 x.run.regs n)) ∧
    (∀ code, trapOf tsw x = some code → (env.handler = none ∨ code = 0x012) →
      t.trap = some (code, at_) ∧ t.rep = none ∧ t.stack = x.run.stack ∧ t.regs = x.run.regs) ∧
    (∀ code, trapOf tsw x = some code → env.handler.isSome = true → code ≠ 0x012 → 32 ≤ x.run.stack.length →
      t.trap = some (0x012, at_) ∧ t.rep = none ∧ t.stack = x.run.stack ∧ t.regs = x.run.regs) ∧
    (trapOf tsw x = none →
      t.stack = x.run.stack ∧ t.regs = x.run.regs ∧
      match r.rep with
      | none => t.pc = x.run.pc ∧ t.repc = x.run.repc ∧ t.rep = x.run.rep ∧ t.icount = x.run.icount + 1
      | some p => t.repc = BitVec.ofNat 24 (r.repc.toNat - 1) ∧
          (if r.repc.toNat ≤ 1 then t.rep = none ∧ t.pc = x.run.pc else t.rep = x.run.rep ∧ t.pc = p.insPc))

/-- R128, R137, R138: what becomes of an instruction's writes. A speculative run keeps them in its journal, nothing but its core
changing; one that would need a 4,097th journal entry stalls before the instruction; a run in direct mode writes them to the view at
once and keeps none. -/
def Obligations.WritesLand : Prop :=
  ∀ c env i r x s, x.outs = [] →
    (r.direct = false → x.run.journal.length ≤ 4096 →
      landIns c env i r x s = putRun c (afterIns env i r x) s) ∧
    (r.direct = false → 4096 < x.run.journal.length →
      landIns c env i r x s = updCore c (fun k => { k with ovf := satInc k.ovf })
        (putRun c { r with stalled := true } s)) ∧
    (r.direct = true → slotsFit s r.task x.run.journal = true →
      landIns c env i r x s =
        updCore c (fun k => { k with instr := satAdd k.instr (afterIns env i r x).icount })
          (putRun c { afterIns env i r x with journal := [], icount := 0 }
            (commitJournal c r.task r.seg x.run.journal s))) ∧
    (r.direct = true → slotsFit s r.task x.run.journal = false → landIns c env i r x s = giveCluster (viewFull r.task s))

/-- R128, R175: a run reads back its own newest write, at every address that decodes to the same point, and a write leaves every
other point as it was. -/
def Obligations.ReadOwnWrites : Prop :=
  ∀ (env : Env) (x : X) (a b : W24),
    (∀ v : W24, (readWord env b (writeWord env a v x)).1 =
      if b.toNat % 2 ^ 21 = a.toNat % 2 ^ 21 then v else (readWord env b x).1) ∧
    (∀ v : Bool, (readBit env b (writeBit env a v x)).1 =
      if b.toNat % 2 ^ 22 = a.toNat % 2 ^ 22 then v else (readBit env b x).1) ∧
    (∀ v : Bool, (readWord env b (writeBit env a v x)).1 = (readWord env b x).1) ∧
    (∀ v : W24, (readBit env b (writeWord env a v x)).1 = (readBit env b x).1)

/-- R129, R153: a read that is served from the view marks its grain or data block in the read map; a pure run records as its first
miss a read outside its segment's catchments, an access to data memory and a write to an INPUT point, and the access takes effect
normally.
(Model's choices where the manual leaves a point open: log entries 18, 24.) -/
def Obligations.ReadMapAndMisses : Prop :=
  ∀ (env : Env) (x : X) (a : W24), env.pureRun = true → x.run.miss = none →
    let n := a.toNat % 2 ^ 21
    let m := a.toNat % 2 ^ 22
    (readWord env a x).2.run.miss =
      (if 2 ^ 20 ≤ n then some (2, 2, BitVec.ofNat 24 n)
       else if env.caught (65536 + n / 8) then none else some (1, 1, BitVec.ofNat 24 n)) ∧
    (readBit env a x).2.run.miss = (if env.caught (m / 64) then none else some (1, 0, BitVec.ofNat 24 m)) ∧
    (∀ v, (writeWord env a v x).run.miss =
      (if 2 ^ 20 ≤ n then some (2, 2, BitVec.ofNat 24 n)
       else if env.inWord n then some (3, 1, BitVec.ofNat 24 n) else none)) ∧
    (∀ v, (writeBit env a v x).run.miss = (if env.inBit m then some (3, 0, BitVec.ofNat 24 m) else none)) ∧
    (jWord n x.run.journal = none → 65536 + n / 8 ∈ (readWord env a x).2.run.readMap) ∧
    (jBit m x.run.journal = none → m / 64 ∈ (readBit env a x).2.run.readMap)

/-- R186, R188, R190, R198, R207 to R216: the frame of every instruction that computes A from its operands (bit logic, WORD, LONG,
REAL48, compares and conversions). It writes no word, bit or scratch register but those of its destination A and the registers that
AINC and ADEC step, and of the run nothing else but its read map, journal and first miss. -/
def Obligations.AluFrame : Prop :=
  ∀ (ta : Ty) (tb tc : Option Ty) (ra : Bool) (f : Nat → L48 → L48 → L48 → L48 × Sticky) (env : Env) (i : Ins) (x : X),
    let la := (formOp env ta false i.a x).1
    let y := insAlu ta tb tc ra f env i x
    (∀ n, storesWord ta la n = false → peekWord env y n = peekWord env x n) ∧
    (∀ n, storesBit la n = false → peekBit env y n = peekBit env x n) ∧
    (∀ n < 16, storesReg ta la n = false → stepsReg i.a n = false → (tb.isSome = true → stepsReg i.b n = false) →
      (tc.isSome = true → stepsReg i.c n = false) → Tab.get 0 y.run.regs n = Tab.get 0 x.run.regs n) ∧
    SameButData x.run y.run ∧ y.trap = x.trap ∧ y.outs = x.outs

/-- R128, R132: the frame of a speculative run. An instruction that a run outside direct mode executes changes nothing of the
module but the core that holds the run: not the view, the images, the tasks or any other core. -/
def Obligations.SpeculationTouchesOneCore : Prop :=
  ∀ e ∈ speculativeRows, ∀ c s r i, AtIns s c r i → i.op = e.2 → r.direct = false →
    ∃ k : Core, exec (e.1 c) s = .next { s with scan.cores := Tab.set {} s.scan.cores c k }

/-! ## Requests of the host -/

/-- R292 to R294, R304: a request of a quiet session to a unit of this module is admitted, counted and executed at once: the row
completes with the answer of the command at its unit, kept in the reply cache or waiting for what it names.
(Model's choices where the manual leaves a point open: log entry 125.) -/
def Obligations.RequestServed : Prop :=
  ∀ i s x r op c, requestOf i = some (r, op) → Quiet s x r op i c →
    exec i s = .next (goOn (settleBound (admitTo r op i x s) - 1)
      (conclude (.session r.ep) r op (runCmd c r.seq i (taken r op i x s))))

/-- R294, R298, R283, R305: an answer that waits for nothing goes into the reply cache of its session and out as reply packets; nothing of
the module but the host interface and its outputs changes, and no other session. A session that BYE ends is gone once the packets have
left, with its writes that wait for a place in the depot and with a freeze of the log that it set. (Model's choices where the manual leaves
a point open: log entry 143.) -/
def Obligations.AnswerGoesOut : Prop :=
  ∀ (ep : Endpoint) (r : Req) (op st : BitVec 16) (ps : List Byte) (s : State) (x : Session),
    sessionOf s ep = some x → r.ep = ep →
    let t := conclude (.session ep) r op (s, st, ps, none)
    (x.ending = false →
      (∃ y, sessionOf t ep = some y ∧ y.waiting = none ∧ y.queue = x.queue ∧
        y.cache = x.cache.map fun e => if e.seq = r.seq then { e with reply := some (st, ps) } else e) ∧
      t = { s with host := t.host, sent := t.sent }) ∧
    (x.ending = true → sessionOf t ep = none ∧
      t = { s with host := t.host, sent := t.sent,
                   depot.waiters := s.depot.waiters.filter fun w => (match w with | .host whom _ => decide (whom ≠ .session ep) | _ => true),
                   log := if s.log.freezer = some ep then { s.log with frozen := false, freezer := none, freezeEnd := 0 } else s.log }) ∧
    (∀ e, e ≠ ep → sessionOf t e = sessionOf s e) ∧
    (ep ≠ .spi → ∃ l, l ≠ [] ∧ t.sent = l ++ s.sent ∧ ∀ p ∈ l, ∃ b, p = .packet ep r.tag b) ∧
    (ep = .spi → t.sent = s.sent ∧ s.host.spiOut.length < t.host.spiOut.length)

/-- R290, R299: HELLO to the root or by the path of this module, which in a guarded session has passed the checks of its tag and its SEQ,
opens a session, with the highest version that both sides name, the lowest free index and the smaller packet limit; the session that the
endpoint held ends, and the reply is cached. Where no version is common the session has version 0.0 in management-only mode, and the reply
is ST_MGMT_ONLY. A list of another length, a packet limit below 512 and a fifth session over the host ports are refused, and the sessions
stay. (Model's choices where the manual leaves a point open: log entries 124, 126, 150.) -/
def Obligations.HelloOpensSession : Prop :=
  ∀ (r : Req) (n : Byte) (m : BitVec 16) (l : List VerRange) (s : State),
    portAnswers s r.ep = true → r.bcast = false →
    ((r.hops = [] ∧ r.ext = false) ∨ (r.hops ≠ [] ∧ ∃ idx, placeRequest r 1 s = .unit 1 idx none)) →
    (∀ x, sessionOf s r.ep = some x → x.cache.find? (·.seq = r.seq) = none ∧ seqPasses x r.seq = false ∧
      (guardedSession x = true → r.auth = true ∧ inWindow x r.seq = true)) →
    (∀ k, n.toNat = l.length → 512 ≤ m.toNat → freeIndex r.ep s = some k →
      let v := (negotiate protocolRanges l).getD (0, 0)
      let st : BitVec 16 := if negotiate protocolRanges l = none then 0x06 else 0
      let pkt := min m.toNat (transportLimit r.ep)
      let reply : List Byte := [BitVec.ofNat 8 v.1, BitVec.ofNat 8 v.2] ++ beBytes 2 pkt ++
        [BitVec.ofNat 8 k, if r.ep = .usb then 0 else if s.upd.encReq then 2 else 1]
      let t := endSession r.ep s
      let x : Session := {
        ep := r.ep, idx := BitVec.ofNat 8 k, major := BitVec.ofNat 8 v.1, minor := BitVec.ofNat 8 v.2, maxPkt := BitVec.ofNat 16 pkt,
        mgmt := decide (negotiate protocolRanges l = none),
        hello := paramsOf (.hello r n m l) ++ reply, high := some r.seq, admitted := [r.seq],
        cache := [{ seq := r.seq, req := r, opcode := 1, reply := some (st, reply) }] }
      exec (.hello r n m l) s = .next (sendReply r 1 st reply false
        { t with host.sessions := t.host.sessions ++ [x], sys.cmdCount := satInc t.sys.cmdCount })) ∧
    (sessionOf s r.ep = none → n.toNat ≠ l.length →
      exec (.hello r n m l) s = .next (sendReply r 1 0x01 [] false s)) ∧
    (sessionOf s r.ep = none → n.toNat = l.length → m.toNat < 512 →
      exec (.hello r n m l) s = .next (sendReply r 1 0x10 [] false s)) ∧
    (sessionOf s r.ep = none → n.toNat = l.length → 512 ≤ m.toNat → freeIndex r.ep s = none →
      exec (.hello r n m l) s = .next (sendReply r 1 0x11 [] false s))

/-- R305, R542 to R546: the session commands. AUTH_CHALLENGE draws a nonce and key shares and keeps the challenge; AUTH_PROVE with a
valid proof makes the session a proved one with the role of the key, and a failed one counts and logs the failure; BYE ends the
own session after its reply, or another at once; SESSION_INFO answers the session's figures.
(Model's choices where the manual leaves a point open: log entries 12, 134.) -/
def Obligations.SessionCommands : Prop :=
  (∀ (r : Req) (key : BitVec 16) (share ek z : List Byte) (slot : Nat) (y : Session), Serves (.authChallenge r key share ek)
    (fun _ t => sessionOf t r.ep = some y ∧ y.proved = false ∧ share.length = 32 ∧ ek.length = 1184 ∧ t.upd.lockout = false ∧
      slotOf t key.toNat = some slot ∧ x25519 (padTo 32 (Config.freeBytes (t.free + 1))) share = some z)
    (fun _ t =>
      let nonce := padTo 32 (Config.freeBytes t.free)
      let own := x25519Share (padTo 32 (Config.freeBytes (t.free + 1)))
      let kem := kemEncaps (padTo 32 (Config.freeBytes (t.free + 2))) ek
      let ct := kem.1
      let th1 := sha512 (ascii "TLH-6424 S1" ++ y.hello ++ beBytes 2 key.toNat ++ share ++ ek ++ nonce ++ own ++ ct ++
        beBytes 16 Config.serial.toNat)
      let sig := padTo 3373 (identitySign (t.free + 3) th1)
      let ch : Challenge := { key := key, nonce := nonce, th1 := th1, sig := sig, secret := z ++ kem.2 }
      (updSession y.ep (fun x => { x with chal := some ch }) { t with free := t.free + 4 },
       0, nonce ++ own ++ ct ++ sig, none))) ∧
  (∀ (r : Req) (sig : List Byte) (ch : Challenge) (y : Session) (i : Nat), sig.length = 3373 →
    let th2 := sha512 (ascii "TLH-6424 S2" ++ ch.th1 ++ ch.sig)
    let valid (t : State) (i : Nat) := edVerify (slotKeys t i).1 th2 (sig.take 64) && dsaVerify (slotKeys t i).2 th2 (sig.drop 64)
    Serves (.authProve r sig) (fun _ t => sessionOf t r.ep = some y ∧ y.chal = some ch ∧
        slotOf t ch.key.toNat = some i ∧ valid t i = true)
      (fun _ t => (updSession y.ep (fun x => { x with
          proved := true, enc := t.upd.encReq && decide (y.ep ≠ .usb), keyIdx := BitVec.ofNat 16 (slotKey t i).1,
          role := BitVec.ofNat 8 (slotKey t i).2, chal := none,
          keys := hkdfSha256 ch.secret ch.nonce (ascii "TLH-6424 keys" ++ th2) }) t, 0, [], none)) ∧
    Serves (.authProve r sig) (fun _ t => sessionOf t r.ep = some y ∧ y.chal = some ch ∧
        (slotOf t ch.key.toNat = none ∨ slotOf t ch.key.toNat = some i ∧ valid t i = false))
      (fun _ t => (authFailed t, 0x04, [], none))) ∧
  (∀ (r : Req) (n : Byte) (y z : Session),
    Serves (.bye r n) (fun _ t => sessionOf t r.ep = some y ∧ (n = 0xFF ∨ n = y.idx))
      (fun _ t => (updSession y.ep (fun x => { x with ending := true }) t, 0, [], none)) ∧
    Serves (.bye r n) (fun _ t => sessionOf t r.ep = some y ∧ n ≠ 0xFF ∧ n ≠ y.idx ∧ t.host.sessions.find? (·.idx = n) = some z)
      (fun _ t => (endSession z.ep t, 0, [], none))) ∧
  (∀ (r : Req) (y : Session), Serves (.sessionInfo r) (fun _ t => sessionOf t r.ep = some y) (fun _ t =>
    (t, 0, [y.major, y.minor] ++ beBytes 2 y.maxPkt.toNat ++ [y.idx, if y.proved then 1 else 0] ++ beBytes 4 (y.high.getD 0).toNat ++
      [BitVec.ofNat 8 y.cache.length, BitVec.ofNat 8 y.reasm.length] ++ beBytes 4 y.dis1.toNat ++ beBytes 4 y.dis5.toNat ++
      beBytes 4 y.dis7.toNat ++ beBytes 4 y.disQ.toNat, none)))

/-- R304, R306, R362, R607: the unit commands. UNIT_STATUS clears the highest severity that it returns, START_MODE stores 0 or 1,
BASIN_MAP returns the records of the members, whose link bits are free values for the members that this module does not see (the model's
choice: log entry 136), and RESET 0 is accepted: the module resets once the reply is sent. (Model's choices where the manual leaves a
point open: log entry 136.) -/
def Obligations.UnitCommands : Prop :=
  (∀ r, Serves (.unitInfo r) (fun _ _ => True) fun c t =>
    (t, 0, [BitVec.ofNat 8 c.kind, BitVec.ofNat 8 ((List.range 64).filter fun k => (childMap c.kind t).getLsbD k).length] ++
      beBytes 8 (childMap c.kind t).toNat ++ [c.idx], none)) ∧
  (∀ r, Serves (.unitStatus r) (fun c _ => c.unit = none) fun _ t =>
    ({ t with host.highSev := 0 }, 0, [BitVec.ofNat 8 (worstHealth t), BitVec.ofNat 8 (modeCode t.tsk.mode),
      t.red.role.setWidth 8, 0] ++ beBytes 4 (bitMap 6 fun u => health t u ≠ 0) ++ [t.host.highSev], none)) ∧
  (∀ r u, Serves (.unitStatus r) (fun c _ => c.unit = some u) fun _ t =>
    ({ t with host.highSev := 0 }, 0, [BitVec.ofNat 8 (health t u), BitVec.ofNat 8 (modeCode t.tsk.mode),
      t.red.role.setWidth 8, 0] ++ beBytes 4 (unitStatus t u) ++ [t.host.highSev], none)) ∧
  (∀ r, Serves (.basinMap r) (fun _ _ => True) fun _ t =>
    ({ t with free := t.free + 1 }, 0,
     [t.pas.headId.setWidth 8, t.pas.ring.setWidth 8] ++ (List.range 64).flatMap (memberRecord t), none)) ∧
  (∀ r (m : Byte), m.toNat ≤ 1 → Serves (.startMode r m) (fun _ _ => True) fun _ t =>
    ({ t with sys.startMode := m, upd.dirty := true }, 0, [m], none)) ∧
  (∀ r, Serves (.startMode r 0xFF) (fun _ _ => True) fun _ t => (t, 0, [t.sys.startMode], none)) ∧
  (∀ r, Serves (.reset r 0) (fun _ _ => True) fun _ t => ({ t with host.resetDue := true }, 0, [], none)) ∧
  (∀ (r : Req) (k : Byte), k ≠ 0 → Serves (.reset r k) (fun _ _ => True) fun _ t => (t, 0x10, [], none))

/-- R84, R87, R88, R90, R307: the image commands. IMG_READ returns the committed values with the present tick; IMG_WRITE waits for the
next tick edge, at which the values are written, and answers with that tick (the one after it where the next is a switchover tick). At the
tick edge of a quiet module alone the host writes are applied in their order, addresses wrapping: the value stands over what was committed
and over the latch of an INPUT point, and goes with the other OUTPUT points to the output buffers; none waits any more. IMG_LAYOUT returns
the regions. (Model's choices where the manual leaves a point open: log entries 62, 254.) -/
def Obligations.ImageCommands : Prop :=
  (∀ (r : Req) (a : W24) (n : BitVec 16), 1 ≤ n.toNat → n.toNat ≤ 65488 → Serves (.imgRead r 0 a n) (fun _ _ => True) fun c t =>
    (t, 0, tickBytes c t t.tsk.tick ++
      packBits ((List.range n.toNat).map fun k => Tab.get false t.tsk.bits ((a.toNat + k) % 2 ^ 22)), none)) ∧
  (∀ (r : Req) (a : W24) (n : BitVec 16), 1 ≤ n.toNat → n.toNat ≤ 2728 → Serves (.imgRead r 1 a n) (fun _ _ => True) fun c t =>
    (t, 0, tickBytes c t t.tsk.tick ++
      (List.range n.toNat).flatMap fun k => beBytes 3 (Tab.get 0 t.tsk.words ((a.toNat + k) % 2 ^ 21)).toNat, none)) ∧
  (∀ (r : Req) (a : W24) (n : BitVec 16) (v : List Byte), 1 ≤ n.toNat → n.toNat ≤ 65488 → v.length = (n.toNat + 7) / 8 →
    Serves (.imgWrite r 0 a n v) (fun _ _ => True) fun c t =>
      ({ t with tsk.writes := t.tsk.writes ++
          [{ word := false, addr := a, vals := ((unpackBits v).take n.toNat).map fun b => if b then 1 else 0 }] },
       0, tickBytes c t (actsAt t), some (.tick (actsAt t).toNat))) ∧
  (∀ (r : Req) (a : W24) (n : BitVec 16) (v : List Byte), 1 ≤ n.toNat → n.toNat ≤ 2728 → v.length = 3 * n.toNat →
    Serves (.imgWrite r 1 a n v) (fun _ _ => True) fun c t =>
      ({ t with tsk.writes := t.tsk.writes ++ [{ word := true, addr := a, vals := words3 v }] },
       0, tickBytes c t (actsAt t), some (.tick (actsAt t).toNat))) ∧
  (∀ inp s, EdgeQuiet s → (∀ w ∈ s.tsk.writes, w.vals.length ≤ 2 ^ 21) →
    ∃ t, exec (.tickEdge inp) s = .next (settle t) ∧ t.tsk.tick = s.tsk.tick + 1 ∧ t.tsk.writes = [] ∧ EdgeImage s t) ∧
  (∀ r, Serves (.imgLayout r) (fun _ _ => True) fun _ t =>
    (t, 0, [BitVec.ofNat 8 t.prog.bitReg.length, BitVec.ofNat 8 t.prog.wordReg.length] ++
      (t.prog.bitReg ++ t.prog.wordReg).flatMap fun g =>
        beBytes 3 g.start.toNat ++ beBytes 3 g.count.toNat ++ [g.cls.setWidth 8, g.owner.setWidth 8], none))

/-- R308, R309, R247, R110: the program commands. A load is opened in STOP only, its blocks are kept by their offset, and the close of
a good image loads the program, begins its store and returns the digest of the active bank; PRG_INFO and PRG_READ return what the
banks hold.
(Model's choices where the manual leaves a point open: log entries 33, 66.) -/
def Obligations.ProgramCommands : Prop :=
  (∀ r, Serves (.prgLoadOpen r) (fun _ t => t.tsk.mode = .stop) fun _ t =>
    ({ t with prog.loadOpen := true, prog.loadBuf := [] }, 0, [], none)) ∧
  (∀ r, Serves (.prgLoadOpen r) (fun _ t => t.tsk.mode ≠ .stop) fun _ t => (t, 0x301, [], none)) ∧
  (∀ (r : Req) (o : W32) (d : List Byte), 512 ≤ d.length → d.length ≤ 8192 → o.toNat + d.length ≤ 8388608 →
    Serves (.prgLoadBlock r o d) (fun _ t => t.prog.loadOpen = true) fun _ t =>
      ({ t with prog.loadBuf := Tab.setRange none t.prog.loadBuf o.toNat (d.map some) }, 0, [], none)) ∧
  (∀ r f l, Serves (.prgLoadClose r)
    (fun _ t => t.tsk.mode = .stop ∧ t.prog.loadOpen = true ∧ takeFramed true 0x5E7D 8388608 t.prog.loadBuf = .inr f ∧
      loadImage (decide (t.red.role = 0)) f.recs = .inr l)
    fun _ t =>
      let u := installProgram l { t with prog.loadOpen := false, prog.loadBuf := [] }
      let u := { u with prog.storing := true }
      (u, 0, beBytes 8 (bankOf u u.prog.active).digest.toNat, none)) ∧
  (∀ r, Serves (.prgInfo r) (fun _ _ => True) fun _ t =>
    (t, 0, beBytes 4 (prgStatus t) ++ beBytes 4 t.prog.gen.toNat ++ beBytes 8 (bankOf t t.prog.active).digest.toNat ++
      beBytes 8 (bankOf t !t.prog.active).digest.toNat ++
      beBytes 8 (((Machine.storedPrg t).map fun (p : Stored) => p.bank.digest).getD 0).toNat, none)) ∧
  (∀ (r : Req) (b q : Byte) (f : W24) (n : BitVec 16), b.toNat ≤ 1 → q.toNat ≤ 5 → n ≠ 0 →
    f.toNat + n.toNat ≤ (partShape q.toNat).1 → n.toNat * (partShape q.toNat).2 ≤ 8192 →
    Serves (.prgRead r b q f n) (fun _ t => b = 0 ∨ t.prog.held = true) fun _ t =>
      (t, 0, (List.range n.toNat).flatMap fun k =>
        bankItem (bankOf t (if b = 0 then t.prog.active else !t.prog.active)) q.toNat (f.toNat + k), none))

/-- R253 to R258, R266, R267, R269 to R271, R308: the edit commands outside a pair. EDIT_OPEN claims EDIT and empties the shadow bank,
EDIT_CLOSE of a change set for the active bank begins the build, EDIT_APPLY and UNDO_EDIT arm the edit for a tick 100 to 16,777,215 ticks
ahead (0: 100 ahead), EDIT_STATUS returns the progress of the build as a free value (the model's choice: log entry 152), EDIT_ABORT
returns to NONE or, from ARMED, to BUILT. (Model's choices where the manual leaves a point open: log entries 33, 131, 132, 152.) -/
def Obligations.EditCommands : Prop :=
  (∀ r u, Serves (.editOpen r)
    (fun c t => (t.prog.edit = .none ∨ t.prog.edit = .failed) ∧ PartnerFree c t ∧ t.red.role = 0 ∧ claimFeature 0x22 0 t = (u, none))
    fun _ _ =>
      (forwardEdit 0x0310 [] { setShadow {} u with
        prog.held := false, prog.undoAvail := false, prog.editBuf := [], prog.dirs := [], prog.edit := .opened }, 0, [], none)) ∧
  (∀ (r : Req) (o : W32) (d : List Byte), 512 ≤ d.length → d.length ≤ 8192 → o.toNat + d.length ≤ 2097152 →
    Serves (.editBlock r o d) (fun c t => t.prog.edit = .opened ∧ PartnerFree c t ∧ t.red.role = 0) fun _ t =>
      ({ t with prog.editBuf := Tab.setRange none t.prog.editBuf o.toNat (d.map some) }, 0, [], none)) ∧
  (∀ r f, Serves (.editClose r)
    (fun c t => t.prog.edit = .opened ∧ PartnerFree c t ∧ t.red.role = 0 ∧
      takeFramed false 0x5E7C 2097152 t.prog.editBuf = .inr f ∧ f.gen = t.prog.gen.toNat ∧
      f.digest = (bankOf t t.prog.active).digest.toNat)
    fun _ t => ({ t with prog.edit := .building, prog.shadowEcc := false, red.builtDig := none }, 0, [], none)) ∧
  (∀ (r : Req) (tick : Tick) (undo : Bool),
    let e (c : Ctx) (t : State) : Tick := if tick = 0 then t.tsk.tick + 100 else ownTick c t tick
    Serves (if undo then .undoEdit r tick else .editApply r tick)
      (fun c t => (if undo then t.prog.edit = .none ∧ t.prog.undoAvail = true else t.prog.edit = .built) ∧ t.red.role = 0 ∧
        (tick ≠ 0 → ownTick c t tick ≠ 0 ∧ 100 ≤ (ownTick c t tick - t.tsk.tick).toNat ∧
          (ownTick c t tick - t.tsk.tick).toNat ≤ 16777215))
      fun c t => ({ t with prog.edit := .armed, prog.armTick := e c t, prog.armUndo := undo,
                           prog.undoAvail := if undo then false else t.prog.undoAvail }, 0, tickBytes c t (e c t), none)) ∧
  (∀ r, Serves (.editAbort r) (fun _ t => t.prog.edit = .armed ∧ t.prog.armUndo = false ∧ t.red.role = 0)
    fun _ t => ({ t with prog.edit := .built }, 0, [BitVec.ofNat 8 (editCode .built)], none)) ∧
  (∀ r, Serves (.editAbort r)
    (fun _ t => (t.prog.edit = .opened ∨ t.prog.edit = .building ∨ t.prog.edit = .built ∨ t.prog.edit = .failed) ∧ t.red.role = 0)
    fun _ t => (forwardEdit 0x0314 [] { releaseFeature 0x22 0 { setShadow {} t with prog.held := false } with
      prog.edit := .none, prog.undoAvail := false, prog.editBuf := [], prog.dirs := [] },
      0, [BitVec.ofNat 8 (editCode .none)], none)) ∧
  (∀ r, Serves (.editAbort r) (fun _ t => t.prog.edit = .draining ∧ t.red.role = 0) fun _ t => (t, 0x308, [], none)) ∧
  (∀ r, Serves (.editStatus r) (fun _ _ => True) fun c t =>
    ({ t with free := t.free + 1 }, 0, [BitVec.ofNat 8 (editCode t.prog.edit), if t.prog.undoAvail then 1 else 0] ++
      beBytes 4 (prgBuild t).toNat ++ beBytes 4 (prgEditErr t) ++ beBytes 4 t.prog.errOfs.toNat ++
      tickBytes c t t.prog.armTick ++ beBytes 4 (prgDrain t), none))

/-- R79, R98, R105 to R110, R310: the run control commands. Each is kept for the tick at which it acts, and the reply names that
tick: the next one (the one after it where the next is a switchover tick), or for RUN the one it names; a STOP drops a RUN and the STEPs
that wait. (Model's choices where the manual leaves a point open: log entries 130, 177, 179, 200, 254.) -/
def Obligations.RunCommands : Prop :=
  let there (n : Byte) (t : State) : Prop := n.toNat < 32 ∧ (task t n.toNat).st ≠ .absent
  (∀ r, Serves (.run r 0) (fun c t => PartnerFree c t) fun c t =>
    ({ t with tsk.runAt := some (actsAt t) }, 0, tickBytes c t (actsAt t), none)) ∧
  (∀ (r : Req) (k : Tick), k ≠ 0 → Serves (.run r k)
    (fun c t => PartnerFree c t ∧ 1 ≤ (ownTick c t k - t.tsk.tick).toNat ∧ (ownTick c t k - t.tsk.tick).toNat ≤ 16777215)
    fun c t =>
      let e := if ownTick c t k = t.tsk.tick + 1 then actsAt t else ownTick c t k
      ({ t with tsk.runAt := some e }, 0, tickBytes c t e, none)) ∧
  (∀ r, Serves (.stop r) (fun c t => PartnerFree c t) fun c t =>
    ({ t with tsk.runAt := none, tsk.steps := [], tsk.stopReq := true }, 0, tickBytes c t (actsAt t), none)) ∧
  (∀ r n, Serves (.step r n)
    (fun _ t => there n t ∧ (task t n.toNat).st ≠ .disabled ∧ (task t n.toNat).st ≠ .faulted ∧ t.tsk.steps.contains n.toNat = false ∧
      ¬(released (task t n.toNat) = true ∧ (task t n.toNat).stepped = true) ∧ t.tsk.mode ≠ .run ∧ t.red.role = 0)
    fun c t => ({ t with tsk.steps := t.tsk.steps ++ [n.toNat] }, 0, tickBytes c t (actsAt t), none)) ∧
  (∀ r n, Serves (.taskEnable r n) (fun c t => there n t ∧ PartnerFree c t) fun c t =>
    ({ t with tsk.enables := t.tsk.enables ++ [n.toNat] }, 0, tickBytes c t (actsAt t), none)) ∧
  (∀ r n, Serves (.taskDisable r n) (fun c t => there n t ∧ PartnerFree c t) fun c t =>
    ({ t with tsk.disables := t.tsk.disables ++ [n.toNat] }, 0, tickBytes c t (actsAt t), none)) ∧
  (∀ r n, Serves (.taskTrigger r n)
    (fun c t => there n t ∧ kindOf (taskDef t n.toNat) = 1 ∧ t.tsk.mode = .run ∧ PartnerFree c t) fun c t =>
    ({ t with tsk.triggers := t.tsk.triggers ++ [n.toNat] }, 0, tickBytes c t (actsAt t), none)) ∧
  (∀ r n, Serves (.taskRestart r n) (fun c t => there n t ∧ (task t n.toNat).st = .faulted ∧ PartnerFree c t) fun c t =>
    ({ t with tsk.restarts := t.tsk.restarts ++ [n.toNat] }, 0, tickBytes c t (actsAt t), none)) ∧
  (∀ r n, Serves (.taskStatus r n) (fun _ t => there n t) fun c t =>
    let k := task t n.toNat
    (t, 0, beBytes 4 (tskCfg t n.toNat).toNat ++ [BitVec.ofNat 8 (tstateCode k.st),
      BitVec.ofNat 8 ((if k.ext then 2 else 0) + if k.evtPend then 1 else 0)] ++ beBytes 2 k.evtLost.toNat ++
      tickBytes c t k.lt ++ beBytes 2 k.ovrTotal.toNat ++
      [k.ovrConsec, BitVec.ofNat 8 (field (taskDef t n.toNat).trap.toNat 30 28), k.sticky.setWidth 8] ++
      beBytes 2 k.execMax.toNat ++ beBytes 2 k.execLast.toNat ++ beBytes 2 k.lastTrap.toNat, none)) ∧
  (∀ r, Serves (.runStatus r) (fun _ _ => True) fun c t =>
    (t, 0, [BitVec.ofNat 8 (modeCode t.tsk.mode)] ++ tickBytes c t t.tsk.tick ++ beBytes 4 (tskReleased t) ++
      beBytes 4 (tskFaulted t), none))

/-- R311, R475 to R482: the time commands. TIME_SET of a possible time sets the RTC, WAKE_SET loads the wake timer, and PWRON_RELEASE
takes the PWRON output away. The seconds of WAKE_SET's reply are a free value when N is 0 (log entry 6). -/
def Obligations.TimeCommands : Prop :=
  (∀ r, Serves (.timeGet r) (fun _ _ => True) fun c t =>
    (t, 0, beBytes 4 (t.bkd.rtc.toNat / 32768) ++ beBytes 2 (t.bkd.rtc.toNat % 32768) ++ beBytes 6 t.bkd.rtc.toNat ++
      [if t.bkd.osf then 1 else 0] ++ tickBytes c t t.tsk.tick ++ beBytes 4 (tbStatus t), none)) ∧
  (∀ (r : Req) (sec : W32) (frac : BitVec 16), frac.getLsbD 15 = false →
    Serves (.timeSet r (.binary sec frac)) (fun _ _ => True) fun _ t =>
      (rtcCommitOp { t with bkd.setSec := sec, bkd.setFrac := frac.setWidth 15 }, 0, [], none)) ∧
  (∀ (r : Req) (y : BitVec 16) (m d h mi sec : Byte), dateOk y.toNat m.toNat d.toNat h.toNat mi.toNat sec.toNat = true →
    Serves (.timeSet r (.calendar y m d h mi sec)) (fun _ _ => True) fun _ t =>
      let n := calendarSeconds y.toNat m.toNat d.toNat h.toNat mi.toNat sec.toNat
      (rtcCommitOp { t with bkd.setFrac := 0, bkd.setSec := BitVec.ofNat 32 n }, 0, [], none)) ∧
  (∀ (r : Req) (y : BitVec 16) (m d h mi sec : Byte), dateOk y.toNat m.toNat d.toNat h.toNat mi.toNat sec.toNat = false →
    Serves (.timeSet r (.calendar y m d h mi sec)) (fun _ _ => True) fun _ t => (t, 0x501, [], none)) ∧
  (∀ (r : Req) (n : W24), n ≠ 0 → Serves (.wakeSet r n) (fun _ _ => True) fun _ t =>
    ({ t with bkd.wakeN := n, bkd.wakeLeft := wakeFull n }, 0, beBytes 4 ((t.bkd.rtc.toNat + wakeFull n) / 32768), none)) ∧
  (∀ r, Serves (.wakeSet r 0) (fun _ _ => True) fun _ t =>
    ({ t with bkd.wakeN := 0, bkd.wakeLeft := wakeFull 0, free := t.free + 1 }, 0, beBytes 4 (Config.freeWord t.free).toNat, none)) ∧
  (∀ r, Serves (.pwronRelease r) (fun _ _ => True) fun _ t => ({ t with bkd.pwron := false }, 0, [], none))

/-- R312, R505 to R508, R313, R520, R526, R527, R321: the depot and log commands. DEPOT_READ returns pages and their group maps;
DEPOT_WRITE to a host page takes a place in the queue or waits for one, and is answered when it is done; LOG_READ returns records in
order; LOG_FREEZE stops the flush for 60 s; NOTICE_SUBSCRIBE sets the lowest severity of the session's notices. (Model's choices where the
manual leaves a point open: log entries 31, 138, 171.) -/
def Obligations.DepotAndLogCommands : Prop :=
  (∀ (r : Req) (p : BitVec 16) (n : Byte), 1 ≤ n.toNat → n.toNat ≤ 31 → p.toNat + n.toNat ≤ 1024 →
    Serves (.depotRead r p n) (fun _ t => t.depot.scan = false) fun _ t =>
      let ps := (List.range n.toNat).map (p.toNat + ·)
      (ps.foldl (fun t q => noteRead q t) t, 0,
       ps.flatMap fun q => (pageRead t q).1 ++ beBytes 4 (pageRead t q).2.toNat, none)) ∧
  (∀ (r : Req) (p : BitVec 16) (d : List Byte), d.length = 256 → 384 ≤ p.toNat → p.toNat ≤ 511 →
    Serves (.depotWrite r p d)
      (fun c t => t.depot.scan = false ∧ t.depot.pfail = false ∧ depotRoom t p.toNat (.host c.whom r.seq) = true)
      (fun c t => (depotEnter p.toNat d (.host c.whom r.seq) t, 0, [], some (.depot p.toNat))) ∧
    Serves (.depotWrite r p d)
      (fun c t => t.depot.scan = false ∧ t.depot.pfail = false ∧ depotRoom t p.toNat (.host c.whom r.seq) = false)
      (fun c t => ({ t with depot.waiters := t.depot.waiters ++ [.host c.whom r.seq] }, 0, [], some (.depotPlace p.toNat d)))) ∧
  (∀ r, Serves (.depotStatus r) (fun _ t => t.depot.scan = false) fun _ t =>
    (t, 0, [if t.depot.busy then 1 else 0] ++ beBytes 2 t.depot.patrol.toNat ++ beBytes 4 t.depot.refreshed.toNat ++
      beBytes 4 t.depot.corrected.toNat ++ beBytes 4 t.depot.uncorr.toNat, none)) ∧
  (∀ (r : Req) (f : W32) (n v : Byte), 1 ≤ n.toNat → n.toNat ≤ 127 → Serves (.logRead r f n v) (fun _ _ => True) fun _ t =>
    let l := logRecords t f n.toNat v.toNat
    (t, 0, beBytes 4 ((l.getLast?.map fun a => a.index + 1).getD t.log.next).toNat ++ [BitVec.ofNat 8 l.length, 0, 0, 0] ++
      l.flatMap accBytes, none)) ∧
  (∀ r, Serves (.logFreeze r 1) (fun _ _ => True) fun _ t =>
    ({ t with log.frozen := true, log.freezer := some r.ep, log.freezeEnd := t.sys.upTicks + 6000000 }, 0, [60], none)) ∧
  (∀ r, Serves (.logFreeze r 0) (fun _ _ => True) fun _ t =>
    ({ t with log.frozen := false, log.freezer := none, log.freezeEnd := 0 }, 0, [0], none)) ∧
  (∀ r, Serves (.logStatus r) (fun _ _ => True) fun _ t =>
    (t, 0, beBytes 4 (oldestIndex t).toNat ++ beBytes 4 (t.log.next - 1).toNat ++ beBytes 2 t.log.buf.length ++
      (List.range 8).flatMap fun v => beBytes 4 (Tab.get 0 t.log.lost v).toNat, none)) ∧
  (∀ (r : Req) (v : Byte), v.toNat ≤ 7 → Serves (.noticeSubscribe r v) (fun _ _ => True) fun _ t =>
    (updSession r.ep (fun x => { x with notice := some v, noticeNo := 0 }) t, 0, [], none)) ∧
  (∀ r, Serves (.noticeSubscribe r 0xFF) (fun _ _ => True) fun _ t =>
    (updSession r.ep (fun x => { x with notice := none }) t, 0, [], none))

/-- R551 to R568: the update commands. UPD_BEGIN opens the download of a part into the slot that does not run; UPD_BLOCK writes units;
UPD_VERIFY starts the verification of a COMPLETE image; UPD_ACTIVATE puts a VALID image on trial, whose reply follows the write of the
boot selector; UPD_CONFIRM and UPD_REJECT end a trial, and UPD_REJECT without one is refused; UPD_STATUS returns the records of the five
parts; UPD_MANIFEST of five images that run already changes nothing, and one that names VALID images puts their parts on trial together,
whose reply follows the write of the boot selector. (Model's choices where the manual leaves a point open: log entries 116, 117, 234.) -/
def Obligations.UpdateCommands : Prop :=
  (∀ (r : Req) (k : Byte) (n : W32) (u : State), k.toNat < 5 → 3886 ≤ n.toNat → n.toNat ≤ slotSize k.toNat →
    Serves (.updBegin r k n)
      (fun _ t => t.upd.openPart = none ∧ inTrial t = false ∧ returnsTo t k.toNat = false ∧ claimFeature 0x23 0 t = (u, none))
      fun _ t => (saveDownload k.toNat true (updIdle k.toNat (fun _ => { st := .receiving, length := n.toNat })
          { u with upd.openPart := some k.toNat, upd.blocks := 0 }),
        0, [if (partOf t k.toNat).runB then 0 else 1], none)) ∧
  (∀ (r : Req) (k : Byte) (o : W32) (d : List Byte), 512 ≤ d.length → d.length ≤ 8192 → k.toNat < 5 → o.toNat % 512 = 0 → 0 < o.toNat →
    Serves (.updBlock r k o d)
      (fun _ t => t.upd.openPart = some k.toNat ∧ (idleSlot (partOf t k.toNat)).st = .receiving ∧
        o.toNat + d.length ≤ (idleSlot (partOf t k.toNat)).length ∧
        (d.length % 512 = 0 ∨ o.toNat + d.length = (idleSlot (partOf t k.toNat)).length))
      fun _ t =>
        let y := (chunks 512 d.length d).zipIdx.foldl (fun x e => writeUnit (o.toNat / 512 + e.2) e.1 x) (idleSlot (partOf t k.toNat))
        let done := decide (y.units.length = (y.length + 511) / 512)
        let y := if done then { y with st := .complete } else y
        let u := updIdle k.toNat (fun _ => y) { t with upd.blocks := t.upd.blocks + 1 }
        let u := if u.upd.blocks % 64 = 0 ∨ y.st = .complete then
            saveDownload k.toNat true u else u
        (u, 0, beBytes 4 y.units.length, none)) ∧
  (∀ (r : Req) (k : Byte), k.toNat < 5 → Serves (.updVerify r k)
    (fun _ t => (idleSlot (partOf t k.toNat)).st = .complete)
    fun _ t => (updIdle k.toNat (fun x => { x with st := .verifying }) t, 0, [], some (.verify k.toNat))) ∧
  (∀ (r : Req) (k : Byte), k.toNat < 5 → Serves (.updActivate r k)
    (fun _ t => inTrial t = false ∧ ¬ (t.red.role = 1 ∧ t.red.peerRole = 3) ∧
      ((idleSlot (partOf t k.toNat)).st = .valid ∨ (idleSlot (partOf t k.toNat)).st = .rejected) ∧
      brokenRule (switchedSet t [k.toNat]) = none ∧ (k.toNat = 4 → t.dio.safStatus.getLsbD 28 = true))
    fun _ t => (activate [k.toNat] t, 0, [], some (if (activate [k.toNat] t).depot.pfail then .never else .twin 0))) ∧
  (∀ r, Serves (.updConfirm r) (fun _ t => canConfirm t = true) (fun _ t => (confirmTrial t, 0, [], none)) ∧
    Serves (.updConfirm r) (fun _ t => canConfirm t = false) (fun _ t => (t, 0x12, [], none))) ∧
  (∀ r, Serves (.updReject r) (fun _ t => inTrial t = true ∧ (selectorOf t).trial ≠ 0) (fun _ t => (rejectTrial t, 0, [], none)) ∧
    Serves (.updReject r) (fun _ t => inTrial t = false) (fun _ t => (t, 0x12, [], none))) ∧
  (∀ r, Serves (.updStatus r) (fun _ _ => True) fun _ t => (t, 0, (List.range 5).flatMap (partRecord t), none)) ∧
  (∀ (r : Req) (m : List Byte), 3721 ≤ m.length → m.length ≤ 4096 → firmwareVerify (m.take 348) ((m.drop 348).take 3373) = true →
    bytesNat m 0 2 = 0x1A6F → bytesNat m 2 2 = 0x0100 → (∀ k < 5, bytesNat ((m.drop (8 + 68 * k)).take 68) 0 1 = k) →
    Serves (.updManifest r m)
      (fun _ t => inTrial t = false ∧ ¬ (t.red.role = 1 ∧ t.red.peerRole = 3) ∧ t.sys.actPending = false ∧
        (∀ k < 5, sha512 (runHeader t k) = ((m.drop (8 + 68 * k)).take 68).drop 4) ∧
        brokenRule (switchedSet t []) = none)
      fun _ t => (t, 0, [], none)) ∧
  (∀ (r : Req) (m : List Byte), 3721 ≤ m.length → m.length ≤ 4096 → firmwareVerify (m.take 348) ((m.drop 348).take 3373) = true →
    bytesNat m 0 2 = 0x1A6F → bytesNat m 2 2 = 0x0100 → (∀ k < 5, bytesNat ((m.drop (8 + 68 * k)).take 68) 0 1 = k) →
    let named (k : Nat) : List Byte := ((m.drop (8 + 68 * k)).take 68).drop 4
    let changed (t : State) : List Nat := (List.range 5).filter fun k => decide (sha512 (runHeader t k) ≠ named k)
    Serves (.updManifest r m)
      (fun _ t => inTrial t = false ∧ ¬ (t.red.role = 1 ∧ t.red.peerRole = 3) ∧ changed t ≠ [] ∧
        (∀ k ∈ changed t, sha512 (idleHeader t k) = named k ∧
          ((idleSlot (partOf t k)).st = .valid ∨ (idleSlot (partOf t k)).st = .rejected)) ∧
        brokenRule (switchedSet t (changed t)) = none ∧ (4 ∈ changed t → t.dio.safStatus.getLsbD 28 = true))
      fun _ t => (activate (changed t) t, 0, [], some (if (activate (changed t) t).depot.pfail then .never else .twin 0)))

/-- R315, R390, R394: the pair commands. PAIR_STATUS returns roles, paths, epoch, versions and digest mismatches; PAIR_SWITCHOVER at
the active partner with its standby in step sets the switch 100 ticks ahead; PAIR_RESYNC at a standby begins the
resynchronisation, at a warm one with the sync link up alone, and is refused while one runs. (Model's choices where the manual
leaves a point open: log entries 139, 140, 187.) -/
def Obligations.PairCommands : Prop :=
  (∀ r, Serves (.pairStatus r) (fun _ t => t.sys.partner = false) fun _ t =>
    (t, 0, [t.red.role.setWidth 8, t.red.peerRole.setWidth 8,
      BitVec.ofNat 8 ((if t.red.pathSync then 2 else 0) + if t.red.pathHb then 1 else 0), 0] ++ beBytes 2 t.red.epoch.toNat ++
      beBytes 2 (ownRdv t).toNat ++ beBytes 2 t.red.peerRdv.toNat ++ beBytes 4 t.red.digestMis.toNat, none)) ∧
  (∀ r, Serves (.pairStatus r) (fun _ t => t.sys.partner = true) fun _ t =>
    (t, 0, [t.red.peerRole.setWidth 8, t.red.role.setWidth 8,
      BitVec.ofNat 8 ((if t.red.pathSync then 2 else 0) + if t.red.pathHb then 1 else 0), 0] ++ beBytes 2 t.red.epoch.toNat ++
      beBytes 2 t.red.peerRdv.toNat ++ beBytes 2 (ownRdv t).toNat ++ beBytes 4 t.red.digestMis.toNat, none)) ∧
  (∀ r, Serves (.pairSwitchover r) (fun _ t => t.red.role = 1 ∧ t.red.peerRole = 3) fun c t =>
    let e := t.tsk.tick + 100
    (sendControl 0x04 (beBytes 6 e.toNat) { t with red.switchAt := some e.toNat, red.items := t.red.items ++ [.switchover e] },
     0, tickBytes c t e, some (.recordAck (t.tsk.tick + 1).toNat))) ∧
  (∀ r, Serves (.pairSwitchover r) (fun _ t => ¬ (t.red.role = 1 ∧ t.red.peerRole = 3)) fun _ t => (t, 0x12, [], none)) ∧
  (∀ r, Serves (.pairResync r) (fun _ t => standby t = true ∧ t.red.role ≠ 2 ∧ (t.red.role = 4 → syncReady t = true))
    fun _ t => (enterSyncing t, 0, [], none)) ∧
  (∀ r, Serves (.pairResync r) (fun _ t => t.red.role = 4 ∧ syncReady t = false) fun _ t => (t, 0x12, [], none)) ∧
  (∀ r, Serves (.pairResync r) (fun _ t => t.red.role = 2) fun _ t => (t, 0x11, [], none))

/-- R32, R34, R37 to R40, R316, R317, R449, R468: the feature, local I/O and safety commands. FEATURE_CONFIG of a block that passes
its checks writes it; FEATURE_ENABLE claims the feature's resources in one step, or is refused with the resource and its holder;
FEATURE_DISABLE releases them; in a pair each goes into the record as well. (Model's choices where the manual leaves a point
open: log entries 105, 107.) -/
def Obligations.FeatureAndIoCommands : Prop :=
  (∀ (r : Req) (k n : Byte) (st : Settings) (u : State), Serves (.featureConfig r k n st)
    (fun _ t => applySettings k.toNat n.toNat st t = (0, u))
    fun _ _ => (noteSettings (.settings k n st) u, 0, [], none)) ∧
  (∀ (r : Req) (k n : Byte) (st : Settings) (u : State) (e : BitVec 16), e ≠ 0 → Serves (.featureConfig r k n st)
    (fun _ t => applySettings k.toNat n.toNat st t = (e, u)) fun _ _ => (u, e, [], none)) ∧
  (∀ (r : Req) (k n : Byte), n.toNat < featureCount k.toNat → featureFree k.toNat = true → k.toNat ≠ 0x21 →
    (∀ u, Serves (.featureEnable r k n) (fun _ t => enableFeature k.toNat n.toNat t = (u, none)) fun _ t =>
      (if enabled t k.toNat n.toNat then u else noteSettings (.enable k n true) u, 0, [], none)) ∧
    (∀ u q, Serves (.featureEnable r k n) (fun _ t => enableFeature k.toNat n.toNat t = (u, some q)) fun _ _ =>
      (u, 0x13, [BitVec.ofNat 8 q, (claimAt u q).code, (claimAt u q).inst, 0], none)) ∧
    Serves (.featureDisable r k n) (fun _ _ => True) fun _ t =>
      (noteSettings (.enable k n false) (disableFeature k.toNat n.toNat t), 0, [], none)) ∧
  (∀ (r : Req) (k n : Byte), n.toNat < featureCount k.toNat → Serves (.featureStatus r k n) (fun _ _ => True) fun _ t =>
    (t, 0, [if enabled t k.toNat n.toNat then 1 else 0] ++ statusBlock k.toNat n.toNat t, none)) ∧
  (∀ r, Serves (.resQuery r) (fun _ _ => True) fun _ t =>
    (t, 0, ((List.range 66).flatMap fun n => beBytes 4 (claimWord (claimAt t n))) ++ beBytes 4 (viewRes t 0).toNat ++
      beBytes 4 (viewRes t 4).toNat, none)) ∧
  (∀ r, Serves (.dioStatus r) (fun _ _ => True) fun _ t =>
    (t, 0, beBytes 2 t.dio.inp.toNat ++ [t.dio.outSent, BitVec.ofNat 8 (field (dioFault t).toNat 23 16)] ++
      beBytes 4 (dioFault t).toNat ++ [BitVec.ofNat 8 (dioStatus t / 2 ^ 24)], none)) ∧
  (∀ r b, Serves (.dioConfig r b) (fun _ _ => True) fun _ t => ((dioConfigOp b t).2, (dioConfigOp b t).1, [], none)) ∧
  (∀ r, Serves (.safStatus r) (fun _ _ => True) fun _ t =>
    (t, 0, beBytes 4 (viewSaf t 0).toNat ++ beBytes 2 t.dio.safSwitch.toNat ++ beBytes 4 t.dio.lastDemand.toNat, none))

/-- R42, R46, R318, R319, R352, R600, R611: the cast and register commands. CAST_NOW raises the trigger, which copies the cast registers
or, with a cast held, adds its source bit on the edge of the held trigger and counts a miss after it; CAST_ARM lets the copies go;
CAST_READ, sent to the module or to its supervisor, which owns the cast registers, returns them; REG_READ and REG_WRITE reach the
registers of the unit one after the other. (Model's choices where the manual leaves a point open: log entries 123, 157.) -/
def Obligations.CastAndRegisterCommands : Prop :=
  (∀ r, Serves (.castNow r 0) (fun _ t => t.cast.held = true ∧ sameSupEdge 0 t = false) fun _ t =>
    ({ t with cast.missed := satInc t.cast.missed, cast.missedTotal := satInc t.cast.missedTotal, free := t.free + 1 }, 0, [], none)) ∧
  (∀ r, Serves (.castNow r 0) (fun _ t => t.cast.held = true ∧ sameSupEdge 0 t = true) fun _ t =>
    ({ t with cast.source := t.cast.source ||| 1, free := t.free + 1 }, 0, [], none)) ∧
  (∀ r, Serves (.castNow r 0) (fun _ t => t.cast.held = false) fun _ t =>
    ({ t with cast.held := true, cast.trigAt := t.tsk.tick, cast.source := t.cast.source ||| 1, cast.count := satInc t.cast.count, free := t.free + 1,
              cast.copies := (castCopies t).foldl (fun u e => Tab.set 0 u e.1 e.2) t.cast.copies }, 0, [], none)) ∧
  (∀ r, Serves (.castNow r 1) (fun _ t => inBasin t = false) fun _ t => (t, 0x10, [], none)) ∧
  (∀ r, Serves (.castArm r) (fun _ _ => True) fun _ t =>
    ({ t with cast.held := false, cast.source := 0, cast.missed := 0 }, 0, [], none)) ∧
  (∀ (r : Req) (b : W32) (o n : BitVec 16), blockBase b.toNat = true → 1 ≤ n.toNat → n.toNat ≤ 2047 → o.toNat % 4 = 0 →
    o.toNat + 4 * n.toNat ≤ 0x800 → Serves (.castRead r b o n) (fun c t => (c.unit = none ∨ c.unit = some 0) ∧ t.cast.held = true) fun _ t =>
      (t, 0, beBytes 4 (peek t 0x40000).toNat ++ (List.range n.toNat).flatMap fun k =>
        beBytes 4 (Tab.get 0 t.cast.copies (0x800 * (b.toNat / 65536) + o.toNat + 4 * k)).toNat, none)) ∧
  (∀ (r : Req) (a : W32) (n : BitVec 16), 1 ≤ n.toNat → n.toNat ≤ 2048 →
    Serves (.regRead r a n) (fun c _ => unitReaches c.unit a.toNat n.toNat = true) fun _ t =>
      ((readRegs a.toNat n.toNat t).2, 0, (readRegs a.toNat n.toNat t).1.flatMap fun v => beBytes 4 v.toNat, none)) ∧
  (∀ (r : Req) (a : W32) (n : BitVec 16) (v : List W32), 1 ≤ n.toNat → n.toNat ≤ 2048 → v.length = n.toNat →
    Serves (.regWrite r a n v) (fun c _ => unitReaches c.unit a.toNat n.toNat = true) fun _ t =>
      (writeRegs a.toNat v t, 0, [], none))

/-- R320, R535 to R541: the identity commands. IDENT, ATTEST, CERT_READ and KEY_LIST return what the module holds; KEY_ENROL writes the
key into its slot, with the reply after the write of page 0 of the slot; KEY_REMOVE of a slot in use ends the key and the sessions proved
with it. (Model's choices where the manual leaves a point open: log entries 11, 12, 119, 141.) -/
def Obligations.IdentityCommands : Prop :=
  (∀ r, Serves (.ident r) (fun _ _ => True) fun _ t =>
    (t, 0, padTo 16 (ascii (if Config.coated then "TLH-6424-IT-C" else "TLH-6424-IT")) ++ beBytes 16 Config.serial.toNat ++
      beBytes 6 Config.mac.toNat ++ ((List.range 5).flatMap fun k => beBytes 3 (runVer t k).toNat) ++
      beBytes 3 Config.bootRomVersion.toNat, none)) ∧
  (∀ (r : Req) (n : List Byte), n.length = 32 → Serves (.attest r n) (fun _ _ => True) fun _ t =>
    let m := (List.range 5).flatMap fun k => padTo 64 (sha512 (runHeader t k))
    ({ t with free := t.free + 1 }, 0, padTo 32 n ++ m ++ padTo 3373 (identitySign t.free (beBytes 16 Config.serial.toNat ++ padTo 32 n ++ m)), none)) ∧
  (∀ (r : Req) (k p : Byte), k.toNat ≤ 1 → p.toNat ≤ 2 → Serves (.certRead r k p) (fun _ _ => True) fun _ t =>
    (t, 0, (Config.certificate (decide (k = 1)) p.toNat).take 8192, none)) ∧
  (∀ (r : Req) (i : BitVec 16) (role : Byte) (ed ml : List Byte) (slot : Nat), 1 ≤ role.toNat → role.toNat ≤ 3 → ed.length = 32 →
    ml.length = 1952 → Serves (.keyEnrol r i role ed ml)
      (fun _ t => ((slotOf t i.toNat).orElse fun _ => (List.range 16).find? fun j => !slotInUse t j) = some slot)
      fun _ t =>
        let b := slotImage i.toNat role.toNat ed ml
        let p0 := 256 + 8 * slot
        let u := [1, 2, 3, 4, 5, 6, 7, 0].foldl (fun u j => firmwareWrite (p0 + j) ((b.drop (256 * j)).take 256) u) t
        let u := accession 0 0x0E03 3 (beBytes 2 i.toNat ++ beBytes 1 role.toNat) u
        (u, 0, [], some (if u.depot.pfail then .never else .depot p0))) ∧
  (∀ (r : Req) (i : BitVec 16), Serves (.keyRemove r i) (fun _ t => slotOf t i.toNat = none) fun _ t => (t, 0x10, [], none)) ∧
  (∀ (r : Req) (i : BitVec 16) (slot : Nat), Serves (.keyRemove r i) (fun _ t => slotOf t i.toNat = some slot) fun _ t =>
    let b := depotBytes t (slotBase slot) 256
    let u := firmwareWrite (256 + 8 * slot) (b.take 3 ++ [0] ++ b.drop 4) t
    let u := (u.host.sessions.filter fun x => x.proved && x.keyIdx.toNat = i.toNat).foldl (fun u x => endSession x.ep u) u
    (accession 0 0x0E04 3 (beBytes 2 i.toNat ++ beBytes 1 (slotKey t slot).2) u, 0, [], none)) ∧
  (∀ r, Serves (.keyList r) (fun _ _ => True) fun _ t =>
    let l := (List.range 16).filter (slotInUse t)
    (t, 0, beBytes 2 l.length ++ l.flatMap fun j => beBytes 2 (slotKey t j).1 ++ beBytes 1 (slotKey t j).2, none))

/-- R293, R303, R304: where the request leads nowhere, names a command that the unit does not implement, or carries no parameters of the
command, it is answered with a status, and nothing but the packet count of R604 changes. (Model's choices where the manual leaves a point
open: log entries 32, 33, 154.) -/
def Obligations.RefusalsChangeNothing : Prop :=
  ∀ (whom : ReplyTo) (r : Req) (op : BitVec 16) (body : List Byte ⊕ Instr) (s : State), r.bcast = false → s.sys.boot = .ready →
    (∀ st, placeRequest r op.toNat s = .nowhere st → serveFrom12 whom r op body s = (s, st, [], none)) ∧
    (∀ kind idx u, placeRequest r op.toNat s = .unit kind idx u →
      (known r op.toNat kind = false → serveFrom12 whom r op body s = (s, 0x09, [], none)) ∧
      (known r op.toNat kind = true → bodyCmd r op body = none →
        serveFrom12 whom r op body s = ({ s with sys.cmdCount := satInc s.sys.cmdCount }, 0x01, [], none)))

/-! ## Resets, power and the backup domain -/

/-- R51 to R53, R61, R488, R510, R585, R369, R556: the resets. Each restarts the module with its cause noted; a pin pulse under 10 µs, a
watchdog reset that is not due and an activation whose selector is still being written change nothing; the power-fail warning stops the
depot and, but in the boot ROM, where no SUP runs, writes the log image, the reset that follows, which waits for the depot write unless
VIN is already below the reset threshold, leaves the module off; the role wait ends as the active partner or, where ACT_N went low in it,
as a synchronising standby, and a module that is no partner ends it as it is; start-up then forms the basin or goes on to step 7. (Model's
choices where the manual leaves a point open: log entries 92, 94, 104, 114, 208, 241.) -/
def Obligations.ResetsRestart : Prop :=
  let restarted (s t : State) (cause : BitVec 5) (tick : Tick) : Prop :=
    t.sys.cause = cause ∧ t.tsk.tick = tick ∧ t.sys.asleep = false ∧ t.host.sessions = [] ∧ t.bkd.rtc = s.bkd.rtc
  (∀ env s, ∃ t, exec (.powerOnReset env) s = .next t ∧ restarted s t 1 0 ∧ t.sys.env = env ∧ t.sys.vinGood = true ∧ t.bkd.vin = true) ∧
  (∀ us env s, 10 ≤ us → s.sys.boot ≠ .off →
    ∃ t, exec (.pinReset us env) s = .next t ∧ restarted s t (s.sys.cause ||| 2) s.tsk.tick ∧ t.sys.env = env) ∧
  (∀ us env s, us < 10 ∨ s.sys.boot = .off → exec (.pinReset us env) s = .next s) ∧
  (∀ env s, s.bkd.rstDue = true → s.sys.boot ≠ .off →
    ∃ t, exec (.watchdogReset env) s = .next t ∧ restarted s t (s.sys.cause ||| 4) s.tsk.tick ∧ t.bkd.evRst = true) ∧
  (∀ env s, s.bkd.rstDue = false → exec (.watchdogReset env) s = .next s) ∧
  (∀ s, (s.sys.actPending = true ∨ s.sys.resetPending = true) → s.depot.queue.all (fun w => w.twin.all (·.1 ≠ 0)) = true →
    Tab.get none s.depot.twinNext 0 = none →
    ∃ t, exec .activationReset s = .next t ∧ restarted s t (s.sys.cause ||| 8) s.tsk.tick) ∧
  (∀ s, (∃ w ∈ s.depot.queue, ∃ c, w.twin = some (0, c)) → exec .activationReset s = .next s) ∧
  (∀ s, s.sys.pfail = false → s.sys.vinGood = true → s.sys.boot = .rom → ∃ t, exec .powerFailWarning s = .next (settle t) ∧
    t.sys.pfail = true ∧ t.depot.pfail = true ∧ t.log.image = s.log.image) ∧
  (∀ s, s.sys.pfail = false → s.sys.vinGood = true → s.sys.boot ≠ .off → s.sys.boot ≠ .reset → s.sys.boot ≠ .rom →
    ∃ t, exec .powerFailWarning s = .next (settle t) ∧ t.sys.pfail = true ∧ t.depot.pfail = true ∧ t.depot.waiters = [] ∧
      t.depot.queue = (if s.depot.busy then s.depot.queue.take 1 else []) ∧
      t.log.image = some { recs := s.log.buf, closed := s.log.closed, pending := s.log.pending } ∧ t.tsk = s.tsk ∧ t.scan = s.scan) ∧
  (∀ s, s.sys.pfail = true → s.depot.busy = true → exec (.powerFailReset false) s = .next s) ∧
  (∀ low s, s.sys.pfail = true → s.sys.boot ≠ .off → low = true ∨ s.depot.busy = false →
    ∃ t, exec (.powerFailReset low) s = .next t ∧ t.sys.boot = .off ∧ t.sys.cause = s.sys.cause ∧ t.sys.vinGood = false ∧
      t.host.sessions = [] ∧ t.scan.served = none ∧ t.tsk.mode = .stop ∧ (s.iod.powered = true → t.iod.out = 0)) ∧
  (∀ s, s.sys.boot = .roleWait → s.red.pairEn = true →
    let top := match s.red.epochHeard with
      | some h => if epochHigher h s.red.epoch then h else s.red.epoch
      | none => s.red.epoch
    ∃ t, exec .roleWaitExpiry s = .next t ∧ t.sys.boot = (if s.pas.ring = 1 then .forming else .step7) ∧
      ((drawBool s).1 = false → t.red.role = 1 ∧ t.red.actDrv = true ∧ t.red.epoch = top + 1) ∧
      ((drawBool s).1 = true → t.red.role = 2 ∧ t.red.actIn = false ∧ t.red.epoch = s.red.epoch)) ∧
  (∀ s, s.sys.boot = .roleWait → s.red.pairEn = false → ∃ t, exec .roleWaitExpiry s = .next t ∧ t.red.role = s.red.role ∧
    t.sys.boot = if s.pas.ring = 1 then .forming else .step7) ∧
  (∀ s, s.sys.boot ≠ .roleWait → exec .roleWaitExpiry s = .next s)

/-- R472 to R484: the backup domain. BKD_RESET and the supply and crystal events set OSF and its causes, and a crystal that stops holds
the readings of the clock; a commit loads the counter and clears them; the trim takes its step at the end of its period, at an edge at
which the watchdog counter advances too; sleep needs STOP and SIMPLEX; a wake source ends sleep with its bit of the wake cause; a firing
of the periodic wake starts the next interval, drives PWRON and counts a firing that finds PWRON driven. (Model's choices where the manual
leaves a point open: log entry 30.) -/
def Obligations.BackupDomainRows : Prop :=
  (∀ vin s, exec (.bkdSupplyChangeover vin) s = .next { s with bkd.vin := vin }) ∧
  (∀ s, ∃ t, exec .bkdReset s = .next t ∧ t = { s with bkd := t.bkd } ∧ t.bkd.rtc = 0 ∧ t.bkd.osf = true ∧ t.bkd.first = true ∧
    t.bkd.wakeN = 0 ∧ t.bkd.pwron = false ∧ t.bkd.vin = s.bkd.vin ∧ t.bkd.evValid = false ∧ t.bkd.trim = 0) ∧
  (∀ s, exec .vbatBrownout s = .next (if s.bkd.vin then s else { s with bkd.osf := true, bkd.bor := true })) ∧
  (∀ s, exec .crystalStop s = .next { (if s.bkd.running then holdClock 8 s else s) with bkd.running := false, bkd.osf := true, bkd.stop := true }) ∧
  (∀ s, exec .crystalRestart s = .next { s with bkd.running := true }) ∧
  (∀ s, exec .rtcCommit s = .next { s with
    bkd.rtc := (s.bkd.setSec ++ s.bkd.setFrac : BitVec 47), bkd.hold := 0, bkd.trimAcc := 0, bkd.wakeLeft := 128 * s.bkd.wakeN.toNat,
    bkd.osf := false, bkd.first := false, bkd.stop := false, bkd.bor := false }) ∧
  (∀ s, exec .sleep s = .next (if s.tsk.mode = .stop ∧ s.red.role = 0 then { s with sys.asleep := true } else { s with bkd.sleepRef := true })) ∧
  (∀ (k : BitVec 2) s, exec (.wakeFromSleep k) s = .next (if s.sys.asleep then
    { s with sys.asleep := false, bkd.wakeCause := s.bkd.wakeCause ||| BitVec.ofNat 4 (2 ^ k.toNat) } else s)) ∧
  (∀ s, s.bkd.wakeN ≠ 0 → exec .wakeFiring s = .next { s with
    sys.asleep := false, bkd.wakeLeft := 128 * s.bkd.wakeN.toNat, bkd.wakeCause := s.bkd.wakeCause ||| 1, bkd.pwron := true,
    bkd.wakeOvr := if s.bkd.pwron then satInc s.bkd.wakeOvr else s.bkd.wakeOvr }) ∧
  (∀ s, s.bkd.wakeN = 0 → exec .wakeFiring s = .next s) ∧
  (∀ s, s.bkd.running = true → s.bkd.trim.toInt < 0 →
    exec .rtcTrimStep s = .next { s with bkd := wdtEdge { s.bkd with hold := s.bkd.trim.toInt.natAbs - 1, trimAcc := 0 } }) ∧
  (∀ s, s.bkd.running = true → 0 ≤ s.bkd.trim.toInt →
    exec .rtcTrimStep s = .next { s with bkd := wdtEdge { s.bkd with
      hold := 0, trimAcc := 0, rtc := s.bkd.rtc + BitVec.ofNat 47 (1 + s.bkd.trim.toNat), wakeLeft := s.bkd.wakeLeft - (1 + s.bkd.trim.toNat) } }) ∧
  (∀ b, (wdtEdge b).c = (if b.wdtEn = true ∧ b.cStop = false ∧ b.vin = true ∧ b.c.toNat < b.periodNow.toNat then b.c + 1 else b.c) ∧
    wdtEdge b = { b with c := (wdtEdge b).c })

/-- R485 to R495: the watchdog. EN starts a window and only the key pair clears it, unless LOCK is set; a service in the window starts the
next one, after the armed slots of the closing window without a check-in are marked and counted as missed and, with SLOT_ACT, have made
one expiry whose evidence holds the maps of that window; one before WOPEN, and a count that reaches PERIOD, expire it: ACT_N is released,
the first evidence is kept, the expiry is counted and the cast raised, and with RST_EN the counter stops and a watchdog reset follows.
(Model's choices where the manual leaves a point open: log entries 57, 58, 159.) -/
def Obligations.WatchdogRows : Prop :=
  let expired (s t : State) (cause : BitVec 4) : Prop :=
    t.red.actDrv = false ∧ t.bkd.expired = true ∧ t.bkd.expCount = satInc s.bkd.expCount ∧ t.bkd.evValid = true ∧
    (s.bkd.evValid = false → t.bkd.evCause = cause ∧ t.bkd.evTick = s.bkd.rtc ∧ t.bkd.evArmed = s.bkd.armed ∧ t.bkd.evSeen = s.bkd.seen) ∧
    (s.bkd.evValid = true → t.bkd.evCause = s.bkd.evCause ∧ t.bkd.evTick = s.bkd.evTick) ∧
    (s.cast.held = false → t.cast.held = true) ∧
    (s.bkd.rstEn = true → t.bkd.cStop = true ∧ t.bkd.rstDue = true) ∧
    (s.bkd.rstEn = false → t.bkd.cStop = false ∧ t.bkd.c = 0)
  (∀ s, s.bkd.wdtEn = true → exec .wdtEnable s = .next s) ∧
  (∀ s, s.bkd.wdtEn = false → ∃ t, exec .wdtEnable s = .next t ∧ t = { s with bkd := t.bkd } ∧ t.bkd.wdtEn = true ∧ t.bkd.c = 0 ∧
    t.bkd.cStop = false ∧ t.bkd.seen = 0 ∧ t.bkd.periodNow = s.bkd.period) ∧
  (∀ s, exec .wdtLock s = .next (touchSettings { s with bkd.wdtLock := true })) ∧
  (∀ s, s.bkd.wdtEn = true → s.bkd.cStop = false → s.bkd.wopenNow.toNat ≤ s.bkd.c.toNat → s.bkd.slotAct = false →
    ∃ t, exec .wdtService s = .next t ∧ t.bkd.c = 0 ∧ t.bkd.lastSvc = s.bkd.rtc ∧ t.bkd.seen = 0 ∧ t.bkd.periodNow = s.bkd.period ∧
      t.bkd.expCount = s.bkd.expCount ∧ t.bkd.rstDue = s.bkd.rstDue) ∧
  (∀ s, s.bkd.wdtEn = true → s.bkd.cStop = false → s.bkd.wopenNow.toNat ≤ s.bkd.c.toNat → Rising s.bkd.missCnt →
    let missed (n : Nat) : Bool := enabled s 0x02 0 && s.bkd.armed.getLsbD n && !s.bkd.seen.getLsbD n
    ∃ t, exec .wdtService s = .next t ∧ t.bkd.lastSvc = s.bkd.rtc ∧ t.bkd.seen = 0 ∧
      (∀ n < 32, t.bkd.missedMap.getLsbD n = (s.bkd.missedMap.getLsbD n || missed n) ∧
        Tab.get 0 t.bkd.missCnt n = if missed n then satInc (Tab.get 0 s.bkd.missCnt n) else Tab.get 0 s.bkd.missCnt n) ∧
      ((∀ n < 32, missed n = false) → t.bkd.expCount = s.bkd.expCount ∧ t.log = s.log ∧ t.bkd.c = 0) ∧
      (s.bkd.slotAct = true → (∃ n < 32, missed n = true) → expired s t 3)) ∧
  (∀ s, s.bkd.wdtEn = true → s.bkd.cStop = false → s.bkd.c.toNat < s.bkd.wopenNow.toNat →
    ∃ t, exec .wdtService s = .next t ∧ expired s t 2 ∧ t.bkd.violCount = satInc s.bkd.violCount) ∧
  (∀ s, s.bkd.wdtEn = false ∨ s.bkd.cStop = true → exec .wdtService s = .next s ∧ exec .wdtTimeout s = .next s) ∧
  (∀ s, s.bkd.wdtEn = true → s.bkd.cStop = false → s.bkd.vin = true → ∃ t, exec .wdtTimeout s = .next t ∧ expired s t 1) ∧
  (∀ s, s.bkd.wdtEn = true → s.bkd.cStop = false → s.bkd.vin = true →
    exec .wdtWindowOpen s = .next { s with
      sys.asleep := false, bkd.c := if s.bkd.c.toNat < s.bkd.wopenNow.toNat then s.bkd.wopenNow else s.bkd.c,
      bkd.wakeCause := if s.sys.asleep then s.bkd.wakeCause ||| 2 else s.bkd.wakeCause }) ∧
  (∀ s, s.bkd.keyPend = false → exec (.wdtKeyWrite 0x6A17) s = .next { s with bkd.keyPend := true }) ∧
  (∀ s, s.bkd.keyPend = true → exec (.wdtKeyWrite 0x6A17) s = .next { s with bkd.keyPend := false, bkd.keyErr := true }) ∧
  (∀ s, s.bkd.keyPend = false → exec (.wdtKeyWrite 0x95E8) s = .next { s with bkd.keyErr := true }) ∧
  (∀ s, s.bkd.keyPend = true → s.bkd.wdtLock = false →
    exec (.wdtKeyWrite 0x95E8) s = .next { s with bkd.keyPend := false, bkd.wdtEn := false }) ∧
  (∀ s, s.bkd.wdtLock = true → exec (.wdtKeyWrite 0x95E8) s = .next { s with bkd.keyPend := false, bkd.keyErr := true }) ∧
  (∀ k s, k ≠ 0x6A17 → k ≠ 0x95E8 → exec (.wdtKeyWrite k) s = .next { s with bkd.keyPend := false, bkd.keyErr := true }) ∧
  (∀ s, exec .wdtKeyLapse s = .next (if s.bkd.keyPend then { s with bkd.keyPend := false, bkd.keyErr := true } else s))

/-! ## Ticks, tasks and segments -/

/-- R54, R71, R84 to R90, R94 to R97, R107: the tick edge advances the tick while the control die is powered and awake, and in start-up
ends the step in progress. At the edge of a quiet module alone each INPUT point of the image takes its input buffer, which the edge leaves
as it was where no field port, GPIO or pass region gives it anything, every other point stays, and the OUTPUT points go to the output
buffers. A release takes the committed state as its view; a commit writes what the task wrote to the points it may write and leaves the
others; an overrun commits nothing. GUARD_EDGE marks a finished task and counts an overrun of one that has not finished; RUN_START_TICK
enters RUN, but where a STOP takes effect at its tick (the model's choice: log entry 177) or the other partner decides. (Model's choices
where the manual leaves a point open: log entries 28, 29, 56, 70, 92, 94, 165, 177.) -/
def Obligations.TickRows : Prop :=
  (∀ inp s, s.sys.asleep = true ∨ s.sys.boot = .off ∨ s.sys.boot = .reset → exec (.tickEdge inp) s = .next (settle s)) ∧
  (∀ inp s, s.sys.asleep = false → s.sys.boot ≠ .off → s.sys.boot ≠ .reset →
    ∃ t, exec (.tickEdge inp) s = .next (settle t) ∧ t = startGoesOn (tickEdge inp s) ∧
      t.tsk.tick = s.tsk.tick + 1 ∧ t.sys.upTicks = s.sys.upTicks + 1) ∧
  (∀ s, (s.sys.boot = .step3 → (startGoesOn s).sys.boot = .step4) ∧ (s.sys.boot = .step4 → (startGoesOn s).sys.boot = .step5) ∧
    (s.sys.boot = .step5 → (startGoesOn s).sys.boot = .step6) ∧ (s.sys.boot = .step7 → (startGoesOn s).sys.boot = .ready) ∧
    (s.sys.boot = .ready → startGoesOn s = s)) ∧
  (∀ inp s, EdgeQuiet s → s.tsk.writes = [] →
    ∃ t, exec (.tickEdge inp) s = .next (settle t) ∧
      (∀ a, Tab.get false t.tsk.bits a = if isInput (bitRegion s a) then Tab.get false t.tsk.inBits a else Tab.get false s.tsk.bits a) ∧
      (∀ a, Tab.get 0 t.tsk.words a = if isInput (wordRegion s a) then Tab.get 0 t.tsk.inWords a else Tab.get 0 s.tsk.words a) ∧
      (∀ a, Tab.get false t.tsk.outBits a = if isOutput (bitRegion s a) then Tab.get false t.tsk.bits a else false) ∧
      (∀ a, Tab.get 0 t.tsk.outWords a = if isOutput (wordRegion s a) then Tab.get 0 t.tsk.words a else 0) ∧
      ((∀ p < 6, enabled s 0x25 p = false ∧ (ser s p).closing = [] ∧ (ser s p).rs485 = none ∧ (ser s p).can = none) →
        s.ports.fld.nodes = [] → inBasin s = false → s.pas.freshEn = false →
        t.tsk.inBits = s.tsk.inBits ∧ t.tsk.inWords = s.tsk.inWords)) ∧
  (∀ n s, Rising s.tsk.tasks →
    let t := releaseTask n s
    (task t n).st = .ready ∧ (task t n).lt = s.tsk.tick ∧ (task t n).due = addTicks s.tsk.tick.toNat (deadlineOf (taskDef s n)) ∧
    (task t n).bank = s.prog.active ∧ (∀ a, viewBit t n a = Tab.get false s.tsk.bits a) ∧ (∀ a, viewWord t n a = Tab.get 0 s.tsk.words a) ∧
    t.tsk.bits = s.tsk.bits ∧ t.tsk.words = s.tsk.words ∧ ∀ k ≠ n, task t k = task s k) ∧
  (∀ n s ed, Rising s.tsk.tasks → Rising s.tsk.bits → Rising s.tsk.words → Rising (task s n).ownBits → Rising (task s n).ownWords →
    let t := (commitTask n (s, ed)).1
    (∀ a, Tab.get false t.tsk.bits a =
      if committable (bitRegion s a) n then (Tab.get none (task s n).ownBits a).getD (Tab.get false s.tsk.bits a) else Tab.get false s.tsk.bits a) ∧
    (∀ a, Tab.get 0 t.tsk.words a =
      if committable (wordRegion s a) n then (Tab.get none (task s n).ownWords a).getD (Tab.get 0 s.tsk.words a) else Tab.get 0 s.tsk.words a) ∧
    (task t n).st = .idle ∧ (task t n).ovrConsec = 0 ∧ (commitTask n (s, ed)).2.done = ed.done ++ [n]) ∧
  (∀ n s, Rising s.tsk.tasks → released (task s n) = true → field (relDef s n).cfg.toNat 23 16 = 0 →
    let t := overrun n s
    t.tsk.bits = s.tsk.bits ∧ t.tsk.words = s.tsk.words ∧ (task t n).ovrTotal = satInc (task s n).ovrTotal ∧
    ((relDef s n).cfg.getLsbD 27 = false → (task t n).st = .idle ∧ (task t n).ownBits = [] ∧ (task t n).ownWords = []) ∧
    ((relDef s n).cfg.getLsbD 27 = true → (task s n).ext = false → kindOf (relDef s n) = 0 →
      (task t n).st = (task s n).st ∧ (task t n).due = addTicks (task s n).due (periodOf (relDef s n)) ∧ (task t n).ext = true)) ∧
  (∀ (n : BitVec 5) s, s.sys.asleep = false → s.sys.boot ≠ .off → s.sys.boot ≠ .reset → stopsAt (s.tsk.tick + 1) s = false →
    s.tsk.disables = [] →
    s.red.role = 0 →
    let due (k : Nat) := released (task s k) = true ∧ kindOf (relDef s k) ≠ 2 ∧ (task s k).guarded = false ∧
      (task s k).due = addTicks (s.tsk.tick + 1).toNat 2
    (due n.toNat → (∀ k < 32, k ≠ n.toNat → ¬ due k) →
      ((task s n.toNat).st = .done → exec (.guardEdge n) s = .next (updTask n.toNat (fun t => { t with guarded := true }) s)) ∧
      ((task s n.toNat).st ≠ .done → exec (.guardEdge n) s = .next (atTick (s.tsk.tick + 1) (overrun n.toNat) s))) ∧
    (¬ due n.toNat → exec (.guardEdge n) s = .next s)) ∧
  (∀ s, exec .runStartTick s = .next (if s.tsk.runAt = some (s.tsk.tick + 1) ∧ stopsAt (s.tsk.tick + 1) s = false ∧
      decides (s.tsk.tick + 1) s = true then { s with
      tsk.mode := .run,
      tsk.tasks := if s.tsk.mode = .stop then s.tsk.tasks.map (fun e => (e.1, { e.2 with fullK := true })) else s.tsk.tasks }
    else s))

/-- R130, R133, R134, R137, R141, R236: what happens to a run between instructions. The oldest run commits its journal into the view of its
task when it has ended, and a commit makes each other run of the task that has read one of the grains restart; a stalled one enters direct mode and a suspended one leaves its core with its context, both by a commit
first; a journal that does not fit the quota overruns the task; a trap of the oldest run faults it. A run that is not the oldest
waits.
(Model's choices where the manual leaves a point open: log entry 19.) -/
def Obligations.SegmentRows : Prop :=
  ∀ c s r, (Machine.core s c).run = some r → Rising s.tsk.tasks → Rising s.scan.cores →
    (isOldest s c = false → exec (.segmentCommit c) s = .next s ∧ exec (.directModeEntry c) s = .next s ∧
      (r.suspend = false → exec (.segmentSuspend c) s = .next s) ∧ exec (.trapAbandon c) s = .next s) ∧
    (isOldest s c = true → r.ended = true → slotsFit s r.task r.journal = true →
      ∃ t, exec (.segmentCommit c) s = .next t ∧ ViewTakes s t r.task r.journal ∧ t.scan.runCount = satInc s.scan.runCount ∧
        t.tsk.bits = s.tsk.bits ∧ t.tsk.words = s.tsk.words) ∧
    (isOldest s c = true → r.stalled = true → r.suspend = false → slotsFit s r.task r.journal = true →
      ∃ t, exec (.directModeEntry c) s = .next t ∧ ViewTakes s t r.task r.journal ∧
        (Machine.core t c).run = some { r with journal := [], stalled := false, direct := true, icount := 0 } ∧
        ∀ d < 9, d ≠ c → ∀ r', (Machine.core s d).run = some r' → r'.task = r.task →
          (Machine.core t d).run = some (if r'.readMap.any (fun g => (r.journal.map jGrain).contains g) then freshRun s r.task r'.seg else r')) ∧
    (r.suspend = true → r.supWait = false → (∀ p, r.rep = some p → p.interruptible = true) → slotsFit s r.task r.journal = true →
      ∃ t, exec (.segmentSuspend c) s = .next (giveCluster t) ∧ ViewTakes s t r.task r.journal ∧ (Machine.core t c).run = none ∧
        (task t r.task).ctx = some (match r.rep with
          | none => { r with journal := [], readMap := [], suspend := false, icount := 0 }
          | some p => { r with journal := [], readMap := [], suspend := false, icount := 0, pc := p.prefixPc, rep := none, resumed := true })) ∧
    (isOldest s c = true → slotsFit s r.task r.journal = false → released (task s r.task) = true →
      (r.ended = true → ∃ t, exec (.segmentCommit c) s = .next (giveCluster t) ∧ released (task t r.task) = false ∧
        (task t r.task).ovrTotal = satInc (task s r.task).ovrTotal ∧ t.tsk.bits = s.tsk.bits ∧ t.tsk.words = s.tsk.words) ∧
      (r.stalled = true → r.suspend = false → ∃ t, exec (.directModeEntry c) s = .next (giveCluster t) ∧
        released (task t r.task) = false ∧ (task t r.task).ovrTotal = satInc (task s r.task).ovrTotal)) ∧
    (∀ code pc, isOldest s c = true → r.trap = some (code, pc) →
      ∃ t, exec (.trapAbandon c) s = .next t ∧ (task t r.task).st = .faulted ∧ (task t r.task).lastTrap = code ∧
        t.tsk.bits = s.tsk.bits ∧ t.tsk.words = s.tsk.words)

/-- R156 to R158, R606: the faults of the cores and memories. A core that fails is retired, without its run; the loss of the last active
core, and an uncorrectable error of a memory that the scan needs, reset the module with the fatal cause. An error of a change map makes it
read as all ones, one of the write tags clears them, sets RERUN of every pure segment of the active bank and FULL of every task, and one
of the bank that is being built marks it; any other is counted, and so is every single-bit error, which is corrected. (Model's choices
where the manual leaves a point open: log entries 25, 64, 89, 90, 91, 165.) -/
def Obligations.FaultRows : Prop :=
  let on (s : State) : Prop := s.sys.asleep = false ∧ s.sys.boot ≠ .off ∧ s.sys.boot ≠ .reset
  let fatal (s t : State) (code : BitVec 16) : Prop :=
    t.sys.cause = s.sys.cause ||| 16 ∧ t.sys.fatal = some (s.sys.fatal.getD (1, code)) ∧ t.tsk.tick = s.tsk.tick
  (∀ c k s, on s → c < 9 → (Machine.core s c).retired = false → (∃ d < 9, d ≠ c ∧ (Machine.core s d).active = true) →
    (∃ t, exec (.coreFault c k) s = .next t ∧ (Machine.core t c).retired = true ∧ (Machine.core t c).active = false ∧
      (Machine.core t c).run = none ∧ (Machine.core t c).fault.isSome = true) ∧
    exec (.sramUncorrectable (.coreRam c)) s = exec (.coreFault c .ecc) s) ∧
  (∀ c k s, on s → c < 9 → (Machine.core s c).retired = false →
    (∀ d < 9, d ≠ c → (Machine.core s d).active = false ∧ (Machine.core s d).retired = true) →
    ∃ t, exec (.coreFault c k) s = .next t ∧ fatal s t 0x0409) ∧
  (∀ c k s, ¬ on s ∨ 9 ≤ c ∨ (Machine.core s c).retired = true → exec (.coreFault c k) s = .next s) ∧
  (∀ place s, on s → place ∈ [SramPlace.viewStore, .bitImage, .wordImage, .dataMem, .bank false, .segTable, .catTable, .decTable] →
    ∃ t, exec (.sramUncorrectable place) s = .next t ∧ fatal s t 0x0104) ∧
  (∀ s, on s → (s.prog.edit ≠ .building → ∃ t, exec (.sramUncorrectable (.bank true)) s = .next t ∧ fatal s t 0x0104) ∧
    (s.prog.edit = .building → exec (.sramUncorrectable (.bank true)) s =
      .next { s with sys.eccUnc := satInc s.sys.eccUnc, sys.uncorr := s.sys.uncorr ||| 2, prog.shadowEcc := true })) ∧
  (∀ (n : BitVec 5) s, on s →
    (∃ t, exec (.sramUncorrectable (.chg n)) s = .next t ∧ (task t n.toNat).chg.all = true ∧ (task t n.toNat).fullK = true ∧
      t.sys.eccUnc = satInc s.sys.eccUnc) ∧
    (∃ t, exec (.sramUncorrectable (.prev n)) s = .next t ∧ (task t n.toNat).prev.all = true ∧ (task t n.toNat).fullK = true ∧
      t.sys.eccUnc = satInc s.sys.eccUnc)) ∧
  (∀ s, on s → ∃ t, exec (.sramUncorrectable .tags) s = .next t ∧ t.scan.tags = [] ∧ t.sys.eccUnc = satInc s.sys.eccUnc ∧
    (∀ e ∈ t.tsk.tasks, e.2.fullK = true) ∧
    (Rising (activeBank s).segs → ∀ g, segPresent (segEntry (activeBank s) g) = true →
      (segPure (segEntry (activeBank s) g) = true →
        segEntry (activeBank t) g = (segEntry (activeBank s) g ||| BitVec.ofNat 32 (2 ^ 27))) ∧
      (segPure (segEntry (activeBank s) g) = false → segEntry (activeBank t) g = segEntry (activeBank s) g))) ∧
  (∀ (u : BitVec 3) s, on s → exec (.sramUncorrectable (.unit u)) s =
    .next { s with sys.eccUnc := satInc s.sys.eccUnc, sys.uncorr := s.sys.uncorr ||| BitVec.ofNat 6 (2 ^ u.toNat) }) ∧
  (∀ place s, on s → (∀ c, place ≠ .coreRam c) → exec (.sramSingleBitError place) s =
    .next (accession (match place with | .unit u => u.toNat | _ => 1) 0x0407 1 [] { s with sys.eccCorr := satInc s.sys.eccCorr })) ∧
  (∀ c s, on s → c < 9 → exec (.sramSingleBitError (.coreRam c)) s =
    .next (accession 1 0x0407 1 [] (updCore c (fun k => { k with eccCorr := satInc k.eccCorr }) s)))

/-- R256 to R262, R267, R268, R623: the edit. A build that ends in the shadow bank makes the edit BUILT, one that fails FAILED; at the
armed tick the banks change places, the generation rises and the edit drains; the drain ends when no release runs on the previous bank;
the store of the program fills the area that the selector does not name and ends with its twin record; the stored settings go to the
generation that is not in force, which holds them when its last page is written. (Model's choices where the manual leaves a point open:
log entries 26, 29, 64, 68, 96.) -/
def Obligations.EditRows : Prop :=
  (∀ e s, s.prog.edit ≠ .building → exec (.editBuildDone e) s = .next s) ∧
  (∀ e s, s.prog.edit = .building → ∃ t, exec (.editBuildDone e) s = .next t ∧
    (t.prog.edit = .built ∧ t.prog.held = true ∨ t.prog.edit = .failed ∧ t.prog.held = false ∧ t.prog.editErr ≠ 0) ∧
    bankOf t t.prog.active = bankOf s s.prog.active ∧ t.prog.active = s.prog.active ∧ t.tsk = s.tsk) ∧
  (∀ e s, s.prog.edit = .building → e = true ∨ s.prog.shadowEcc = true → ∃ t, exec (.editBuildDone e) s = .next t ∧ t.prog.edit = .failed) ∧
  (∀ s, s.prog.edit = .armed → s.prog.armTick = s.tsk.tick + 1 →
    ∃ t, exec .editTick s = .next t ∧ t.prog.active = (!s.prog.active) ∧ t.prog.gen = s.prog.gen + 1 ∧ t.prog.edit = .draining ∧
      bankOf t s.prog.active = bankOf s s.prog.active ∧ t.prog.storing = true ∧ t.prog.editCount = satInc s.prog.editCount ∧
      t.tsk.bits = s.tsk.bits ∧ t.tsk.words = s.tsk.words) ∧
  (∀ s, s.prog.edit ≠ .armed ∨ s.prog.armTick ≠ s.tsk.tick + 1 → exec .editTick s = .next s) ∧
  (∀ s, s.prog.edit = .draining → s.tsk.tasks.all (fun e => !released e.2 || e.2.bank == s.prog.active) = true →
    ∃ t, exec .editDrainEnd s = .next t ∧ t.prog.edit = .none ∧ t.prog.undoAvail = (!s.prog.undone) ∧ enabled t 0x22 0 = false) ∧
  (∀ s, s.prog.edit = .draining → (∃ e ∈ s.tsk.tasks, released e.2 = true ∧ e.2.bank ≠ s.prog.active) →
    ∃ t, exec .editDrainEnd s = .next t ∧ t.prog.edit = .draining) ∧
  (∀ s, s.prog.storing = true → ∃ t, exec .editStored s = .next t ∧ t.prog.storing = false ∧
    (∃ p : Stored, (if storedSlot s = some false then t.prog.storedB = some p ∧ t.prog.storedA = s.prog.storedA
        else t.prog.storedA = some p ∧ t.prog.storedB = s.prog.storedB) ∧ p.bank.digest = (bankOf s s.prog.active).digest ∧ p.bank.parcels = (bankOf s s.prog.active).parcels ∧
      p.bitReg = s.prog.bitReg ∧ p.wordReg = s.prog.wordReg)) ∧
  (∀ s, s.prog.storing = false → exec .editStored s = .next s) ∧
  (∀ s, s.upd.dirty = true → inTrial s = false → s.sys.boot = .ready → s.upd.storing = none → s.depot.pfail = false → twinEnded 4 s = true →
    ∃ t, exec .settingsStore s = .next t ∧ t.upd.dirty = false ∧ t.upd.storing = some (!(settingsSel s).1, collectStores s) ∧
      t.upd.gen0 = s.upd.gen0 ∧ t.upd.gen1 = s.upd.gen1 ∧ t.depot.twins = s.depot.twins) ∧
  (∀ s, s.upd.dirty = false ∨ inTrial s = true ∨ s.sys.boot ≠ .ready ∨ s.upd.storing.isSome = true ∨ s.depot.pfail = true ∨
      twinEnded 4 s = false → exec .settingsStore s = .next s) ∧
  (∀ s g x, s.upd.storing = some (g, x) → (∀ i < 96, firmwareWaits s (generationPage g + i) = false) →
    let t := finishStoring s
    t.upd.storing = none ∧ (if g then t.upd.gen1 = x ∧ t.upd.gen0 = s.upd.gen0 else t.upd.gen0 = x ∧ t.upd.gen1 = s.upd.gen1) ∧
      (inTrial s = true → t.depot = s.depot))

/-! ## Events of the firmware: log, depot, update -/

/-- R505, R507, R509, R520 to R523, R527, R544, R555, R558, R559: an accession takes the next index and the stamps of its moment; a flush
step moves the oldest buffered record to the flash log, and moves nothing while the log is frozen or the supply fails; a page that is
written reads wholly new; the write of a twin record gives its copy; the host write that has waited longest is refused; the patrol goes to
the next page, of those written at most a million times, and refreshes a weak one, which counts when its write has ended; verification
makes a download VALID or INVALID; a trial is confirmed when its checks pass, and ends in a reset when its window does. (Model's choices
where the manual leaves a point open: log entries 25, 113.) -/
def Obligations.FirmwareEvents : Prop :=
  (∀ unit code sev data s, s.log.buf.length < 2048 → s.pas.head = false →
    let t := accession unit code sev data s
    let a : Acc := { index := s.log.next, code := BitVec.ofNat 16 code, sev := BitVec.ofNat 3 sev, unit := BitVec.ofNat 8 unit,
                     rtc := s.bkd.rtc, tick := s.tsk.tick, data := data }
    t.log = { s.log with next := s.log.next + 1, intake := satInc s.log.intake, buf := s.log.buf ++ [a] }) ∧
  (∀ s, flushes s = false ∨ s.sys.pfail = true ∨ s.log.frozen = true ∨ s.log.image.isSome = true → exec .flushStep s = .next s) ∧
  (∀ s a l, flushes s = true → s.sys.pfail = false → s.log.frozen = false → s.log.image = none → s.log.pending = none →
    s.log.closed = none → s.log.buf = a :: l → s.log.flash.length < 1048576 →
    ∃ t, exec .flushStep s = .next t ∧ t.log.buf = l ∧ t.log.flash = s.log.flash ++ [a] ∧ t.log.flushed = satInc s.log.flushed ∧
      t.log.next = s.log.next ∧ t.log.lost = s.log.lost ∧ t.tsk = s.tsk) ∧
  (∀ s, s.log.frozen = false → exec .freezeExpired s = .next s) ∧
  (∀ s, s.log.frozen = true → ∃ t, exec .freezeExpired s = .next t ∧ t.log.frozen = false ∧ t.log.freezer = none) ∧
  (∀ s w q, s.depot.busy = true → s.depot.queue = w :: q → w.twin = none → 256 ≤ w.page → s.red.role = 0 → Rising s.depot.bytes →
    Rising s.depot.bad → Tab.get 0 s.depot.wear w.page < 1000000 → (∀ p c, DepSrc.record p c ∉ w.srcs) → w.srcs ≠ [.refresh] →
    s.upd.storing = none → s.upd.saveDue = none → s.depot.due = [] →
    ∃ t, exec .pageWriteDone s = .next (settle t) ∧ t.depot.queue = q ∧ t.depot.busy = !q.isEmpty ∧
      t.depot.writes = satInc s.depot.writes ∧ Tab.range 0 t.depot.bytes (256 * w.page) 256 = padTo 256 w.data ∧
      Tab.get 0 t.depot.bad w.page = 0 ∧
      (∀ a, a < 256 * w.page ∨ 256 * w.page + 256 ≤ a → Tab.get 0 t.depot.bytes a = Tab.get 0 s.depot.bytes a)) ∧
  (∀ s w q k c, s.depot.busy = true → s.depot.queue = w :: q → w.twin = some (k, c) → Tab.get none s.depot.twinNext k = none →
    Rising s.depot.twins → Tab.get 0 s.depot.wear w.page < 1000000 → (∀ p c, DepSrc.record p c ∉ w.srcs) → w.srcs ≠ [.refresh] →
    s.upd.storing = none → s.upd.saveDue = none → s.depot.due = [] →
    ∃ t, exec .pageWriteDone s = .next (settle t) ∧ t.depot.queue = q ∧ t.depot.writes = satInc s.depot.writes ∧
      (w.page % 2 = 0 → (Tab.get {} t.depot.twins k).a = c ∧ (Tab.get {} t.depot.twins k).b = (Tab.get {} s.depot.twins k).b) ∧
      (w.page % 2 ≠ 0 → (Tab.get {} t.depot.twins k).b = c ∧ (Tab.get {} t.depot.twins k).a = (Tab.get {} s.depot.twins k).a)) ∧
  (∀ s, s.depot.busy = false → exec .pageWriteDone s = .next (settle s)) ∧
  (∀ s pre whom p post, s.depot.waiters = pre ++ .host whom p :: post → (∀ w ∈ pre, ∀ whom p, w ≠ .host whom p) →
    exec .depotBusyTimeout s = .next (settle { s with depot.waiters := pre ++ post })) ∧
  (∀ weak corrected s, flushes s = true → s.depot.queue = [] → Tab.get 0 s.depot.bad s.depot.patrol.toNat = 0 →
      Tab.get 0 s.depot.soft s.depot.patrol.toNat = 0 → Tab.get 0 s.depot.wear s.depot.patrol.toNat ≤ 1000000 → Rising s.depot.soft → s.depot.due = [] →
    ∃ t, exec (.patrolRead weak corrected) s = .next t ∧ t.depot.patrol = s.depot.patrol + 1 ∧
      t.depot.corrected = satAdd s.depot.corrected (badGroups corrected) ∧ t.depot.bytes = s.depot.bytes ∧
      ((weak ||| corrected) = 0 → t.depot.queue = []) ∧
      ((weak ||| corrected) ≠ 0 → s.depot.pfail = false → t.depot.busy = true ∧
        ∃ w, t.depot.queue = [w] ∧ w.page = s.depot.patrol.toNat ∧ w.srcs = [.refresh] ∧ w.data = storedBytes s s.depot.patrol.toNat)) ∧
  (∀ s w, w.srcs = [.refresh] → Tab.get 0 s.depot.wear w.page < 1000000 →
    let t := storePage w s
    t.depot.refreshed = satInc s.depot.refreshed ∧ t.depot.writes = satInc s.depot.writes ∧ t.depot.bytes = s.depot.bytes ∧
      t.depot.twins = s.depot.twins ∧ t.depot.fw = s.depot.fw) ∧
  (∀ s k, verifyingPart s = some k → Rising s.upd.parts →
    ∃ t, exec .verificationEnd s = .next (settle t) ∧ t.upd.openPart = none ∧
      (idleSlot (partOf t k)).st = (if payloadOk (idleSlot (partOf s k)) then .valid else .invalid) ∧
      runSlot (partOf t k) = runSlot (partOf s k)) ∧
  (∀ s, verifyingPart s = none → exec .verificationEnd s = .next s) ∧
  (∀ s, canConfirm s = true → s.upd.mode = false → ∃ t, exec .updAutoConfirm s = .next t ∧ (s.depot.pfail = false → Rising s.depot.twinNext → Tab.get none s.depot.twinNext 1 = none → trialCount t = 0) ∧ t.upd.windowEnd = 0 ∧
    (∀ e ∈ t.upd.parts, e.2.a.st ≠ .trial ∧ e.2.b.st ≠ .trial) ∧ t.tsk = s.tsk ∧ t.prog = s.prog) ∧
  (∀ s, canConfirm s = false ∨ s.upd.mode = true → exec .updAutoConfirm s = .next s) ∧
  (∀ s, inTrial s = true → s.sys.actPending = false → supRuns s = true → ∃ t, exec .updTrialExpired s = .next t ∧
    t.sys.cause = s.sys.cause ||| 8 ∧ t.tsk.tick = s.tsk.tick ∧ t.host.sessions = []) ∧
  (∀ s, inTrial s = false ∨ s.sys.actPending = true ∨ supRuns s = false → exec .updTrialExpired s = .next s) ∧
  (∀ s, exec .authLockoutEnd s = .next { s with upd.lockout := false, upd.lockEnd := 0 })

/-! ## Writes of single register bits, pins and check values -/

/-- R33, R34, R42, R46, R410, R414, R428, R430 to R432, R436, R437, R342, R344, R350, R361, R75: the rows that a write of one bit or one
entry stands for, and the edges of the pins. An enable bit claims every resource of its feature in one step, or is refused; a feature that
is enabled is no longer enabled when its bit is cleared. A cast latches once, and then counts what it misses. A check-value channel works
through 4,096 words between two edges. A publication that the head takes is stored, and one that it refuses has VALID 0 and is not. A
publication, subscription or event of an active partner goes into the record. A PPS pulse ends once its width has run. The timebase takes
the first source that is available, locks within 1 µs and loses its lock beyond 10 µs. (Model's choices where the manual leaves a point
open: log entries 36, 85, 93, 106, 123, 211, 225, 227.) -/
def Obligations.RegisterEvents : Prop :=
  let byBit (code inst : Byte) : Prop := code ∈ [0x10, 0x12, 0x13, 0x14, 0x26] ∧ featureKnown code.toNat inst.toNat = true
  (∀ code inst s, byBit code inst → enabled s code.toNat inst.toNat = false → contested s code.toNat (featureRes s code.toNat inst.toNat) = none →
    ∃ t, exec (.enableBitWrite code inst) s = .next t ∧ enabled t code.toNat inst.toNat = true ∧
      (∀ n ∈ featureRes s code.toNat inst.toNat, (claimAt t n).code = code) ∧ t.res.conflict = s.res.conflict ∧ t.upd.dirty = true) ∧
  (∀ code inst s n, byBit code inst → enabled s code.toNat inst.toNat = false →
    contested s code.toNat (featureRes s code.toNat inst.toNat) = some n →
    ∃ t, exec (.enableBitWrite code inst) s = .next t ∧ enabled t code.toNat inst.toNat = false ∧ t.res.claims = s.res.claims ∧
      t.res.conflict = true ∧ t.res.count = satInc s.res.count ∧
      (s.res.conflict = false → t.res.confRes = BitVec.ofNat 8 n ∧ t.res.confFeat = (claimAt s n).code ∧ t.res.reqFeat = code)) ∧
  (∀ code inst s, byBit code inst → enabled s code.toNat inst.toNat = true →
    ∃ t, exec (.enableBitClear code inst) s = .next t ∧ enabled t code.toNat inst.toNat = false ∧ t.tsk = s.tsk) ∧
  (∀ inst s, exec (.enableBitWrite 3 inst) s = .next { s with red.pairNext := true, upd.dirty := true } ∧
    exec (.enableBitClear 3 inst) s = .next { s with red.pairNext := false, upd.dirty := true }) ∧
  (∀ s, s.cast.held = false → ∃ t, exec .castTriggerWrite s = .next t ∧ t.cast.held = true ∧ t.cast.source = s.cast.source ||| 1 ∧
    t.cast.count = satInc s.cast.count ∧ t.tsk = s.tsk ∧ t.res = s.res) ∧
  (∀ s, s.cast.held = true → s.cast.trigAt ≠ s.tsk.tick → exec .castTriggerWrite s = .next { s with
    cast.missed := satInc s.cast.missed, cast.missedTotal := satInc s.cast.missedTotal, free := s.free + 1 }) ∧
  (∀ s, s.cast.held = true → s.cast.trigAt = s.tsk.tick → ∃ t, exec .castTriggerWrite s = .next t ∧
    ((t.cast.source = s.cast.source ||| 1 ∧ t.cast.missed = s.cast.missed) ∨
     (t.cast.source = s.cast.source ∧ t.cast.missed = satInc s.cast.missed))) ∧
  (∀ s, exec .castCtrlArm s = .next { s with cast.held := false, cast.source := 0, cast.missed := 0 }) ∧
  (∀ ns s, enabled s 0x21 0 = true → 1000 ≤ ns → s.cast.held = false → ∃ t, exec (.castInEdge ns) s = .next t ∧
    t.cast.held = true ∧ t.cast.source = s.cast.source ||| 16 ∧ t.cast.count = satInc s.cast.count) ∧
  (∀ ns s, enabled s 0x21 0 = false ∨ ns < 1000 → exec (.castInEdge ns) s = .next s) ∧
  (∀ (ch : BitVec 2) value p s, crcOpen s ch.toNat = true → crcPreset (field value.toNat 15 8) = some p → Rising s.ports.crc →
    ∃ t, exec (.crcPresetLoad ch value) s = .next t ∧ (crcCh t ch.toNat).poly = BitVec.ofNat 64 p.poly ∧
      (crcCh t ch.toNat).init = BitVec.ofNat 64 p.init ∧ (crcCh t ch.toNat).xor = BitVec.ofNat 64 p.xorout ∧
      (crcCh t ch.toNat).refin = p.refin ∧ (crcCh t ch.toNat).refout = p.refout ∧
      (crcCh t ch.toNat).widthM1 = BitVec.ofNat 6 (p.width - 1) ∧ (∀ k ≠ ch.toNat, crcCh t k = crcCh s k)) ∧
  (∀ ch value s, crcOpen s ch.toNat = false → exec (.crcPresetLoad ch value) s = .next s) ∧
  (∀ (ch : BitVec 2) s, let c := crcCh s ch.toNat
    (c.busy = true → enabled s 0x26 ch.toNat = true → c.done ≤ c.count.toNat → 4096 < c.count.toNat - c.done →
      ∃ t, exec (.userCrcChunk ch) s = .next t ∧ (crcCh t ch.toNat).done = c.done + 4096 ∧ (crcCh t ch.toNat).busy = true ∧
        (crcCh t ch.toNat).res = c.res ∧ t.tsk = s.tsk) ∧
    (c.busy = true → enabled s 0x26 ch.toNat = true → c.done ≤ c.count.toNat → c.count.toNat - c.done ≤ 4096 → c.mode = 0 → Rising s.ports.crc →
      ∃ t, exec (.userCrcChunk ch) s = .next t ∧ (crcCh t ch.toNat).busy = false ∧ t.tsk = s.tsk ∧
        (crcCh t ch.toNat).res = BitVec.ofNat 64 (crcFinish (chParams c) (BitVec.ofNat 64
          ((crcBytes s (c.addr.toNat + c.done) (c.count.toNat - c.done)).foldl (crcByte (chParams c)) c.reg.toNat)).toNat)) ∧
    (c.busy = false ∨ enabled s 0x26 ch.toNat = false → exec (.userCrcChunk ch) s = .next s)) ∧
  (∀ (v : W32) s, let g := v.toNat % 2 ^ 16
    (v.getLsbD 31 = false → exec (.healthEnWrite v) s = .next (noteSettings (.register 0xC0004 v) { s with
      ports.fld.grain := BitVec.ofNat 16 g, ports.fld.healthEn := false })) ∧
    (v.getLsbD 31 = true → bitsIn s 1 (64 * g) 4096 = false → exec (.healthEnWrite v) s = .next (noteSettings (.register 0xC0004 v) { s with
      ports.fld.grain := BitVec.ofNat 16 g, ports.fld.healthEn := false, ports.fld.mapErr := true })) ∧
    (v.getLsbD 31 = true → bitsIn s 1 (64 * g) 4096 = true → Rising s.tsk.inBits → ∃ t, exec (.healthEnWrite v) s = .next t ∧
      t.ports.fld.healthEn = true ∧ t.ports.fld.grain = BitVec.ofNat 16 g ∧ t.tsk.bits = s.tsk.bits ∧
      ∀ n < 4096, Tab.get false t.tsk.inBits (64 * g + n) = decide ((node s n).st = .running))) ∧
  (∀ (bit : BitVec 5) data s, Rising s.ports.fld.evts →
    let a := data.toNat % 2 ^ 22
    ∃ t, exec (.fldEvtWrite bit data) s = .next t ∧ t.tsk = s.tsk ∧
      Tab.get (false, 0) t.ports.fld.evts bit.toNat = (data.getLsbD 31 && bitsIn s 1 a 1 && mappedInput s a, BitVec.ofNat 22 a) ∧
      t.ports.fld.mapErr = (s.ports.fld.mapErr || (data.getLsbD 31 && !(bitsIn s 1 a 1 && mappedInput s a)))) ∧
  (∀ (i : BitVec 6) a b s, s.pas.head = false → ∃ t, exec (.pasPubWrite i a b) s = .next t ∧
    t.pas.pubs = s.pas.pubs ∧
    if (pubOf a b).valid = true ∧ pubFits (pubOf a b) = false then
      t.upd = s.upd ∧ t.pas.pubSet = s.pas.pubSet ∧ t.pas.mapErr = true ∧
      Tab.get none t.pas.pubNext i.toNat = some { pubOf a b with valid := false }
    else t.upd.dirty = true ∧ t.pas.pubSet = Tab.set {} s.pas.pubSet i.toNat (pubOf a b) ∧ t.pas.mapErr = s.pas.mapErr ∧
      Tab.get none t.pas.pubNext i.toNat = some (pubOf a b)) ∧
  (∀ (i : BitVec 6) (j : BitVec 7) (e : BitVec 6) a b data s, s.red.role = 1 →
    (∃ t, exec (.pasPubWrite i a b) s = .next t ∧ t.red.items = s.red.items ++ [.settings (.pub i a b)]) ∧
    (∃ t, exec (.pasSubWrite j a b) s = .next t ∧ t.red.items = s.red.items ++ [.settings (.sub j a b)]) ∧
    (∃ t, exec (.pasEvtWrite e data) s = .next t ∧ t.red.items = s.red.items ++ [.settings (.evt e data)])) ∧
  (∀ (i : BitVec 7) a b s, Tab.get none s.pas.known (64 * (Machine.subOf a b).member.toNat + (Machine.subOf a b).region.toNat) = none →
    ∃ t, exec (.pasSubWrite i a b) s = .next t ∧ t.pas.subs = s.pas.subs ∧ Tab.get none t.pas.subNext i.toNat = some (Machine.subOf a b)) ∧
  (∀ (e : BitVec 6) data s, ∃ t, exec (.pasEvtWrite e data) s = .next t ∧ t.pas.evts = s.pas.evts ∧
    Tab.get none t.pas.evtNext e.toNat = some { own := data.getLsbD 31, addr := data.setWidth 22 }) ∧
  (∀ s, exec .ringEnSet s = .next { s with pas.ringEn := true }) ∧
  (∀ s, ∃ t, exec .ringEnClear s = .next t ∧ t.pas.ringEn = false ∧ t.pas.bypass = true ∧ t.pas.eUp = false ∧ t.pas.wUp = false ∧ t.pas.ring = 0) ∧
  (∀ rising ofs s, enabled s 0x20 0 = true → s.ports.tinPin ≠ 0xFF → rising ≠ s.ports.tbFlags.getLsbD 0 →
    (s.tsk.locked = true → 100000 < ofs.toInt.natAbs → exec (.timeInEdge rising ofs) s = .next { s with ports.rejected := s.ports.rejected + 1 }) ∧
    (s.tsk.locked = false ∨ ofs.toInt.natAbs ≤ 100000 →
      let u : State := { s with ports.edges := s.ports.edges + 1, ports.tinUp := true }
      ∃ t, exec (.timeInEdge rising ofs) s = .next t ∧ t.ports = { u.ports with ppsHigh := t.ports.ppsHigh } ∧ t.tsk.activeSrc = pickSource u ∧
        (pickSource u = 2 → t.tsk.offset = sat24 ofs.toInt) ∧
        (pickSource u = 2 → 10000 < (sat24 ofs.toInt).toInt.natAbs → t.tsk.locked = false) ∧
        (pickSource u = s.tsk.activeSrc → pickSource u ≠ 2 → t.tsk = s.tsk))) ∧
  (∀ rising ofs s, enabled s 0x20 0 = false ∨ s.ports.tinPin = 0xFF → exec (.timeInEdge rising ofs) s = .next s) ∧
  (∀ s, (s.ports.ppsWidth.toNat ≤ 10 * (s.sys.upTicks + 1 - s.ports.ppsAt) → exec .ppsPulseEnd s = .next { s with ports.ppsHigh := false }) ∧
    (10 * (s.sys.upTicks + 1 - s.ports.ppsAt) < s.ports.ppsWidth.toNat → exec .ppsPulseEnd s = .next s)) ∧
  (∀ o s, s.tsk.activeSrc ≠ 0 → o.toInt.natAbs ≤ 1000 → ∃ t, exec (.timebaseLock (.locked o)) s = .next t ∧
    t.tsk = { s.tsk with offset := o, locked := true }) ∧
  (∀ o s, s.tsk.activeSrc = 0 ∨ 1000 < o.toInt.natAbs → exec (.timebaseLock (.locked o)) s = .next s) ∧
  (∀ s, s.tsk.locked = true → ∃ t, exec (.timebaseLock .lost) s = .next t ∧ t.tsk.locked = false ∧
    t.tsk.activeSrc = pickSource (loseSource s) ∧ (t.tsk.activeSrc = 0 → t.tsk.offset = 0)) ∧
  (∀ o s, 10000 < o.toInt.natAbs → ∃ t, exec (.timebaseLock (.offsetExceeded o)) s = .next t ∧
    t.tsk = { s.tsk with offset := o, locked := false }) ∧
  (∀ o s, o.toInt.natAbs ≤ 10000 → exec (.timebaseLock (.offsetExceeded o)) s = .next s) ∧
  (∀ c s, (c ≠ pickSource s → exec (.timebaseLock (.source c)) s = .next s) ∧
    (c = pickSource s → ∃ t, exec (.timebaseLock (.source c)) s = .next t ∧ t.tsk.activeSrc = c ∧
      (c ≠ s.tsk.activeSrc → t.tsk.locked = false)))

/-! ## The transports of the host -/

/-- R275 to R282, R290, R293, R296, R297, R483, R484, R592: what comes in at a host port. Frames to another address or port, and bytes
that are no request, are discarded; a packet of a wrong length is answered 0x01, one without a session 0x02, and a whole one of a session
takes its turn. On SPI and USB the trailer is checked first. The SPI port holds four packets, and its outbound packet leaves when all of
it has been clocked. While the control die sleeps a packet that stays incomplete is not answered. (Model's choices where the manual leaves
a point open: log entries 144, 148, 149.) -/
def Obligations.TransportRows : Prop :=
  (∀ dst src tag pkt s, dst ≠ Config.mac → exec (.hostEthernetFrame dst src tag pkt) s = .next s) ∧
  (∀ addr port dport frag pkt s, frag = true ∨ dport ≠ s.host.udpPort → exec (.udpDatagram addr port dport frag pkt) s = .next s) ∧
  (∀ src pkt s, exec (.hostEthernetFrame Config.mac src none pkt) s = exec (.fragment (.eth src) pkt) s) ∧
  (∀ addr port pkt s, exec (.udpDatagram addr port s.host.udpPort false pkt) s = exec (.fragment (.udp addr port) pkt) s) ∧
  (∀ ep (b : List Byte) s, portAnswers s ep = false ∨ b.length < 20 ∨ b.getD 0 0 ≠ 0xC7 ∨ (b.getD 3 0).getLsbD 7 = true →
    exec (.fragment ep b) s = .next s) ∧
  (∀ ep (b : List Byte) s, portAnswers s ep = true → 20 ≤ b.length → b.getD 0 0 = 0xC7 → (b.getD 3 0).getLsbD 7 = false →
    let p := packetOf ep none b
    (8192 < p.plen ∨ b.length < declaredLength b → exec (.fragment ep b) s = .next (sendReply p.req p.op 0x01 [] false s)) ∧
    (p.plen ≤ 8192 → declaredLength b ≤ b.length → p.op ≠ 1 → sessionOf s ep = none →
      exec (.fragment ep b) s = .next (sendReply p.req p.op 0x02 [] false s)) ∧
    (∀ x, p.plen ≤ 8192 → declaredLength b ≤ b.length → p.op ≠ 1 → sessionOf s ep = some x → guardedSession x = false →
      x.cache.find? (·.seq = p.req.seq) = none → x.cache.length < 64 → p.more = false → p.frag = 0 →
      ∃ t, exec (.fragment ep b) s = .next (settle t) ∧ t.tsk = s.tsk ∧ t.sent = s.sent ∧
        ∃ y, sessionOf t ep = some y ∧ y.queue = x.queue ++ [(p.req, p.op, .inl p.params)] ∧ y.waiting = x.waiting ∧
          y.cache = x.cache ++ [{ seq := p.req.seq, req := p.req, opcode := p.op, reply := none }])) ∧
  (∀ b s, portAnswers s .usb = true → 20 ≤ b.length → declaredLength (b ++ beBytes 4 (crc32c b)) = b.length →
    exec (.usbBulkTransfer (b ++ beBytes 4 (crc32c b))) s = exec (.fragment .usb b) s) ∧
  (∀ b c s, portAnswers s .usb = true → 20 ≤ b.length → c.length = 4 → declaredLength (b ++ c) = b.length → beBytes 4 (crc32c b) ≠ c →
    exec (.usbBulkTransfer (b ++ c)) s = .next (updSession .usb (fun y => { y with dis1 := satInc y.dis1 }) s)) ∧
  (∀ kind target data s, supRuns s = true → target = s.host.hostAddr →
    exec (.arpRequest kind target data) s = .next { s with sent := .probeReply kind target data :: s.sent }) ∧
  (∀ kind target data s, supRuns s = false ∨ target ≠ s.host.hostAddr → exec (.arpRequest kind target data) s = .next s) ∧
  (∀ (b : List Byte) s, spiServed s = true →
    let u : State := { s with sent := .spiReturn (List.replicate (1 + b.length) 0xFF) :: s.sent }
    (4 ≤ s.host.spiIn.length → exec (.spiWrite b) s = .next { u with host.spiOvr := true }) ∧
    (s.host.spiIn.length < 4 → b.length < declaredLength b → exec (.spiWrite b) s = .next u)) ∧
  (∀ b s, spiServed s = true → s.host.spiIn = [] → 20 ≤ b.length → portAnswers s .spi = true →
    declaredLength (b ++ beBytes 4 (crc32c b)) = b.length →
    exec (.spiWrite (b ++ beBytes 4 (crc32c b))) s =
      exec (.fragment .spi b) { s with sent := .spiReturn (List.replicate (5 + b.length) 0xFF) :: s.sent }) ∧
  (∀ n b l s, spiServed s = true → s.host.spiOut = b :: l → b ≠ [] → 2 + b.length ≤ n →
    exec (.spiRead n) s = .next (settle { s with
      host.spiOut := l, host.resetLeft := s.host.resetLeft - 1, sent := .spiReturn (beBytes 2 b.length ++ b) :: s.sent })) ∧
  (∀ n b l s, spiServed s = true → s.host.spiOut = b :: l → n < 2 + b.length →
    exec (.spiRead n) s = .next { s with sent := .spiReturn ((beBytes 2 b.length ++ b).take n) :: s.sent }) ∧
  (∀ s, spiServed s = true → exec .spiStatus s = .next { s with
    host.spiCrc := false, host.spiOvr := false, sent := .spiReturn (beBytes 4 (spiStatusWord s).toNat) :: s.sent }) ∧
  (∀ s b n, spiServed s = false → exec (.spiWrite b) s = .next s ∧ exec (.spiRead n) s = .next s ∧ exec .spiStatus s = .next s) ∧
  (∀ ep seq s, s.sys.asleep = true → exec (.fragTimeout ep seq) s = .next s) ∧
  (∀ ep seq x m s, s.sys.asleep = false → sessionOf s ep = some x → x.reasm.find? (fun m => m.req.seq = seq) = some m →
    ∃ t, exec (.fragTimeout ep seq) s = .next (sendReply m.req m.opcode 0x08 [] false t) ∧
      ∃ y, sessionOf t ep = some y ∧ y.reasm = x.reasm.filter (fun m => m.req.seq ≠ seq)) ∧
  (∀ s, exec (.hostLinkChange s.sys.hostLink) s = .next s) ∧
  (∀ s, s.sys.hostLink = false → exec (.hostLinkChange true) s = .next { s with sys.hostLink := true }) ∧
  (∀ s, s.sys.hostLink = true → ∃ t, exec (.hostLinkChange false) s = .next (settle t) ∧ t.sys.hostLink = false ∧
    (∀ x ∈ t.host.sessions, x.ep = .spi ∨ x.ep = .usb) ∧ ∀ x ∈ s.host.sessions, x.ep = .spi ∨ x.ep = .usb → x ∈ t.host.sessions) ∧
  (∀ s, s.sys.asleep = false → exec (.usbVbusChange true) s = .next { s with sys.usbVbus := true }) ∧
  (∀ s, s.sys.asleep = true → exec (.usbVbusChange true) s = .next { s with
    sys.usbVbus := true, sys.asleep := false, bkd.wakeCause := s.bkd.wakeCause ||| 8 }) ∧
  (∀ s, ∃ t, exec (.usbVbusChange false) s = .next (settle t) ∧ t.sys.usbVbus = false ∧ sessionOf t .usb = none)

/-! ## The barrier and the safety monitor -/

/-- R439 to R443, R445, R448, R450, R453 to R457: the barrier. A slot of the logic side sends the outputs and requests as the commits of
the edge before left them; a good down frame gives the die its outputs, requests and settings, a bad one is counted; silence turns
the outputs off. The die filters its inputs, reads its outputs back and answers; a good up frame gives the input record, a bad one
is counted. The frames are 32 bytes with their check value, and one end reads what the other put into them, but for the bits that R440,
R470 and R471 reserve.
(Model's choices where the manual leaves a point open: log entries 98, 101, 230.) -/
def Obligations.BarrierRows : Prop :=
  (∀ f, f.cfg.length = 20 → (downBytes f).length = 32 ∧ barrierCrcOk (downBytes f) = true ∧ downFields (downBytes f) = { f with req := f.req &&& 3 }) ∧
  (∀ f, (upBytes f).length = 32 ∧ barrierCrcOk (upBytes f) = true ∧ upFields (upBytes f) =
    { f with ioFlags := f.ioFlags &&& 3, safStatus := f.safStatus &&& 0xF01FFFFF, safFault := f.safFault &&& 0x3F }) ∧
  (∀ b s, barrierCrcOk b = false → downGood s b = false ∧ upGood s b = false) ∧
  (∀ s, barrierRuns s = true → s.tsk.tick.toNat % 5 = 0 → ∃ t f, exec .barrierSlot s = .next t ∧ t.sent = .down (downBytes f) :: s.sent ∧
    f.seq = s.dio.downSeq + 1 ∧ f.ver = s.dio.version ∧ f.type = 0x51 ∧ f.out = (if doOn s then s.dio.outBuf else 0) ∧
    f.req = (if s.dio.cfg.flags.getLsbD 1 then s.dio.reqOut.setWidth 8 else 0) ∧ t.dio.downSeq = f.seq ∧ t.dio.outSent = f.out ∧
    t.tsk = s.tsk ∧ t.iod = s.iod) ∧
  (∀ s, barrierRuns s = false ∨ s.tsk.tick.toNat % 5 ≠ 0 → exec .barrierSlot s = .next s) ∧
  (∀ b s, s.iod.powered = true → downGood s b = false → exec (.downFrameRx b) s = .next { s with iod.badDown := s.iod.badDown + 1 }) ∧
  (∀ b s, s.iod.powered = true → downGood s b = true → let f := downFields b; ∃ t, exec (.downFrameRx b) s = .next t ∧ t = { s with iod := t.iod } ∧
    t.iod.out = f.out ∧ t.iod.reqs = f.req.setWidth 2 ∧ t.iod.lastDown = some f.seq ∧ t.iod.silent = false ∧
    t.iod.short = s.iod.short &&& f.out ∧ t.iod.thermal = s.iod.thermal &&& f.out ∧ t.iod.badDown = s.iod.badDown ∧
    t.iod.cfg = (if s.iod.candGen = f.cfgGen ∧ s.iod.cand = f.cfg then f.cfg else s.iod.cfg) ∧ t.iod.ch1 = s.iod.ch1 ∧ t.iod.ch2 = s.iod.ch2) ∧
  (∀ b s, barrierRuns s = true → upGood s b = false → exec (.upFrameRx b) s = .next { s with dio.upErr := satInc s.dio.upErr }) ∧
  (∀ b s, barrierRuns s = true → upGood s b = true → Rising s.tsk.inBits → let f := upFields b; ∃ t, exec (.upFrameRx b) s = .next t ∧
    t.dio.up = true ∧ t.dio.lastUp = some f.seq ∧ t.dio.inp = f.inp ∧ t.dio.rb = f.rb ∧ t.dio.safStatus = f.safStatus ∧
    t.dio.safSwitch = f.safSwitch ∧ t.dio.fMismatch = f.mismatch ∧ t.dio.fShort = f.short ∧ t.dio.fThermal = f.thermal ∧
    t.dio.upErr = s.dio.upErr ∧ t.tsk.bits = s.tsk.bits ∧
    (s.dio.cfg.flags.getLsbD 0 = true → standby s = false →
      ∀ i < 32, Tab.get false t.tsk.inBits (s.dio.cfg.inBase.toNat + i) = (inputRecord f).getD i false) ∧
    (s.dio.cfg.flags.getLsbD 0 = false → t.tsk.inBits = s.tsk.inBits)) ∧
  (∀ b s, barrierRuns s = false → exec (.upFrameRx b) s = .next s ∧ exec .barrierLost s = .next s) ∧
  (∀ s, s.iod.powered = true → ∃ t, exec .barrierSilence s = .next t ∧ t = { s with iod := t.iod } ∧ t.iod.out = 0 ∧ t.iod.silent = true ∧
    t.iod.silenceFlag = true ∧ t.iod.ch1 = { s.iod.ch1 with silence := true } ∧ t.iod.ch2 = { s.iod.ch2 with silence := true }) ∧
  (∀ s, barrierRuns s = true → s.dio.up = true → Rising s.tsk.inBits → ∃ t, exec .barrierLost s = .next t ∧ t.dio.up = false ∧
    t.tsk.bits = s.tsk.bits ∧ ∀ a, Tab.get false t.tsk.inBits a =
      if s.dio.cfg.flags.getLsbD 0 = true ∧ a = s.dio.cfg.inBase.toNat + 29 then false else Tab.get false s.tsk.inBits a) ∧
  (∀ s, s.dio.up = false → exec .barrierLost s = .next s) ∧
  (∀ (inp : IodIn) s, s.iod.powered = true → ∃ t f, exec (.iodSlot inp) s = .next t ∧ t = { s with iod := t.iod, sent := .up (upBytes f) :: s.sent } ∧
    t.iod.slot = s.iod.slot + 1 ∧ t.iod.upSeq = s.iod.upSeq + 1 ∧ t.iod.rb = inp.rb ∧ f.seq = t.iod.upSeq ∧ f.inp = t.iod.filt ∧
    f.rb = inp.rb ∧ f.mismatch = t.iod.mismatch ∧ f.badDown = s.iod.badDown ∧ f.ack = s.iod.lastDown.getD 0 ∧
    ∀ i < 16, t.iod.filt.getLsbD i =
      if s.tsk.tick.toNat / 5 % max 1 (iodSample s.iod) = 0 ∧ diFilter s.iod i ≤ Tab.get 0 s.iod.runs i then inp.inp.getLsbD i
      else s.iod.filt.getLsbD i) ∧
  (∀ b inp s, s.iod.powered = false → exec (.downFrameRx b) s = .next s ∧ exec (.iodSlot inp) s = .next s ∧ exec .barrierSilence s = .next s) ∧
  (∀ s, exec .vdoLow s = .next { s with iod.vdoLow := true } ∧ exec .vdoRecovery s = .next { s with iod.vdoLow := false }) ∧
  (∀ (ch : BitVec 3) s, s.iod.out.getLsbD ch.toNat = true →
    exec (.doShort ch) s = .next { s with iod.short := s.iod.short ||| BitVec.ofNat 8 (2 ^ ch.toNat) } ∧
    exec (.doThermal ch) s = .next { s with iod.thermal := s.iod.thermal ||| BitVec.ofNat 8 (2 ^ ch.toNat) } ∧
    exec (.doThermalRetry ch) s = .next { s with iod.thermal := s.iod.thermal &&& ~~~(BitVec.ofNat 8 (2 ^ ch.toNat)) }) ∧
  (∀ (ch : BitVec 3) s, s.iod.out.getLsbD ch.toNat = false →
    exec (.doShort ch) s = .next s ∧ exec (.doThermal ch) s = .next s ∧ exec (.doThermalRetry ch) s = .next s)

/-- R444, R459 to R465: the safety monitor. A channel is on exactly while its EN switch allows it and no demand, discrepancy, silence,
request, fault or awaited restart stands; an input that reads de-energised for longer than the filter time is a demand; a dark-pulse
test that fails, and switches that differ from those in force, put the channel at fault and off; the reset pattern turns the outputs
off and repeats the self-test.
(Model's choices where the manual leaves a point open: log entries 97, 100.) -/
def Obligations.SafetyRows : Prop :=
  (∀ s, s.iod.powered = true → s.sys.boot = .off → ∃ t, exec .resetPattern s = .next t ∧ t = { s with iod := t.iod } ∧ t.iod.out = 0 ∧
    t.iod.ch1.on = false ∧ t.iod.ch2.on = false ∧ t.iod.selfDone = false) ∧
  (∀ s, s.iod.powered = true → s.sys.boot ≠ .off →
    let pass := s.sys.env.safOk && decide (field s.iod.now.toNat 3 2 ≠ 3) && !s.iod.now.getLsbD 7 && !s.iod.selfFail
    ∃ t, exec .resetPattern s = .next t ∧ t = { s with iod := t.iod } ∧ t.iod.out = 0 ∧ t.iod.ch1.on = false ∧ t.iod.ch2.on = false ∧
      t.iod.inForce = s.iod.now ∧ t.iod.selfFail = !pass ∧ t.iod.selfDone = pass ∧ t.iod.fault = (if pass then none else some (3, 4)) ∧
      t.iod.ch1.restart = s.iod.now.getLsbD 4 ∧ t.iod.ch2.restart = s.iod.now.getLsbD 4) ∧
  (∀ inp s, s.iod.powered = true → ∃ t, exec (.safCycle inp) s = .next t ∧ t = { s with iod := t.iod } ∧
    t.iod.ch1.demand = t.iod.sdi1.demand ∧ t.iod.ch2.demand = (t.iod.sdi2.demand || (s.iod.inForce.getLsbD 5 && t.iod.sdi1.demand)) ∧
    t.iod.ch1.on = (s.iod.inForce.getLsbD 0 && s.iod.selfDone && !s.iod.selfFail && !t.iod.ch1.demand && !t.iod.ch1.discrep && !s.iod.silent &&
      !s.iod.reqs.getLsbD 0 && !t.iod.ch1.fault && !t.iod.ch1.restart) ∧
    t.iod.ch2.on = (s.iod.inForce.getLsbD 1 && s.iod.selfDone && !s.iod.selfFail && !t.iod.ch2.demand && !t.iod.ch2.discrep && !s.iod.silent &&
      !s.iod.reqs.getLsbD 1 && !t.iod.ch2.fault && !t.iod.ch2.restart) ∧
    (inp.sdi.getLsbD 0 = false → filterMs s.iod.inForce ≤ s.iod.sdi1.offA → t.iod.sdi1.demand = true) ∧
    (inp.sdi.getLsbD 1 = false → filterMs s.iod.inForce ≤ s.iod.sdi1.offB → t.iod.sdi1.demand = true) ∧
    (inp.sdi.getLsbD 2 = false → filterMs s.iod.inForce ≤ s.iod.sdi2.offA → t.iod.sdi2.demand = true) ∧
    (inp.sdi.getLsbD 3 = false → filterMs s.iod.inForce ≤ s.iod.sdi2.offB → t.iod.sdi2.demand = true) ∧
    (inp.sdi = 15 → filterMs s.iod.inForce ≤ s.iod.sdi1.bothOn → t.iod.sdi1.demand = false) ∧
    (s.iod.ch1.fault = true → t.iod.ch1.fault = true) ∧ (s.iod.ch2.fault = true → t.iod.ch2.fault = true)) ∧
  (∀ c off on s, s.iod.powered = true → (if c then s.iod.ch2.on else s.iod.ch1.on) = true →
    (off = true → on = true → exec (.darkPulseTest c off on) s = .next { s with iod.darkPass := s.iod.darkPass + 1 }) ∧
    (off = false ∨ on = false → ∃ t, exec (.darkPulseTest c off on) s = .next t ∧ t = { s with iod := t.iod } ∧
      (if c then t.iod.ch2.fault = true ∧ t.iod.ch2.on = false ∧ t.iod.ch1 = s.iod.ch1
       else t.iod.ch1.fault = true ∧ t.iod.ch1.on = false ∧ t.iod.ch2 = s.iod.ch2) ∧
      t.iod.fault = s.iod.fault.or (some (if c then 2 else 1, 1)) ∧ (off = false → t.iod.supplyCut = true))) ∧
  (∀ c off on s, (if c then s.iod.ch2.on else s.iod.ch1.on) = false → exec (.darkPulseTest c off on) s = .next s) ∧
  (∀ sw s, s.iod.powered = true → (sw ^^^ s.iod.inForce) &&& 0xBF#8 = 0 →
    exec (.switchBankRead sw) s = .next { s with iod.now := sw }) ∧
  (∀ sw s, s.iod.powered = true → (sw ^^^ s.iod.inForce) &&& 0xBF#8 ≠ 0 → ∃ t, exec (.switchBankRead sw) s = .next t ∧
    t = { s with iod := t.iod } ∧ t.iod.now = sw ∧ t.iod.inForce = s.iod.inForce ∧ t.iod.cfgChanged = true ∧ t.iod.ch1.on = false ∧
    t.iod.ch2.on = false ∧ t.iod.ch1.fault = true ∧ t.iod.ch2.fault = true) ∧
  (∀ inp c off on sw s, s.iod.powered = false → exec .resetPattern s = .next s ∧ exec (.safCycle inp) s = .next s ∧
    exec (.darkPulseTest c off on) s = .next s ∧ exec (.switchBankRead sw) s = .next s)

/-! ## Field ports -/

/-- R400 to R404, R406, R408, R409, R411, R413: field Ethernet and Plainline. A frame that fails its check, is too long or is for another
is counted and dropped, and of replicated frames the later copies are eliminated. The poll of the PHYs drives MDIO, and does nothing while
the pins are in their reset state. A send point sends the output points of a node; an IN frame in time gives its input points and ends the
wait; a response that does not come is a miss, and as many misses as the loss limit lose the node. (Model's choices where the manual
leaves a point open: log entries 30, 35, 37, 38, 39, 198, 209.) -/
def Obligations.FieldRows : Prop :=
  (∀ links s, mdioDriven s = false → exec (.phyPoll links) s = .next s) ∧
  (∀ (links : BitVec 8) s, mdioDriven s = true → Rising s.ports.fld.ports → ∃ t, exec (.phyPoll links) s = .next t ∧ t.tsk = s.tsk ∧
    (∀ p < 8, (fport t p).link = links.getLsbD p ∧ (fport t p).rx = (fport s p).rx) ∧ ∀ p ≥ 8, fport t p = fport s p) ∧
  (∀ (p : BitVec 3) f s, enabled s 0x10 p.toNat = false → exec (.fieldFrameRx p f) s = .next s) ∧
  (∀ (p : BitVec 3) f s, enabled s 0x10 p.toNat = true →
    (f.fcsOk = false → ∃ t, exec (.fieldFrameRx p f) s = .next t ∧ t.tsk = s.tsk ∧ fport t p.toNat =
      { fport s p.toNat with fcs := satInc (fport s p.toNat).fcs,
                             e2e := if f.etype = 0x88B5 ∨ (f.etype = 0xF1C1 ∧ frerOn s p.toNat = true) then satInc (fport s p.toNat).e2e else (fport s p.toNat).e2e }) ∧
    (f.fcsOk = true → (1522 < f.len ∨ accepts s p.toNat f = false) → ∃ t, exec (.fieldFrameRx p f) s = .next t ∧
      fport t p.toNat = { fport s p.toNat with drop := satInc (fport s p.toNat).drop } ∧ t.tsk = s.tsk) ∧
    (f.fcsOk = true → f.len ≤ 1522 → accepts s p.toNat f = true → f.rtag = none → ∃ t, exec (.fieldFrameRx p f) s = .next t ∧
      fport t p.toNat = { fport s p.toNat with rx := satInc (fport s p.toNat).rx } ∧ t.tsk = s.tsk) ∧
    (∀ q, f.fcsOk = true → f.len ≤ 1522 → accepts s p.toNat f = true → f.etype = 0xF1C1 → f.rtag = some q → p.toNat % 2 = 0 →
      ((fport s p.toNat).streams.find? (fun y => decide (y.dst = f.dst ∧ y.vid = f.vid)) = none →
        ∃ t, exec (.fieldFrameRx p f) s = .next t ∧ (fport t p.toNat).kept = (fport s p.toNat).kept ++ [(f.dst, f.vid, q)] ∧
          (fport t p.toNat).rx = satInc (fport s p.toNat).rx ∧ (fport t p.toNat).elim = (fport s p.toNat).elim) ∧
      (∀ x, (fport s p.toNat).streams.find? (fun y => decide (y.dst = f.dst ∧ y.vid = f.vid)) = some x →
        (x.last - q).toNat < 32 → x.seen.contains q = true →
        ∃ t, exec (.fieldFrameRx p f) s = .next t ∧ (fport t p.toNat).elim = satInc (fport s p.toNat).elim ∧
          (fport t p.toNat).rx = satInc (fport s p.toNat).rx ∧ (fport t p.toNat).kept = (fport s p.toNat).kept))) ∧
  (∀ (p : BitVec 3) m s, enabled s 0x10 p.toNat = true → Rising s.ports.fld.ports →
    ∃ t, exec (.gptpFrame p m) s = .next t ∧ (fport t p.toNat).pdelay = m.pdelay ∧
      (fport t p.toNat).asSync = (decide (asPort s = p.toNat) && m.synced) ∧ t.tsk.activeSrc = pickSource t ∧
      (pickSource t = s.tsk.activeSrc →
        t.tsk.offset = (if asPort s = p.toNat ∧ s.tsk.activeSrc = 1 then m.offset else s.tsk.offset))) ∧
  (∀ (p : BitVec 3) m s, enabled s 0x10 p.toNat = false → exec (.gptpFrame p m) s = .next s ∧ exec (.gptpMessageSend p) s = .next s) ∧
  (∀ (p : BitVec 3) s, enabled s 0x10 p.toNat = true → (fport s p.toNat).link = true → supRuns s = true →
    ∃ t, exec (.gptpMessageSend p) s = .next t ∧ t.sent = .gptp p (fport s p.toNat).gm (fport s p.toNat).prio1 :: s.sent ∧
      (fport t p.toNat).tx = satInc (fport s p.toNat).tx ∧ t.tsk = s.tsk) ∧
  (∀ (p : BitVec 3) s, Rising s.ports.fld.ports →
    (∀ l c k, (fport s p.toNat).gatesNext = some (l, c, k) →
      cycleStart k.toNat (if l.isEmpty then 1 else c.toNat) s.tsk.tick.toNat = true →
      ∃ t, exec (.qbvGateEntry p) s = .next t ∧ (fport t p.toNat).gates = l ∧ (fport t p.toNat).gatesNext = none ∧
        (fport t p.toNat).qbv = 0 ∧ (fport t p.toNat).gateList = decide (l ≠ []) ∧ (fport t p.toNat).cycleNs = c ∧
        (fport t p.toNat).gateTick = k) ∧
    ((∀ l c k, (fport s p.toNat).gatesNext = some (l, c, k) →
      cycleStart k.toNat (if l.isEmpty then 1 else c.toNat) s.tsk.tick.toNat = false) → ∃ t, exec (.qbvGateEntry p) s = .next t ∧ fport t p.toNat =
      if (fport s p.toNat).gateList then
        { fport s p.toNat with qbv := BitVec.ofNat 7 (((fport s p.toNat).qbv.toNat + 1) % (fport s p.toNat).gates.length) }
      else fport s p.toNat)) ∧
  (∀ (k : BitVec 2) s, Rising s.ports.fld.ports → ∃ t, exec (.frerRecoveryReset k) s = .next t ∧
    fport t (2 * k.toNat) = { fport s (2 * k.toNat) with streams := [], kept := [] } ∧
    ∀ p ≠ 2 * k.toNat, fport t p = fport s p) ∧
  (∀ (n : BitVec 12) s, (node s n.toNat).entry = none → exec (.plPollExpiry n) s = .next s ∧ exec (.plRespExpiry n) s = .next s) ∧
  (∀ (n : BitVec 12) e s, (node s n.toNat).entry = some e → pollDue (node s n.toNat) e s.tsk.tick.toNat = false →
    exec (.plPollExpiry n) s = .next s) ∧
  (∀ (n : BitVec 12) e s, (node s n.toNat).entry = some e → pollDue (node s n.toNat) e s.tsk.tick.toNat = true →
    (node s n.toNat).st = .running → (node s n.toNat).await = false → plRuns s e = true → mayTransmit s = true → e.flags.getLsbD 1 = false →
    ∃ t, exec (.plPollExpiry n) s = .next t ∧ (node t n.toNat).cycle = s.tsk.tick.setWidth 32 ∧
      (node t n.toNat).sentAt = some s.tsk.tick.toNat ∧ (node t n.toNat).await = true ∧ (node t n.toNat).win = true ∧
      t.sent = .plainline (BitVec.ofNat 3 e.port.toNat) (plainlineFrame e.mac.toNat (portMac e.port.toNat) e.tag.toNat none
        (plPayload (plOpen (plVer (node s n.toNat)) 1 s.red.epoch.toNat (s.tsk.tick.toNat % 2 ^ 32) n.toNat (outMap e) 0
          (packPoints (outBitsAt s e.outBitBase.toNat e.outBits.toNat)
            (outWordsAt s e.outWordBase.toNat e.outWords.toNat))))) :: s.sent) ∧
  (∀ f q s, plGood 2 f = true → f.rtag = some q → frerOn s (f.port.toNat - f.port.toNat % 2) = true →
    ((fport s (f.port.toNat - f.port.toNat % 2)).kept.contains q = false → exec (.plInFrame f) s = .next s) ∧
    ((fport s (f.port.toNat - f.port.toNat % 2)).kept.contains q = true → exec (.plInFrame f) s = exec (.plInFrame { f with rtag := none })
      (updPort (f.port.toNat - f.port.toNat % 2) (fun x => { x with kept := x.kept.erase q }) s))) ∧
  (∀ f s, plGood 2 f = false → ∃ t, exec (.plInFrame f) s = .next t ∧ t.tsk = s.tsk ∧
    (fport t f.port.toNat).e2e = satInc (fport s f.port.toNat).e2e) ∧
  (∀ f s, plGood 2 f = true → f.rtag = none → (node s f.node.toNat).entry = none → ∃ t, exec (.plInFrame f) s = .next t ∧ t.tsk = s.tsk ∧
    (fport t f.port.toNat).inDisc = satInc (fport s f.port.toNat).inDisc) ∧
  (∀ f e k s, plGood 2 f = true → f.rtag = none → (node s f.node.toNat).entry = some e → fromNode e f = true →
    field f.map.toNat 31 24 = e.layoutRev.toNat → f.cycle = (node s f.node.toNat).cycle → (node s f.node.toNat).sentAt = some k →
    (node s f.node.toNat).win = true → ticksSince k s.tsk.tick.toNat < e.resp.toNat → plRuns s e = true → s.red.role ≠ 2 → s.red.role ≠ 4 → (node s f.node.toNat).st ≠ .lost →
    Rising s.tsk.inBits → Rising s.tsk.inWords →
    let nb := ((mapSizes f.map).1 + 7) / 8
    let bits := (unpackBits (f.data.take nb)).take (min (mapSizes f.map).1 e.inBits.toNat)
    let words := (words3 (f.data.drop nb)).take e.inWords.toNat
    ∃ t, exec (.plInFrame f) s = .next t ∧ (node t f.node.toNat).await = false ∧ (node t f.node.toNat).miss = 0 ∧
      (∀ i < bits.length, Tab.get false t.tsk.inBits (e.inBitBase.toNat + i) = bits.getD i false) ∧
      (∀ i < words.length, Tab.get 0 t.tsk.inWords (e.inWordBase.toNat + i) = words.getD i 0) ∧
      t.tsk.bits = s.tsk.bits ∧ t.tsk.words = s.tsk.words) ∧
  (∀ (n : BitVec 12) e k s, (node s n.toNat).entry = some e → (node s n.toNat).sentAt = some k → (node s n.toNat).win = true →
    e.resp.toNat ≤ ticksSince k (addTicks s.tsk.tick.toNat 1) →
    ∃ t, exec (.plRespExpiry n) s = .next t ∧ (node t n.toNat).win = false ∧ (node t n.toNat).await = false ∧
      ((node s n.toNat).await = false → (node t n.toNat).miss = (node s n.toNat).miss) ∧
      ((node s n.toNat).await = true → (node t n.toNat).miss = satInc (node s n.toNat).miss ∧ t.ports.fld.miss = satInc s.ports.fld.miss ∧
        (node t n.toNat).st = (if (node s n.toNat).st = .running ∧ e.lossLimit.toNat ≤ (satInc (node s n.toNat).miss).toNat then .lost
          else (node s n.toNat).st))) ∧
  (∀ f offer map e s, plGood 3 f = true → f.rtag = none → (node s f.node.toNat).entry = some e →
    fromNode e f = true → plRuns s e = true →
    (node s f.node.toNat).st ≠ .lost →
    ∃ t, exec (.plCfgResponse f offer map) s = .next t ∧ (node t f.node.toNat).st =
      match negotiate plRanges offer with
      | none => .mgmt
      | some _ => if map = inMap e then .running else .cfgErr) ∧
  (∀ s, enabled s 0x11 0 = false ∨ mayTransmit s = false ∨ nextDiag s = none → exec .plDiagPoll s = .next s) ∧
  (∀ n e s, enabled s 0x11 0 = true → mayTransmit s = true → nextDiag s = some n → (node s n).entry = some e →
    let frame (p : Nat) (rtag : Option Nat) : Sent := .plainline (BitVec.ofNat 3 p) (plainlineFrame e.mac.toNat (portMac p) e.tag.toNat rtag
      (plPayload (plOpen (plVer (node s n)) 4 s.red.epoch.toNat 0 n 0 0 Config.diagMessage)))
    let p := e.port.toNat
    ∃ t, exec .plDiagPoll s = .next t ∧ t.ports.fld.diagNext = n + 1 ∧
      t.sent = (if nodePorts s (node s n) e = [p, p + 1] then
          [frame (p + 1) (some (node s n).rseq.toNat), frame p (some (node s n).rseq.toNat)] else [frame p none]) ++ s.sent) ∧
  (∀ f e s, plGood 4 f = true → f.rtag = none → (node s f.node.toNat).entry = some e → fromNode e f = true →
    plRuns s e = true →
    ∃ t, exec (.plDiagResponse f) s = .next t ∧ t = { s with free := s.free + 1, ports.fld.nodes := t.ports.fld.nodes } ∧
      node t f.node.toNat = { node s f.node.toNat with epochDisc := (node t f.node.toNat).epochDisc })

/-- R415, R417 to R423, R225, R226: the serial-class ports. A free port sends what falls due; a valid answer gives the inputs and frees
the port; an answer that does not come is asked for again as often as RETRIES says, and then the transaction has failed; an answer of a
meter gives its status word with the status byte of its header; a message ends with its mailbox written; a slave answers its own address;
an overcurrent and a bus-off stop a port; a remote frame counts for the error counters alone. (Model's choices where the manual leaves a
point open: log entries 40, 41, 43, 44, 46, 206, 207, 226, 259.) -/
def Obligations.SerialEvents : Prop :=
  (∀ (p : BitVec 1) (i : BitVec 6) s, (∀ tx, txOf s p.toNat i.toNat = some tx → tx.onCommit = true ∨ serSends s p.toNat = false) →
    exec (.modbusTransactionDue p i) s = .next s) ∧
  (∀ (p : BitVec 1) (i : BitVec 6) tx s, txOf s p.toNat i.toNat = some tx → tx.onCommit = false → tx.slave ≠ 0 →
    serSends s p.toNat = true → (ser s p.toNat).job = none → PortIdle s p.toNat →
    ∃ t, exec (.modbusTransactionDue p i) s = .next t ∧ t.sent = .modbus p (modbusFrame (txRequest s tx)) :: s.sent ∧
      (ser t p.toNat).job = some (.modbus i.toNat (txRequest s tx) 0) ∧ (ser t p.toNat).due = [] ∧
      (ser t p.toNat).tx = satInc (ser s p.toNat).tx ∧ t.tsk = s.tsk) ∧
  (∀ (p : BitVec 1) adu s, (ser s p.toNat).job = none → exec (.modbusResponse p adu) s = .next s ∧ exec (.modbusTimeout p) s = .next s) ∧
  (∀ (p : BitVec 1) adu i sent n s, (ser s p.toNat).job = some (.modbus i sent n) → modbusBody adu = none →
    ∃ t, exec (.modbusResponse p adu) s = .next t ∧ (ser t p.toNat).job = some (.modbus i sent n) ∧
      (ser t p.toNat).err = satInc (ser s p.toNat).err ∧ (crcCh t 1).err = true ∧ (crcCh t 1).mismatch = satInc (crcCh s 1).mismatch ∧
      t.tsk = s.tsk) ∧
  (∀ (p : BitVec 1) adu i sent n b tx u s, (ser s p.toNat).job = some (.modbus i sent n) → modbusBody adu = some b →
    txOf s p.toNat i = some tx → txResponse tx b s = some u → PortIdle s p.toNat →
    ∃ t, exec (.modbusResponse p adu) s = .next t ∧ t.tsk = u.tsk ∧ (ser t p.toNat).job = none ∧
      (ser t p.toNat).rx = satInc (ser s p.toNat).rx ∧ (ser t p.toNat).err = (ser s p.toNat).err ∧ t.sent = s.sent) ∧
  (∀ (p : BitVec 1) i sent n tx c s, (ser s p.toNat).job = some (.modbus i sent n) → txOf s p.toNat i = some tx →
    (ser s p.toNat).rs485 = some c → n < c.retries.toNat → mayTransmit s = true →
    ∃ t, exec (.modbusTimeout p) s = .next t ∧ t.sent = .modbus p (modbusFrame sent) :: s.sent ∧
      (ser t p.toNat).job = some (.modbus i sent (n + 1)) ∧ (ser t p.toNat).retry = satInc (ser s p.toNat).retry ∧
      (ser t p.toNat).timeout = satInc (ser s p.toNat).timeout ∧ t.tsk = s.tsk) ∧
  (∀ (p : BitVec 1) i sent n tx c s, (ser s p.toNat).job = some (.modbus i sent n) → txOf s p.toNat i = some tx →
    (ser s p.toNat).rs485 = some c → c.retries.toNat ≤ n ∨ mayTransmit s = false → PortIdle s p.toNat →
    ∃ t, exec (.modbusTimeout p) s = .next t ∧ (ser t p.toNat).job = none ∧ (ser t p.toNat).timeout = satInc (ser s p.toNat).timeout ∧
      Tab.get 0 (ser t p.toNat).fails tx.slave.toNat = Tab.get 0 (ser s p.toNat).fails tx.slave.toNat + 1 ∧ t.tsk = s.tsk) ∧
  (∀ (p : BitVec 1) m a s, (ser s p.toNat).job = some (.message m) → mboxOf (ser s p.toNat) = some a → PortIdle s p.toNat →
    ∃ t, exec (.modbusTimeout p) s = .next t ∧ (ser t p.toNat).job = none ∧
      (standby s = true → t.tsk = s.tsk) ∧
      (standby s = false → Rising s.tsk.inWords → Tab.get 0 t.tsk.inWords a.toNat = m.tag ∧ Tab.get 0 t.tsk.inWords (a.toNat + 1) = 2)) ∧
  (∀ (p : BitVec 1) adu b c s, (ser s p.toNat).rs485 = some c → serEnabled s p.toNat = true → c.master = false → modbusBody adu = some b →
    (b.getD 0 0 ≠ c.unitAddr → b.getD 0 0 ≠ 0 → exec (.modbusSlaveRequest p adu) s = .next s) ∧
    (b.getD 0 0 = c.unitAddr → b.getD 0 0 ≠ 0 → mayTransmit s = true →
      let r := slaveAnswer c (b.getD 1 0).toNat (b.drop 2) (updSer p.toNat (fun x => { x with rx := satInc x.rx }) s)
      ∃ t, exec (.modbusSlaveRequest p adu) s = .next t ∧ t.sent = .modbus p (modbusFrame (c.unitAddr :: r.1)) :: s.sent ∧ t.tsk = r.2.tsk) ∧
    (b.getD 0 0 = 0 → ∃ t, exec (.modbusSlaveRequest p adu) s = .next t ∧ t.sent = s.sent)) ∧
  (∀ (p : BitVec 1) s, serEnabled s p.toNat = true → ∃ t, exec (.modbusFrameGapError p) s = .next t ∧
    (ser t p.toNat).err = satInc (ser s p.toNat).err ∧ t.tsk = s.tsk) ∧
  (∀ (p : BitVec 1) s, serEnabled s p.toNat = false → exec (.modbusFrameGapError p) s = .next s) ∧
  (∀ (p : BitVec 3) s, standby s = true →
    exec (.portMessageStart p) s = .next (updSer p.toNat (fun x => { x with queue := x.queue.drop 1 }) s)) ∧
  (∀ (p : BitVec 3) s, standby s = false → (ser s p.toNat).job.isSome = true ∨ serSends s p.toNat = false →
    exec (.portMessageStart p) s = .next s) ∧
  (∀ (p : BitVec 3) m l s, (ser s p.toNat).job = none → serSends s p.toNat = true → (ser s p.toNat).queue = m :: l →
    (p.toNat < 2 → m.bytes.getD 0 0 ≠ 0 → ∃ t, exec (.portMessageStart p) s = .next t ∧ (ser t p.toNat).job = some (.message m) ∧
      (ser t p.toNat).queue = l ∧ t.sent = .modbus (BitVec.ofNat 1 p.toNat) (modbusFrame m.bytes) :: s.sent) ∧
    (4 ≤ p.toNat → ∃ t, exec (.portMessageStart p) s = .next t ∧ (ser t p.toNat).job = some (.message m) ∧ (ser t p.toNat).queue = l ∧
      t.sent = .can (BitVec.ofNat 1 (p.toNat - 4)) (messageFrame m.bytes).1 (messageFrame m.bytes).2 :: s.sent)) ∧
  (∀ (i : BitVec 10) m s, meterOf s i.toNat = some m → let q := if m.port then 3 else 2
    (serSends s q = false → exec (.mbusPoll i) s = .next s) ∧
    (serSends s q = true → (ser s q).job = none → PortIdle s q → ∃ t, exec (.mbusPoll i) s = .next t ∧
      t.sent = .mbus (if m.port then 1 else 0) (meterRequest s i.toNat m m.secondary.isSome) :: s.sent ∧
      (ser t q).job = some (.meter i.toNat 0 m.secondary.isSome []) ∧ t.tsk = s.tsk)) ∧
  (∀ (p : BitVec 1) tel s, (ser s (2 + p.toNat)).job = none → exec (.mbusAnswer p tel) s = .next s ∧ exec (.mbusAnswerTimeout p) s = .next s) ∧
  (∀ (p : BitVec 1) i n got m s, (ser s (2 + p.toNat)).job = some (.meter i n true got) → meterOf s i = some m →
    mayTransmit s = true → ∃ t, exec (.mbusAnswer p [0xE5]) s = .next t ∧ (ser t (2 + p.toNat)).job = some (.meter i 0 false []) ∧
      t.sent = .mbus p (meterRequest s i m false) :: s.sent ∧ t.tsk = s.tsk) ∧
  (∀ (p : BitVec 1) tel i n got m u a s, (ser s (2 + p.toNat)).job = some (.meter i n false got) → meterOf s i = some m → m.ft3 = false →
    ft12Body tel = some u → mbusDecode u = none → m.status = some a → PortIdle s (2 + p.toNat) →
    ∃ t, exec (.mbusAnswer p tel) s = .next t ∧ (ser t (2 + p.toNat)).job = none ∧ Tab.get 0 t.tsk.inWords a.toNat = BitVec.ofNat 24 (4 + (headerStatus u).toNat * 2 ^ 8) ∧
      t.ports.meterFcb = Tab.set false s.ports.meterFcb i (!Tab.get false s.ports.meterFcb i)) ∧
  (∀ (p : BitVec 1) i n sel got m s, (ser s (2 + p.toNat)).job = some (.meter i n sel got) → meterOf s i = some m →
    (n < 2 → mayTransmit s = true → ∃ t, exec (.mbusAnswerTimeout p) s = .next t ∧ t.sent = .mbus p (meterRequest s i m sel) :: s.sent ∧
      (ser t (2 + p.toNat)).job = some (.meter i (n + 1) sel got) ∧ (ser t (2 + p.toNat)).retry = satInc (ser s (2 + p.toNat)).retry) ∧
    (∀ a, 2 ≤ n ∨ mayTransmit s = false → m.status = some a → Rising s.tsk.inWords → PortIdle s (2 + p.toNat) → ∃ t, exec (.mbusAnswerTimeout p) s = .next t ∧
      (ser t (2 + p.toNat)).job = none ∧ (Tab.get 0 t.tsk.inWords a.toNat).getLsbD 1 = true)) ∧
  (∀ (p : BitVec 1) s, serEnabled s (2 + p.toNat) = true → ∃ t, exec (.mbusOvercurrent p) s = .next t ∧
    (ser t (2 + p.toNat)).overCur = true ∧ (ser t (2 + p.toNat)).busEn = false ∧ (ser t (2 + p.toNat)).job = none ∧
    ((ser s (2 + p.toNat)).job = none → t.tsk = s.tsk) ∧
    (∀ m a, (ser s (2 + p.toNat)).job = some (.message m) → mboxOf (ser s (2 + p.toNat)) = some a → standby s = false → Rising s.tsk.inWords →
      Tab.get 0 t.tsk.inWords a.toNat = m.tag ∧ Tab.get 0 t.tsk.inWords (a.toNat + 1) = 2) ∧
    (∀ i n sel got m a, (ser s (2 + p.toNat)).job = some (.meter i n sel got) → meterOf s i = some m → m.status = some a →
      Rising s.tsk.inWords → (Tab.get 0 t.tsk.inWords a.toNat).getLsbD 1 = true)) ∧
  (∀ (p : BitVec 1) s, serEnabled s (2 + p.toNat) = false → exec (.mbusOvercurrent p) s = .next s) ∧
  (∀ (p : BitVec 1) f c s, (ser s (4 + p.toNat)).can = some c → serEnabled s (4 + p.toNat) = true → (ser s (4 + p.toNat)).busOff = false →
    f.remote = true → ∃ t, exec (.canRx p f) s = .next t ∧
      ser t (4 + p.toNat) = { ser s (4 + p.toNat) with recCnt := (ser t (4 + p.toNat)).recCnt } ∧ t.tsk = s.tsk) ∧
  (∀ (p : BitVec 1) f s, serEnabled s (4 + p.toNat) = false ∨ (ser s (4 + p.toNat)).busOff = true → exec (.canRx p f) s = .next s) ∧
  (∀ (p : BitVec 1) f c o s, (ser s (4 + p.toNat)).can = some c → serEnabled s (4 + p.toNat) = true → (ser s (4 + p.toNat)).busOff = false →
    f.remote = false → c.rx.find? (fun o => decide (o.ext = f.ext) && decide (f.ident &&& o.mask = o.ident &&& o.mask)) = some o → o.word = true →
    (3 * o.count.toNat ≤ f.data.length → Rising s.tsk.inWords → ∃ t, exec (.canRx p f) s = .next t ∧
      (ser t (4 + p.toNat)).rx = satInc (ser s (4 + p.toNat)).rx ∧
      ∀ i < o.count.toNat, Tab.get 0 t.tsk.inWords (o.base.toNat + i) = (words3 f.data).getD i 0) ∧
    (f.data.length < 3 * o.count.toNat → ∃ t, exec (.canRx p f) s = .next t ∧ t.tsk = s.tsk ∧
      (ser t (4 + p.toNat)).err = satInc (ser s (4 + p.toNat)).err)) ∧
  (∀ (p : BitVec 1) (k : BitVec 5) c o s, (ser s (4 + p.toNat)).can = some c → c.tx[k.toNat]? = some o →
    (o.onCommit = true → exec (.canTxPeriod p k) s = .next s) ∧
    (o.onCommit = false → c.listen = false → serSends s (4 + p.toNat) = true → (ser s (4 + p.toNat)).job = none → PortIdle s (4 + p.toNat) →
      ∃ t, exec (.canTxPeriod p k) s = .next t ∧ (ser t (4 + p.toNat)).job = some (.canTx k.toNat) ∧ t.tsk = s.tsk ∧
        t.sent = .can p { ident := o.ident, ext := o.ext, remote := false, fdf := o.fdf, data := canPayload s o } o.brs :: s.sent)) ∧
  (∀ (p : BitVec 1) k s, (ser s (4 + p.toNat)).job = some (.canTx k) → PortIdle s (4 + p.toNat) →
    ∃ t, exec (.canTxComplete p) s = .next t ∧ (ser t (4 + p.toNat)).job = none ∧
      (∃ k, (ser t (4 + p.toNat)).tec.toNat = min 255 ((ser s (4 + p.toNat)).tec.toNat + 8 * k) - 1) ∧
      (ser t (4 + p.toNat)).tx = satInc (ser s (4 + p.toNat)).tx ∧ t.tsk = s.tsk) ∧
  (∀ (p : BitVec 1) s, (ser s (4 + p.toNat)).job = none → exec (.canTxComplete p) s = .next s) ∧
  (∀ (p : BitVec 1) s, serEnabled s (4 + p.toNat) = true → ∃ t, exec (.canBusOff p) s = .next t ∧
    (ser t (4 + p.toNat)).busOff = true ∧ (ser t (4 + p.toNat)).tec = 255 ∧ serSends t (4 + p.toNat) = false) ∧
  (∀ (p : BitVec 1) c s, (ser s (4 + p.toNat)).can = some c →
    (c.manual = true ∨ (ser s (4 + p.toNat)).busOff = false → exec (.canBusOffRecovery p) s = .next s) ∧
    (c.manual = false → (ser s (4 + p.toNat)).busOff = true → ∃ t, exec (.canBusOffRecovery p) s = .next t ∧
      (ser t (4 + p.toNat)).busOff = false ∧ (ser t (4 + p.toNat)).tec = 0 ∧ (ser t (4 + p.toNat)).recCnt = 0))

/-! ## The pass ring -/

/-- R324, R325, R327, R332, R335, R338, R339, R343, R345, R350 to R352, R355, R356: the pass ring. A link that breaks makes the module
wrap, and one without a link is ALONE; it trains from start-up step 6 on; a member sends DISCOVER at its round ticks and takes that of the
others; a topology waits for its change tick; regions, events, casts and reports reach the members; a message in pieces is acknowledged
when it is whole. While the control die sleeps a record of reports is not closed. (Model's choices where the manual leaves a point open:
log entries 48, 49, 50, 51, 52, 53, 191, 193, 195, 239, 257.) -/
def Obligations.RingRows : Prop :=
  (∀ east s, (if east then s.pas.eUp else s.pas.wUp) = false → exec (.passLinkBreak east) s = .next s) ∧
  (∀ s, s.pas.eUp = true → s.pas.wUp = true →
    (∃ t, exec (.passLinkBreak true) s = .next t ∧ t.pas.eUp = false ∧ t.pas.wUp = true ∧ t.pas.wraps = satInc s.pas.wraps ∧
      t.pas.ring = (if s.pas.ring = 2 then 3 else s.pas.ring) ∧ t.pas.members = s.pas.members) ∧
    (∃ t, exec (.passLinkBreak false) s = .next t ∧ t.pas.wUp = false ∧ t.pas.eUp = true ∧ t.pas.wraps = satInc s.pas.wraps ∧
      t.pas.ring = (if s.pas.ring = 2 then 3 else s.pas.ring) ∧ t.pas.members = s.pas.members)) ∧
  (∀ east s, s.pas.eUp = east → s.pas.wUp = (!east) → ∃ t, exec (.passLinkBreak east) s = .next t ∧ t.pas.eUp = false ∧ t.pas.wUp = false ∧
    t.pas.ring = 0 ∧ t.pas.members = 0 ∧ t.pas.head = false) ∧
  (∀ east offer s, s.pas.ringEn = false ∨ s.pas.dupId = true ∨ fromStep6 s = false →
    exec (.passLinkUp east offer) s = .next s) ∧
  (∀ east offer s, s.pas.ringEn = true → s.pas.dupId = false → fromStep6 s = true →
    ∃ t, exec (.passLinkUp east offer) s = .next t ∧ t.pas.bypass = false ∧
    (if east then t.pas.eUp else t.pas.wUp) = true ∧ (if east then t.pas.eMgmt else t.pas.wMgmt) = (negotiate ringRanges offer).isNone ∧
    t.pas.ring = (if s.pas.ring = 0 then 1 else s.pas.ring) ∧
    ∀ m, negotiate ringRanges offer = some (1, m) → t.pas.minor.toNat ≤ m) ∧
  (∀ s, s.pas.ring = 0 ∨ s.pas.bypass = true → exec .discoverRound s = .next s) ∧
  (∀ s, WholeRing s → s.pas.ring ≠ 0 → basinTick s % 1000 = 0 → s.sys.asleep = false → s.pas.sentRound ≠ some (basinTick s) →
    ∃ t, exec .discoverRound s = .next t ∧ t.pas.round = some (basinTick s) ∧
      t.sent = ringFrame false 1 (basinTick s) (discoverBytes (ownDiscover s)) s ::
        ringFrame true 1 (basinTick s) (discoverBytes (ownDiscover s)) s :: s.sent) ∧
  (∀ h d s, foreignSelf h d s = true → ∃ t, exec (.discover h d) s = .next t ∧
    (Config.serial.toNat < d.serial.toNat → t = { s with pas.memb := t.pas.memb } ∧
      (Tab.get {} t.pas.memb s.sys.ringId.toNat).excluded = true) ∧
    (d.serial.toNat ≤ Config.serial.toNat → t.pas.dupId = true ∧ t.pas.bypass = true ∧ t.pas.ring = 0 ∧ t.red.role = 0 ∧
      t.red.pairEn = false ∧ t.red.actDrv = false)) ∧
  (∀ h d s, HeardRing 1 false (discoverBytes d) h s → h.src ≠ s.sys.ringId → h.hops ≠ 0 → s.pas.ring ≠ 1 → s.pas.round = some h.tick.toNat →
    reached (addTicks h.tick.toNat 100) (basinTick s) = false →
    (clash true (ringModule s h.src.toNat h.srcPart) d = false → clash false (ringModule s h.src.toNat (!h.srcPart)) d = false →
      ∃ t, exec (.discover h d) s = .next t ∧ ringModule t h.src.toNat h.srcPart =
        heardModule h.tick.toNat d (ringModule s h.src.toNat h.srcPart) ∧
        ringModule t h.src.toNat (!h.srcPart) = ringModule s h.src.toNat (!h.srcPart)) ∧
    (clash true (ringModule s h.src.toNat h.srcPart) d = true → (ringModule s h.src.toNat h.srcPart).serial.toNat < d.serial.toNat →
      ∃ t, exec (.discover h d) s = .next t ∧ ringModule t h.src.toNat h.srcPart = ringModule s h.src.toNat h.srcPart ∧
        (Tab.get {} t.pas.memb h.src.toNat).excluded = true)) ∧
  (∀ h d s, HeardRing 1 false (discoverBytes d) h s → h.src ≠ s.sys.ringId → h.hops = 0 → d.paired = false →
    ∃ t, exec (.discover h d) s = .next t ∧ (if h.east then t.pas.nbW else t.pas.nbE) = [h.src]) ∧
  (∀ s, s.pas.ring = 0 ∨ s.pas.round = none ∨ (∃ r, s.pas.round = some r ∧ reached (addTicks r 100) (addTicks (basinTick s) 1) = false) →
    exec .discoverRoundClose s = .next s) ∧
  (∀ r s, s.pas.ring ≠ 0 → s.pas.round = some r → reached (addTicks r 100) (addTicks (basinTick s) 1) = true →
    Rising s.pas.memb → ∃ t, exec .discoverRoundClose s = .next t ∧ t.pas.round = none ∧ t.tsk = s.tsk ∧
      ∀ m < 64, ∀ part, { ringModule t m part with shown := false } = { ageModule (moduleInRound s m part) (ringModule s m part) with shown := false }) ∧
  (∀ h t s, HeardRing 2 false (topologyBytes t) h s →
    let u := noted 2 false (topologyBytes t) h s
    (t.epoch = s.pas.topoEpoch → t.head = s.pas.headId → t.basin = s.pas.basin → u.pas.ring ≠ 1 → exec (.topology h t) s = .next u) ∧
    (s.pas.topoNext = none → t.epoch ≠ s.pas.topoEpoch →
      exec (.topology h t) s = .next { u with pas.topoNext := some (h.tick.toNat, t) })) ∧
  (∀ s, topologyDue s = none → exec .topologyChangeTick s = .next s) ∧
  (∀ k s, topologyDue s = some k → s.sys.boot ≠ .forming → s.pas.exNext = none → ∃ t, exec .topologyChangeTick s = .next (settle t) ∧ t.pas.ring = k.state ∧
    t.pas.members = k.members ∧ t.pas.headId = k.head ∧ t.pas.topoEpoch = k.epoch ∧ t.pas.px = k.px ∧ t.pas.d = k.d ∧ t.pas.basin = k.basin ∧
    t.pas.topoNext = none ∧ t.pas.head = (decide (k.head = s.sys.ringId) && !standby s)) ∧
  (∀ s, WholeRing s → s.pas.head = true → inBasin s = true → s.sys.asleep = false → basinTick s % 100 = 0 → ∃ t ns, exec .tickSyncSend s = .next t ∧
    ns < 10000 ∧ t.tsk = s.tsk ∧ t.sent = ringFrame false 3 (basinTick s) (tickSyncBytes ns 0) s ::
      ringFrame true 3 (basinTick s) (tickSyncBytes ns 0) s :: s.sent) ∧
  (∀ s, headNow s = false ∨ s.sys.asleep = true → exec .tickSyncSend s = .next s) ∧
  (∀ h ns cor s, HeardRing 3 false (tickSyncBytes ns.toNat cor.toNat) h s →
    let u := noted 3 false (tickSyncBytes ns.toNat (cor + (drawWord s).1).toNat) h (drawWord s).2
    (s.pas.head = true → h.src = s.pas.headId → exec (.tickSync h ns cor) s = .next u) ∧
    ((s.pas.head = true ∧ h.src ≠ s.pas.headId) ∨ (s.pas.head = false ∧ s.pas.ring ≠ 1 ∧ h.src ≠ s.pas.headId) →
      exec (.tickSync h ns cor) s = .next { u with pas.ofsNext := some (shownOffset h ns cor s) }) ∧
    (s.pas.head = false → s.pas.ring = 1 → s.pas.ofsNext = none → exec (.tickSync h ns cor) s = .next { u with
      pas.ofs := shownOffset h ns cor s, pas.ofsNext := some (shownOffset h ns cor s), pas.round := none, pas.sentRound := none }) ∧
    (s.pas.head = false → s.pas.ring ≠ 1 → h.src = s.pas.headId →
      (s.tsk.activeSrc = 4 ∨ s.red.role = 3 → exec (.tickSync h ns cor) s = .next u) ∧
      (s.tsk.activeSrc ≠ 4 → s.red.role ≠ 3 → ∃ t, exec (.tickSync h ns cor) s = .next t ∧ t.tsk.activeSrc = 4 ∧
        t.tsk.locked = false ∧ t.tsk.tick = s.tsk.tick))) ∧
  (∀ s, basinTick s % s.pas.px.toNat ≠ 0 ∨ s.pas.lastX = some (basinTick s) → exec .exchangeTick s = .next s) ∧
  (∀ s, basinTick s % s.pas.px.toNat = 0 → s.pas.lastX ≠ some (basinTick s) → Rising s.pas.pubs → Rising s.pas.pubNext →
    ∃ t, exec .exchangeTick s = .next t ∧ t.pas.lastX = some (basinTick s) ∧ t.pas.pubNext = [] ∧ t.tsk = s.tsk ∧
      ∀ i, Tab.get {} t.pas.pubs i = match Tab.get none s.pas.pubNext i with
        | some v => newPub s (Tab.get {} s.pas.pubs i) v
        | none => Tab.get {} s.pas.pubs i) ∧
  (∀ i p s, WholeRing s → basinTick s % s.pas.px.toNat = 0 → s.pas.lastX ≠ some (basinTick s) → s.pas.startAt ≠ some (basinTick s) →
    ringSpeaker s = true →
    s.pas.pubNext = [] → s.pas.pubs = [(i, p)] → p.valid = true → p.susp = false → 0 < (snapshot p s).length →
    (snapshot p s).length ≤ 1024 → ∃ t, exec .exchangeTick s = .next t ∧
      t.sent = ringFrame false 0x10 (basinTick s) (regionPayload i 0 (snapshot p s)) s ::
        ringFrame true 0x10 (basinTick s) (regionPayload i 0 (snapshot p s)) s :: s.sent) ∧
  (∀ h (index : Byte) word count ofs data s, HeardRing 0x10 false (regionPayload index.toNat ofs.toNat data) h s → index.toNat < 64 →
    Rising s.pas.known → Rising s.pas.subs → ∃ t, exec (.region h index word count ofs data) s = .next t ∧ t.tsk = s.tsk ∧
      Tab.get none t.pas.known (64 * h.src.toNat + index.toNat) = some (word, count) ∧
      ∀ i < 128, (Tab.get {} s.pas.subs i).valid = true → (Tab.get {} s.pas.subs i).member = h.src →
        (Tab.get {} s.pas.subs i).region.toNat = index.toNat → subFits s word (Tab.get {} s.pas.subs i).base.toNat count.toNat = true →
        reached (addTicks h.tick.toNat s.pas.d.toNat) (basinTick s) = false →
        Tab.get {} t.pas.subs i = addRegion h.tick.toNat ofs.toNat h.more data (Tab.get {} s.pas.subs i)) ∧
  (∀ h (e : Byte) s, HeardRing 0x11 false (eventBytes e.toNat) h s → s.pas.minor ≠ 0 →
    let u := noted 0x11 false (eventBytes e.toNat) h s
    ((Tab.get {} s.pas.evts (e.toNat % 64)).own = false → exec (.event h e) s = .next (raiseTrigger 3 (e.toNat % 64) true u)) ∧
    ((Tab.get {} s.pas.evts (e.toNat % 64)).own = true → h.src ≠ s.sys.ringId →
      exec (.event h e) s = .next (raiseTrigger 3 (e.toNat % 64) true { u with
        pas.mapErr := true,
        pas.evts := Tab.set {} s.pas.evts (e.toNat % 64) { Tab.get {} s.pas.evts (e.toNat % 64) with
          last := true } }))) ∧
  (∀ h tag origin (piece : Byte) bytes s, supRuns s = true → HeardRing 0x20 false (commandBytes tag origin piece.toNat bytes) h s → h.more = true → piecesOf s origin tag = [] →
    ∃ t, exec (.command h tag origin piece bytes) s = .next t ∧
      t.sent = (noted 0x20 false (commandBytes tag origin piece.toNat bytes) h s).sent ∧
      piecesOf t origin tag = [{ idx := piece.toNat, last := false, params := bytes }]) ∧
  (∀ h tag origin bytes s, supRuns s = true → HeardRing 0x20 false (commandBytes tag origin 0 bytes) h s → h.more = false →
    piecesOf s origin tag = [] → bytes.length < 20 → ∃ t, exec (.command h tag origin 0 bytes) s = .next t ∧
      t.sent = (sendRing 0x20 (srcByte h) true false true (basinTick s) (commandBytes tag origin 0 [])
        (noted 0x20 false (commandBytes tag origin 0 bytes) h s)).sent) ∧
  (∀ h tag origin s, HeardRing 0x20 true (commandBytes tag origin 0 []) h s →
    exec (.commandAck h tag origin) s = .next { noted 0x20 true (commandBytes tag origin 0 []) h s with
    pas.forwards := if origin = ownSrc s then
        s.pas.forwards.map fun f => if f.tag = tag ∧ f.origin = origin ∧ f.viaSync = false then { f with acked := true } else f
      else s.pas.forwards.filter fun f => !(decide (f.tag = tag) && decide (f.origin = origin) && !f.viaSync) }) ∧
  (∀ s, let due := fun (f : Forward) => !f.acked && !f.viaSync
    ∃ t, exec .commandResend s = .next (settle t) ∧ t.tsk = s.tsk ∧
      t.pas.forwards = (s.pas.forwards.filter fun f => !(due f && decide (3 ≤ f.sends))).map fun f => if due f then { f with sends := f.sends + 1 } else f) ∧
  (∀ h (ns : BitVec 16) (src : Byte) s, HeardRing 0x30 false (castBytes ns.toNat src.toNat) h s →
    let u := noted 0x30 false (castBytes ns.toNat src.toNat) h s
    (2 ≤ s.pas.minor.toNat → exec (.castFrame h ns src) s = .next { u with pas.castAt := s.pas.castAt ++ [h.tick.toNat] }) ∧
    (s.pas.minor.toNat < 2 → s.cast.held = false →
      ∃ t, exec (.castFrame h ns src) s = .next t ∧ t.cast.held = true ∧ t.cast.source = s.cast.source ||| 32)) ∧
  (∀ k s, k ∈ s.pas.castAt → reached k (addTicks (basinTick s) 1) = true → s.cast.held = false →
    ∃ t, exec .castFrameTrigger s = .next t ∧ t.cast.held = true ∧ t.cast.source = s.cast.source ||| 32 ∧
      t.pas.castAt = s.pas.castAt.filter fun k => !reached k (addTicks (basinTick s) 1)) ∧
  (∀ s, (∀ k ∈ s.pas.castAt, reached k (addTicks (basinTick s) 1) = false) → exec .castFrameTrigger s = .next s) ∧
  (∀ h q s, HeardRing 0x40 false (reportBytes q) h s → s.pas.head = false →
    exec (.report h q) s = .next (noted 0x40 false (reportBytes q) h s)) ∧
  (∀ h q s, HeardRing 0x40 false (reportBytes q) h s → s.pas.head = true → s.pas.origins = [] → ∃ t, exec (.report h q) s = .next t ∧
    t.pas.origins = [{ origin := q.origin, cls := q.cls, sev := q.sev, t0 := h.tick.toNat, count := 1, affected := [q.origin],
                       first := h.tick.toNat, last := h.tick.toNat, seqNo := s.pas.originSeq }]) ∧
  (∀ s, (∀ o ∈ s.pas.origins, reached (addTicks o.t0 101000) (addTicks (basinTick s) 1) = false) → exec .originRecordClose s = .next s) ∧
  (∀ s, s.sys.asleep = true → exec .originRecordClose s = .next s) ∧
  (∀ o s, s.sys.asleep = false → s.pas.origins.find? (fun o => reached (addTicks o.t0 101000) (addTicks (basinTick s) 1)) = some o → ∃ t, exec .originRecordClose s = .next t ∧
    t.pas.origins = s.pas.origins.filter (·.seqNo ≠ o.seqNo) ∧ t.log.next = s.log.next + 1)

/-! ## The pair -/

/-- R61, R269, R270, R365, R368, R370, R374, R379, R381 to R390, R394, R396: roles and paths of a pair. A heartbeat goes out every 100 µs:
over the sync link at the ticks whose count is a multiple of 10 (the model's choice of the tick: log entry 242) and over HB at the first
tick of the module's slot. The paths are used from start-up step 6 on; one that arrives brings its path up and the other's role and epoch;
of two active partners the one that is behind yields. A lost path degrades the pair, and takes a standby out of step where it was the sync
link; a standby in step takes over with the next epoch; at the switchover tick both change roles. A command packet that comes over the
sync link runs once, a repeat of it is answered with the stored reply, and the reply to an own one ends the wait for it. (Model's choices
where the manual leaves a point open: log entries 75, 78, 83, 84, 85, 128, 146, 187, 199, 202, 203, 212, 242.) -/
def Obligations.PairPaths : Prop :=
  (∀ s, s.red.role = 0 ∨ supRuns s = false → exec .heartbeatSend s = .next s) ∧
  (∀ s, s.red.role ≠ 0 → supRuns s = true →
    let b := heartbeatBytes (ownHeartbeat false false s)
    (s.red.hbDrop = [] → exec .heartbeatSend s = .next { s with sent :=
      (if s.tsk.tick.toNat % 10 = (if s.sys.partner then 5 else 0) then [syncFrame true 1 b s] else []) ++
      (if s.tsk.tick.toNat % 10 = 0 ∧ s.red.syncUp = true then [syncFrame false 1 b s] else []) ++ s.sent }) ∧
    (s.red.hbDrop ≠ [] → s.red.hbDrop.length ≤ 1024 → inSlot s = true →
      exec .heartbeatSend s = exec .heartbeatSend { s with red.hbDrop := [], sent := syncFrame true 0x11 s.red.hbDrop s :: s.sent })) ∧
  (∀ h hb s, s.red.pairEn = true → supRuns s = true → h.crcOk = false →
    exec (.heartbeat false h hb) s = .next { s with red.crcErr := satInc s.red.crcErr }) ∧
  (∀ sync h hb s, HeardOn sync true h s → s.sys.boot ≠ .roleWait → hb.rdv = ownRdv s → (s.red.role ≠ 1 ∨ hb.role ≠ 1) →
    ∃ t, exec (.heartbeat sync h hb) s = .next t ∧ t.red.role = s.red.role ∧ t.red.peerRole = hb.role ∧
      (if sync then t.red.pathSync else t.red.pathHb) = true ∧ t.red.relinquish = (s.red.relinquish || hb.relinquish) ∧
      t.red.epoch = (if epochHigher hb.epoch s.red.epoch then hb.epoch else s.red.epoch) ∧ t.red.rdvMis = false ∧ t.tsk = s.tsk) ∧
  (∀ sync h hb s, HeardOn sync true h s → s.sys.boot ≠ .roleWait → s.red.role = 1 → hb.role = 1 →
    (epochHigher hb.epoch s.red.epoch = true ∨ (hb.epoch = s.red.epoch ∧ s.sys.partner = true)) →
    ∃ t, exec (.heartbeat sync h hb) s = .next t ∧ t.red.actDrv = false ∧ t.red.dualAct = true ∧ (t.red.role = 2 ∨ t.red.role = 4)) ∧
  (∀ sync s, s.red.pairEn = false ∨ (if sync then s.red.pathSync else s.red.pathHb) = false → exec (.hbPathLoss sync) s = .next s) ∧
  (∀ s, s.red.pairEn = true → s.red.pathSync = true → s.red.pathHb = true →
    (s.red.role = 3 → ∃ t, exec (.hbPathLoss true) s = .next t ∧ t.red.pathSync = false ∧ t.red.degraded = true ∧ t.red.role = 4 ∧
      t.red.hbLossSync = satInc s.red.hbLossSync) ∧
    (∃ t, exec (.hbPathLoss false) s = .next t ∧ t.red.pathHb = false ∧ t.red.degraded = true ∧ t.red.role = s.red.role ∧
      t.red.hbLossHb = satInc s.red.hbLossHb)) ∧
  (∀ s, s.red.pairEn = true → s.red.pathSync = true → s.red.pathHb = false → s.red.role = 3 → ∃ t, exec (.hbPathLoss true) s = .next t ∧
    t.red.pathSync = false ∧ t.red.degraded = false ∧ (t.red.role = 3 ∨ t.red.role = 4 ∧ t.red.isolated = true)) ∧
  (∀ s, supRuns s = false ∨ (pathsLost s = false ∧ s.red.relinquish = false) ∨ s.red.role = 0 ∨ s.red.role = 1 → exec .takeover s = .next s) ∧
  (∀ s, supRuns s = true → (pathsLost s = true ∨ s.red.relinquish = true) → (s.red.role = 2 ∨ s.red.role = 4) → s.red.warmTake = false →
    exec .takeover s = .next { s with red.actIn := true }) ∧
  (∀ s, supRuns s = true → (pathsLost s = true ∨ s.red.relinquish = true) → s.red.role = 3 → ∃ t, exec .takeover s = .next t ∧
    t.red.role = 1 ∧ t.red.actDrv = true ∧ t.red.epoch = s.red.epoch + 1 ∧ t.red.takeovers = satInc s.red.takeovers ∧
    t.red.lastTake = s.tsk.tick ∧ t.dio.outOk = false ∧
    (s.red.owed = false → t.tsk.bits = s.tsk.bits ∧ t.tsk.words = s.tsk.words)) ∧
  (∀ s, supRuns s = true → (pathsLost s = true ∨ s.red.relinquish = true) → (s.red.role = 2 ∨ s.red.role = 4) → s.red.warmTake = true →
    ∃ t, exec .takeover s = .next t ∧ t.red.role = 1 ∧ t.red.actDrv = true ∧ t.red.epoch = s.red.epoch + 1 ∧ t.tsk.mode = .stop) ∧
  (∀ s, s.red.role ≠ 4 ∨ s.red.autoPend = false ∨ s.red.autoResync = false ∨ syncReady s = false → exec .autoResyncTimer s = .next s) ∧
  (∀ s, s.red.role = 4 → s.red.autoPend = true → s.red.autoResync = true → syncReady s = true →
    (∀ c, barred s = some c → ∃ t, exec .autoResyncTimer s = .next t ∧ t.red = s.red) ∧
    (barred s = none → ∃ t l, exec .autoResyncTimer s = .next t ∧ t.red.role = 2 ∧ t.red.autoPend = false ∧ t.red.resync.phase = 1 ∧
      t.sent = syncFrame false 0x11 ([1] ++ beBytes 2 (ownRdv s).toNat ++ beBytes 8 (activeBank s).digest.toNat ++
        beBytes 8 (shadowDigest s).toNat) s :: l)) ∧
  (∀ up offer s, enabled s 0x03 0 = false ∨ fromStep6 s = false → exec (.syncLinkTraining up offer) s = .next s) ∧
  (∀ offer s, enabled s 0x03 0 = true → fromStep6 s = true → s.red.syncUp = false → exec (.syncLinkTraining false offer) s = .next s) ∧
  (∀ offer s, enabled s 0x03 0 = true → fromStep6 s = true → s.red.syncUp = true → ∃ t, exec (.syncLinkTraining false offer) s = .next t ∧ t.red.syncUp = false ∧
    t.red.syncVer = 0 ∧ t.red.role = (if s.red.role = 2 then 4 else s.red.role)) ∧
  (∀ offer a b s, enabled s 0x03 0 = true → fromStep6 s = true → negotiate syncRanges offer = some (a, b) → s.red.role ≠ 2 →
    exec (.syncLinkTraining true offer) s = .next { s with
      red.syncUp := true, red.syncMgmt := false, red.syncVer := BitVec.ofNat 8 (16 * a + b) }) ∧
  (∀ offer a b s, enabled s 0x03 0 = true → fromStep6 s = true → negotiate syncRanges offer = some (a, b) → s.red.role = 2 → barred s = none →
    ∃ t, exec (.syncLinkTraining true offer) s = .next t ∧ t.red.role = 2 ∧ t.red.syncUp = true ∧ t.red.resync.phase = 1) ∧
  (∀ offer s, enabled s 0x03 0 = true → fromStep6 s = true → negotiate syncRanges offer = none → ∃ t, exec (.syncLinkTraining true offer) s = .next t ∧
    t.red.syncUp = true ∧ t.red.syncMgmt = true ∧ t.red.role = (if s.red.role = 2 ∨ s.red.role = 3 then 4 else s.red.role)) ∧
  (∀ h k s, HeardSync false h s → exec (.switchover h k) s = .next (if s.red.role = 3 then { alive s with red.switchAt := some k.toNat } else alive s)) ∧
  (∀ k s, s.red.switchAt = some k → reached k s.tsk.tick.toNat = true →
    (s.red.role = 3 → ∃ t, exec .switchoverTick s = .next t ∧ t.red.role = 1 ∧ t.red.actDrv = true ∧ t.red.epoch = s.red.epoch + 1 ∧
      t.red.switchAt = none ∧ t.tsk.tick = s.tsk.tick) ∧
    (s.red.role = 1 → ∃ t, exec .switchoverTick s = .next t ∧ t.red.role = 3 ∧ t.red.actDrv = false ∧ t.red.epoch = s.red.epoch ∧
      t.red.switchAt = none ∧ t.tsk.tick = s.tsk.tick)) ∧
  (∀ s, s.red.switchAt = none ∨ (∃ k, s.red.switchAt = some k ∧ reached k s.tsk.tick.toNat = false) → exec .switchoverTick s = .next s) ∧
  (∀ h cause s, HeardOn (!h.hb) false h s → ∃ t, exec (.dropToWarm h cause) s = .next t ∧
    t.red.role = if s.red.role = 2 ∨ s.red.role = 3 then 4 else s.red.role) ∧
  (∀ h d s, HeardSync false h s → exec (.built h d) s = .next (if s.red.role = 1 then { alive s with red.builtDig := some d } else alive s)) ∧
  (∀ h tag (pkt : List Byte) s, HeardSync (mgmtGroup (pkt.getD 14 0).toNat) h s →
    let p := packetOf (.eth 0) none pkt
    (pkt.length < 20 → exec (.commandControl h tag pkt) s = .next (alive s)) ∧
    (20 ≤ pkt.length → (pkt.getD 3 0).getLsbD 7 = false →
      (∀ b, s.pas.executed.find? (fun e => e.1 = 0xFF && e.2.1 = tag) = some (0xFF, tag, some b) →
        exec (.commandControl h tag pkt) s = .next (sendControlCommand tag (peerDst s) b (alive s))) ∧
      (s.pas.executed.find? (fun e => e.1 = 0xFF && e.2.1 = tag) = some (0xFF, tag, none) → exec (.commandControl h tag pkt) s = .next (alive s)) ∧
      (s.pas.executed.find? (fun e => e.1 = 0xFF && e.2.1 = tag) = none →
        exec (.commandControl h tag pkt) s = .next (settle (conclude (.sync tag) p.req p.op
          (serveFrom12 (.sync tag) p.req p.op (.inl p.params)
            { alive s with pas.executed := s.pas.executed ++ [(0xFF, tag, none)] }))))) ∧
    (20 ≤ pkt.length → (pkt.getD 3 0).getLsbD 7 = true → exec (.commandControl h tag pkt) s = .next (takeReply tag p (alive s)))) ∧
  (∀ h op params s, HeardSync false h s →
    (standby s = false → exec (.edit h op params) s = .next (alive s)) ∧
    (standby s = true → op = 0x0310 → exec (.edit h op params) s = .next (editOpenOp (alive s)).2.2) ∧
    (standby s = true → op = 0x0311 → s.prog.edit = .opened → exec (.edit h op params) s = .next { alive s with
      prog.editBuf := putBlock s.prog.editBuf (beNat (params.take 4)) (params.drop 4) }) ∧
    (standby s = true → op = 0x0312 → (editCloseOp (alive s)).1 = 0 → exec (.edit h op params) s = .next (editCloseOp (alive s)).2) ∧
    (standby s = true → op = 0x0312 → (editCloseOp (alive s)).1 ≠ 0 → exec (.edit h op params) s = .next (sendBuilt 0 (editCloseOp (alive s)).2)) ∧
    (standby s = true → op = 0x0314 → exec (.edit h op params) s = .next (editAbortOp (alive s)).2))

/-- R271, R375 to R381, R388, R393, R394: a standby in step. It acknowledges the record of its tick once and takes its decisions;
the data of a source come in pieces; what has not come by its edge is presumed and counted; verdicts decide what it commits, and
a digest that differs takes it out of step. A resynchronisation goes from the request over the copies, of a bank only where its
digest differs, to the join tick, and when every task has joined the standby is in step. (Model's choices where the manual
leaves a point open: log entries 79, 81, 86, 87, 187, 201, 202, 204.) -/
def Obligations.PairStep : Prop :=
  (∀ h body s, HeardSync false h s → (s.red.role = 0 ∨ s.red.role = 1 ∨ s.red.role = 4 ∨ (s.red.role = 3 ∧ (h.tick ≠ s.tsk.tick ∨ s.red.recTick = h.tick.toNat))) →
    exec (.record h body) s = .next (alive s)) ∧
  (∀ h body s, HeardSync false h s → s.red.role = 3 → h.tick = s.tsk.tick → s.red.recTick ≠ h.tick.toNat → s.red.owed = false → body.items = [] →
    ∃ t, exec (.record h body) s = .next t ∧ t.red.recTick = s.tsk.tick.toNat ∧ t.red.lastRecord = s.tsk.tick ∧ t.red.relinquish = false ∧
      t.red.role = 3 ∧ t.tsk.tod = body.tod ∧ syncFrame false 3 [] s ∈ t.sent) ∧
  (∀ h s, HeardSync false h s → ∃ t, exec (.recordAck h) s = .next (settle t) ∧ t = { alive s with
    red.acked := if reached s.red.acked h.tick.toNat then h.tick.toNat else s.red.acked }) ∧
  (∀ h (k : Byte) e s, HeardSync false h s → s.red.role = 1 → s.red.hist.find? (fun e => e.1 = h.tick.toNat) = some e → k.toNat < 15 →
    exec (.fetch h k) s = .next (sendParts 0x05 e.1 [k, 0] 0 (e.2.getD k.toNat []) (alive s))) ∧
  (∀ h k s, HeardSync false h s → s.red.role ≠ 1 → exec (.fetch h k) s = .next (alive s)) ∧
  (∀ h (k : Byte) ofs data s, HeardSync false h s → (s.red.waits.find? (fun w => w.1 = h.tick.toNat && w.2.1 = k.toNat)) = none →
    exec (.supplement h k ofs data) s = .next (alive s)) ∧
  (∀ h (k : Byte) ofs data old s, HeardSync false h s →
    s.red.waits = [(h.tick.toNat, k.toNat, old)] → ofs.toNat = old.length →
    (h.more = true → exec (.supplement h k ofs data) s = .next { alive s with red.waits := [(h.tick.toNat, k.toNat, old ++ data)] }) ∧
    (h.more = false → ∃ t, exec (.supplement h k ofs data) s = .next t ∧ t.red.waits = [] ∧ t.red.adopt = satInc s.red.adopt ∧
      t.red.presumed = s.red.presumed)) ∧
  (∀ w s, s.red.role ≠ 3 → exec (.standbyPresume w) s = .next s) ∧
  (∀ s, s.red.role = 3 → s.red.recTick ≠ s.tsk.tick.toNat → s.red.owed = false → ∃ t, exec (.standbyPresume .record) s = .next t ∧
    t.red.recTick = s.tsk.tick.toNat ∧ t.red.presuming = true ∧ t.red.presumed = satInc s.red.presumed) ∧
  (∀ s, s.red.role = 3 → s.red.recTick = s.tsk.tick.toNat → exec (.standbyPresume .record) s = .next s) ∧
  (∀ (n : BitVec 5) s, s.red.role = 3 → released (task s n.toNat) = true → (task s n.toNat).verdict = none →
    (task s n.toNat).due = addTicks s.tsk.tick.toNat 1 → ∃ t, exec (.standbyPresume (.verdict n)) s = .next t ∧
    (task t n.toNat).guarded = true ∧ (task t n.toNat).verdict = some (decide ((task s n.toNat).st = .done)) ∧
    t.red.presumed = satInc s.red.presumed) ∧
  (∀ h (n : BitVec 5) lt s, HeardSync false h s → s.red.role = 1 → released (task s n.toNat) = true → (task s n.toNat).lt = lt →
    exec (.done h n lt) s = .next (updTask n.toNat (fun t => { t with peerDone := true }) (alive s))) ∧
  (∀ h n lt s, HeardSync false h s → s.red.role ≠ 1 → exec (.done h n lt) s = .next (alive s)) ∧
  (∀ h (n : BitVec 5) lt c s, HeardSync false h s → s.red.role = 3 → released (task s n.toNat) = true → (task s n.toNat).lt = lt →
    let u := updTask n.toNat (fun t => { t with guarded := true, verdict := some c }) (alive s)
    (c = true → exec (.verdict h [(n, lt, c)]) s = .next u) ∧
    (c = false → ∃ t, exec (.verdict h [(n, lt, c)]) s = .next t ∧ t.tsk = u.tsk ∧
      (t.red.peerOvr = s.red.peerOvr ∨ t.red.peerOvr = satInc s.red.peerOvr))) ∧
  (∀ h (n : BitVec 5) lt d s, HeardSync false h s → (s.red.role = 1 ∨ s.red.role = 2 ∨ s.red.role = 3) →
    (s.red.ownDig.find? (fun o => o.1 = n.toNat && o.2.1 = lt) = none →
      exec (.digest h n lt d) s = .next { alive s with red.peerDig := s.red.peerDig ++ [(n.toNat, lt, d)] }) ∧
    (∀ o, s.red.ownDig.find? (fun o => o.1 = n.toNat && o.2.1 = lt) = some o → o.2.2 = d → exec (.digest h n lt d) s = .next (alive s)) ∧
    (∀ o, s.red.ownDig.find? (fun o => o.1 = n.toNat && o.2.1 = lt) = some o → o.2.2 ≠ d → s.red.role = 3 →
      ∃ t, exec (.digest h n lt d) s = .next t ∧ t.red.role = 4 ∧ t.red.digestMis = satInc s.red.digestMis)) ∧
  (∀ h s, HeardSync false h s → s.red.role = 2 →
    (∀ a vs, exec (.state h (.bits a vs)) s = .next { alive s with tsk.bits := Tab.setRange false s.tsk.bits a.toNat vs }) ∧
    (∀ a vs, exec (.state h (.words a vs)) s = .next { alive s with tsk.words := Tab.setRange 0 s.tsk.words a.toNat vs }) ∧
    (∀ k ofs, ∃ t, exec (.state h (.tick k ofs)) s = .next t ∧ t.tsk.tick = k ∧ t.pas.ofs = ofs)) ∧
  (∀ h d s, HeardSync false h s → s.red.role ≠ 2 → s.red.role ≠ 3 → exec (.state h d) s = .next (alive s)) ∧
  (∀ h ask s, HeardSync false h s → s.red.role ≠ 1 → exec (.resyncRequest h ask) s = .next (alive s)) ∧
  (∀ h (ask : ResyncAsk) s, HeardSync false h s → s.red.role = 1 → ask.rdv = ownRdv s → barred { alive s with red.rdvMis := false } = none →
    ∃ t l, exec (.resyncRequest h ask) s = .next t ∧ t.red.peerRole = 2 ∧ t.red.resync.phase = 3 ∧ t.tsk = s.tsk ∧ t.prog = s.prog ∧
      t.sent = l ++ s.sent ∧ ∀ d,
        (d = .tick s.tsk.tick s.pas.ofs ∨ d = .epoch s.red.epoch ∨ (∃ n < 32, d = .taskState (BitVec.ofNat 5 n)
          (BitVec.ofNat 4 (tstateCode (task s n).st)) (task s n).evtPend (task s n).evtLost (task s n).lt (task s n).ovrTotal
          (task s n).ovrConsec (task s n).sticky) ∨
          (d = .bankClear false true ∧ (activeBank s).digest ≠ ask.active)) →
        (sendState d { s with sent := [] }).sent ≠ [] ∧ ∀ f ∈ (sendState d { s with sent := [] }).sent, f ∈ l) ∧
  (∀ s, s.red.role ≠ 1 ∨ s.red.syncUp = false ∨ s.red.resync.phase.toNat < 3 ∨ s.red.resync.join.isSome = true → exec .resyncRound s = .next s) ∧
  (∀ s, s.red.role = 1 → s.red.syncUp = true → 3 ≤ s.red.resync.phase.toNat → s.red.resync.join = none →
    (s.red.resync.marked.length ≤ 64 ∨ 8 ≤ s.red.resync.round.toNat → ∃ t, exec .resyncRound s = .next t ∧
      t.red.resync.join = some (addTicks s.tsk.tick.toNat 100) ∧ t.red.resync.phase = 5 ∧
      t.sent = (sendControl 0x02 (beBytes 6 (addTicks s.tsk.tick.toNat 100)) s).sent) ∧
    (64 < s.red.resync.marked.length → s.red.resync.round.toNat < 8 → ∃ t, exec .resyncRound s = .next t ∧ t.red.resync.phase = 4 ∧
      t.red.resync.round = s.red.resync.round + 1 ∧ t.red.resync.marked = [] ∧ t.red.resync.join = none)) ∧
  (∀ h k s, HeardSync false h s → (s.red.role ≠ 2 ∨ s.red.resync.join.isSome = true) → exec (.join h k) s = .next (alive s)) ∧
  (∀ h k s, HeardSync false h s → s.red.role = 2 → s.red.resync.join = none → ∃ t, exec (.join h k) s = .next t ∧
    t.red.resync.join = some k.toNat ∧ t.red.resync.phase = 5 ∧ t.red.role = 2 ∧ t.tsk = s.tsk) ∧
  (∀ k s, s.red.resync.join = some k → s.red.role = 2 → reached k s.tsk.tick.toNat = true → s.red.resync.busy = [] →
    ∃ t, exec .joinTick s = .next t ∧ t.red.role = 3 ∧ t.red.resync = {} ∧ ∀ n < 32, s.red.resync.joined = [] → (task t n).fullK = true) ∧
  (∀ s, s.red.resync.join = none ∨ s.red.role ≠ 2 ∨ (∃ k, s.red.resync.join = some k ∧ reached k s.tsk.tick.toNat = false) →
    exec .joinTick s = .next s)

/-! ## Every command -/

/-- A step runs the command at the front of the queue on the state with the queue's rest. On an empty queue it is one edge of the
backup domain's clock (the model's choice, log entry 1): the real-time clock of R474 and the watchdog's count of R485 go on, and
nothing else changes. -/
def Obligations.StepRunsFront : Prop :=
  (∀ c q s, s.pending = c :: q → step s = exec c { s with pending := q }) ∧
  (∀ s, s.pending = [] → ∃ t, step s = .next t ∧ t = { s with bkd := t.bkd } ∧
    (s.bkd.running = false → t = s) ∧
    (s.bkd.running = true → s.bkd.hold = 0 → t.bkd.rtc = s.bkd.rtc + 1) ∧
    (s.bkd.running = true → s.bkd.wdtEn = true → s.bkd.cStop = false → s.bkd.vin = true → s.bkd.c.toNat < s.bkd.periodNow.toNat →
      t.bkd.c = s.bkd.c + 1))

/-- No command stops the module: every row of the table completes in every state, with every operand. -/
def Obligations.EveryCommandCompletes : Prop := ∀ i s, ∃ t, exec i s = .next t

/-- R283 to R287, R303, R305 to R320: the commands and their parameters agree. Every well-formed command of the table whose parameters the
manual lays out byte by byte is read back from its own parameters as itself, with every operand. (The settings blocks of FIELD_ETH,
RS485, MBUS, CANFD and USER_CRC are read by an uninterpreted function, a choice of the model, and stand outside this statement.)
(Model's choices where the manual leaves a point open: log entry 111.) -/
def Obligations.ParametersReadBack : Prop :=
  ∀ i r op, requestOf i = some (r, op) → wellFormed i = true → laidOut i = true → parseCmd r op.toNat (paramsOf i) = some i

/-- R485, R489, R495: PERIOD stays between 33 clocks and 2^21, WOPEN stays at least 1 and, in the window that runs, at most PERIOD, and the
count never passes PERIOD, whatever step the module takes.
(Model's choices where the manual leaves a point open: log entry 160.) -/
def Obligations.WatchdogLimitsKept : Prop :=
  ∀ s t, WatchdogLimits s → step s = .next t → WatchdogLimits t

/-- R51, R54, R113, R361, R399, R489, R498, R500, R501, R568, R605, R622: the state after reset holds the values that the manual gives:
the tick 0 and STOP, start-up at its step 3, the register values of the reset columns, a watchdog with PERIOD 2,097,152 and WOPEN 1 and
its count at 0, twin records with SEQ 1 in copy A, no session and nothing waiting; and it keeps the limits of the watchdog. (Model's
choices where the manual leaves a point open: log entries 3, 5, 7, 94.) -/
def Obligations.ResetValues : Prop :=
  field (peek State.reset 0x10004).toNat 28 24 = 3 ∧ State.reset.pending = [] ∧ State.reset.host.sessions = [] ∧ State.reset.sys.cause = 1 ∧ State.reset.tsk.tick = 0 ∧
  State.reset.tsk.mode = .stop ∧ State.reset.tsk.bits = [] ∧ State.reset.tsk.words = [] ∧ State.reset.red.role = 0 ∧
  State.reset.log.buf = [] ∧ State.reset.log.flash = [] ∧ State.reset.bkd.c = 0 ∧
  peek State.reset 0x60000 = 1 ∧ peek State.reset 0x90004 = 0x20000000 ∧ peek State.reset 0xA0004 = 0xA0000005 ∧
  peek State.reset 0xA0008 = 0x006A0064 ∧ peek State.reset 0x110010 = 0 ∧ peek State.reset 0x110014 = 0 ∧ peek State.reset 0x110020 = 0 ∧
  peek State.reset 0x120000 = 0xA0000000 ∧ peek State.reset 0x120010 = 0x00200000 ∧ peek State.reset 0x120014 = 1 ∧
  peek State.reset 0x12001C = 0 ∧ peek State.reset 0x150004 = 10 ∧
  (∀ k < 6, (Tab.get {} State.reset.depot.twins k).a.seq = 1 ∧ (Tab.get {} State.reset.depot.twins k).a.val.isSome = true ∧
    (Tab.get {} State.reset.depot.twins k).b.val = none) ∧
  WatchdogLimits State.reset
end

