-- ==== Sys2Proof/Laws/Tab.lean ====
section
/-! SUPPORT. The laws of the sparse tables that hold every memory and register array: reading after writing, and that every operation
keeps the canonical form. -/

namespace Sys2Proof.Laws

open Sys2Proof.Machine Sys2Proof.Safety

variable {α : Type}

@[simp] theorem tab_get_nil (d : α) (a : Nat) : Tab.get d [] a = d := rfl

/-- In a table whose indices rise, an index below the first is not listed. -/
theorem tab_get_below (d : α) {t : Tab α} {a : Nat} (h : ∀ e ∈ t, a < e.1) : Tab.get d t a = d := by
  induction t with
  | nil => rfl
  | cons e t ih =>
    have := h e (by simp)
    simp only [Tab.get]
    rw [if_neg (by omega), ih fun e he => h e (by simp [he])]

theorem rising_nil : Rising ([] : Tab α) := List.Pairwise.nil

theorem rising_tail {e : Nat × α} {t : Tab α} (h : Rising (e :: t)) : Rising t := (List.pairwise_cons.mp h).2

theorem rising_head {e : Nat × α} {t : Tab α} (h : Rising (e :: t)) : ∀ x ∈ t, e.1 < x.1 := (List.pairwise_cons.mp h).1

variable [DecidableEq α]

/-- A write leaves every other index as it was. -/
theorem tab_get_set_ne (d v : α) (t : Tab α) {a b : Nat} (h : b ≠ a) : Tab.get d (Tab.set d t a v) b = Tab.get d t b := by
  induction t with
  | nil => simp only [Tab.set]; split <;> simp [Tab.get, h]
  | cons e t ih =>
    obtain ⟨k, w⟩ := e
    simp only [Tab.set]
    split
    · split
      · rfl
      · simp [Tab.get, h]
    · split
      · rename_i hk
        subst hk
        split <;> simp [Tab.get, h]
      · simp only [Tab.get, ih]

/-- A read after a write to the same index gives what was written. -/
theorem tab_get_set_self (d v : α) {t : Tab α} (ht : Rising t) (a : Nat) : Tab.get d (Tab.set d t a v) a = v := by
  induction t with
  | nil => simp only [Tab.set]; split <;> simp_all [Tab.get]
  | cons e t ih =>
    obtain ⟨k, w⟩ := e
    have hr := rising_head ht
    simp only [Tab.set]
    split
    · split
      · rename_i hk hv
        subst hv
        exact tab_get_below _ fun x hx => by
          rcases List.mem_cons.mp hx with rfl | hx
          · exact hk
          · exact Nat.lt_trans hk (hr x hx)
      · simp [Tab.get]
    · split
      · rename_i hk
        subst hk
        split
        · rename_i hv
          subst hv
          exact tab_get_below _ hr
        · simp [Tab.get]
      · rename_i h1 h2
        simp only [Tab.get, if_neg h2]
        exact ih (rising_tail ht)

/-- Reading after a write. -/
theorem tab_get_set (d v : α) {t : Tab α} (ht : Rising t) (a b : Nat) :
    Tab.get d (Tab.set d t a v) b = if b = a then v else Tab.get d t b := by
  split
  · rename_i h; subst h; exact tab_get_set_self d v ht b
  · rename_i h; exact tab_get_set_ne d v t h

/-- What a written table lists is what was written and what it listed before. -/
theorem tab_mem_set (d v : α) {t : Tab α} {a : Nat} {x : Nat × α} (hx : x ∈ Tab.set d t a v) : x = (a, v) ∧ v ≠ d ∨ x ∈ t := by
  induction t with
  | nil =>
    simp only [Tab.set] at hx
    split at hx
    · simp at hx
    · rename_i hv; exact .inl ⟨by simpa using hx, hv⟩
  | cons e t ih =>
    obtain ⟨k, w⟩ := e
    simp only [Tab.set] at hx
    split at hx
    · split at hx
      · exact .inr hx
      · rename_i hv
        rcases List.mem_cons.mp hx with h | h
        · exact .inl ⟨h, hv⟩
        · exact .inr h
    · split at hx
      · split at hx
        · exact .inr (List.mem_cons_of_mem _ hx)
        · rename_i hv
          rcases List.mem_cons.mp hx with h | h
          · exact .inl ⟨h, hv⟩
          · exact .inr (List.mem_cons_of_mem _ h)
      · rcases List.mem_cons.mp hx with h | h
        · exact .inr (h ▸ List.mem_cons_self)
        · rcases ih h with h | h
          · exact .inl h
          · exact .inr (List.mem_cons_of_mem _ h)

/-- A write keeps the indices rising. -/
theorem rising_set (d v : α) {t : Tab α} (ht : Rising t) (a : Nat) : Rising (Tab.set d t a v) := by
  induction t with
  | nil => simp only [Tab.set]; split <;> simp [Rising]
  | cons e t ih =>
    obtain ⟨k, w⟩ := e
    have hr := rising_head ht
    simp only [Tab.set]
    split
    · rename_i hk
      split
      · exact ht
      · refine List.pairwise_cons.mpr ⟨fun x hx => ?_, ht⟩
        rcases List.mem_cons.mp hx with rfl | hx
        · exact hk
        · exact Nat.lt_trans hk (hr x hx)
    · split
      · rename_i hk
        subst hk
        split
        · exact rising_tail ht
        · exact List.pairwise_cons.mpr ⟨hr, rising_tail ht⟩
      · rename_i h1 h2
        refine List.pairwise_cons.mpr ⟨fun x hx => ?_, ih (rising_tail ht)⟩
        rcases tab_mem_set d v hx with ⟨rfl, -⟩ | h
        · show k < a
          omega
        · exact hr x h

/-- The canonical form: rising indices, and no entry that holds the default. -/
theorem tab_wf_iff (d : α) (t : Tab α) : Tab.wf d t = true ↔ Rising t ∧ ∀ e ∈ t, e.2 ≠ d := by
  have from_iff : ∀ (t : Tab α) (lo : Nat), Tab.wfFrom d (some lo) t = true ↔ (∀ e ∈ t, lo < e.1) ∧ Rising t ∧ ∀ e ∈ t, e.2 ≠ d := by
    intro t
    induction t with
    | nil => simp [Tab.wfFrom, Rising]
    | cons e t ih =>
      intro lo
      obtain ⟨k, v⟩ := e
      simp only [Tab.wfFrom, Bool.and_eq_true, decide_eq_true_eq, ih, Rising, List.pairwise_cons, List.mem_cons, forall_eq_or_imp]
      constructor
      · rintro ⟨⟨h1, h2⟩, h3, h4, h5⟩
        exact ⟨⟨h1, fun e he => Nat.lt_trans h1 (h3 e he)⟩, ⟨h3, h4⟩, h2, h5⟩
      · rintro ⟨⟨h1, -⟩, ⟨h3, h4⟩, h2, h5⟩
        exact ⟨⟨h1, h2⟩, h3, h4, h5⟩
  cases t with
  | nil => simp [Tab.wf, Tab.wfFrom, Rising]
  | cons e t =>
    obtain ⟨k, v⟩ := e
    simp only [Tab.wf, Tab.wfFrom, Bool.and_eq_true, decide_eq_true_eq, from_iff, Rising, List.pairwise_cons, List.mem_cons,
      forall_eq_or_imp]
    exact ⟨fun ⟨h1, h2, h3, h4⟩ => ⟨⟨h2, h3⟩, h1, h4⟩, fun ⟨⟨h2, h3⟩, h1, h4⟩ => ⟨h1, h2, h3, h4⟩⟩

theorem tab_wf_nil (d : α) : Tab.wf d ([] : Tab α) = true := rfl

theorem rising_of_wf {d : α} {t : Tab α} (h : Tab.wf d t = true) : Rising t := ((tab_wf_iff d t).mp h).1

/-- A write keeps the canonical form. -/
theorem tab_wf_set {d : α} {t : Tab α} (h : Tab.wf d t = true) (a : Nat) (v : α) : Tab.wf d (Tab.set d t a v) = true := by
  obtain ⟨h1, h2⟩ := (tab_wf_iff d t).mp h
  refine (tab_wf_iff d _).mpr ⟨rising_set d v h1 a, fun e he => ?_⟩
  rcases tab_mem_set d v he with ⟨rfl, hv⟩ | he
  · exact hv
  · exact h2 e he

theorem tab_wf_upd {d : α} {t : Tab α} (h : Tab.wf d t = true) (a : Nat) (f : α → α) : Tab.wf d (Tab.upd d t a f) = true :=
  tab_wf_set h a _

theorem rising_upd (d : α) {t : Tab α} (h : Rising t) (a : Nat) (f : α → α) : Rising (Tab.upd d t a f) := rising_set d _ h a

/-- Reading after a change of one entry. -/
theorem tab_get_upd (d : α) {t : Tab α} (h : Rising t) (a b : Nat) (f : α → α) :
    Tab.get d (Tab.upd d t a f) b = if b = a then f (Tab.get d t b) else Tab.get d t b := by
  unfold Tab.upd
  rw [tab_get_set d _ h]
  split
  · rename_i e; rw [e]
  · rfl

theorem tab_get_upd_ne (d : α) (t : Tab α) {a b : Nat} (f : α → α) (h : b ≠ a) : Tab.get d (Tab.upd d t a f) b = Tab.get d t b :=
  tab_get_set_ne d _ t h

theorem tab_wf_setRange {d : α} {t : Tab α} (h : Tab.wf d t = true) (a : Nat) (vs : List α) : Tab.wf d (Tab.setRange d t a vs) = true := by
  induction vs generalizing t a with
  | nil => exact h
  | cons v vs ih => exact ih (tab_wf_set h a v) (a + 1)

theorem rising_setRange (d : α) {t : Tab α} (h : Rising t) (a : Nat) (vs : List α) : Rising (Tab.setRange d t a vs) := by
  induction vs generalizing t a with
  | nil => exact h
  | cons v vs ih => exact ih (rising_set d v h a) (a + 1)

/-- Reading after a write of consecutive entries. -/
theorem tab_get_setRange (d : α) {t : Tab α} (h : Rising t) (a : Nat) (vs : List α) (b : Nat) :
    Tab.get d (Tab.setRange d t a vs) b = if a ≤ b ∧ b < a + vs.length then vs.getD (b - a) d else Tab.get d t b := by
  induction vs generalizing t a with
  | nil => simp only [Tab.setRange, List.length_nil]; rw [if_neg (by omega)]
  | cons v vs ih =>
    simp only [Tab.setRange, ih (rising_set d v h a), tab_get_set d v h, List.length_cons]
    by_cases hb : b = a
    · subst hb
      rw [if_neg (by omega), if_pos rfl, if_pos (by omega), Nat.sub_self, List.getD_cons_zero]
    · by_cases hc : a + 1 ≤ b ∧ b < a + 1 + vs.length
      · rw [if_pos hc, if_pos (by omega), show b - a = (b - (a + 1)) + 1 by omega, List.getD_cons_succ]
      · rw [if_neg hc, if_neg hb, if_neg (by omega)]

omit [DecidableEq α] in
@[simp] theorem tab_range_length (d : α) (t : Tab α) (a n : Nat) : (Tab.range d t a n).length = n := by
  induction n generalizing a with
  | zero => rfl
  | succ n ih => simp [Tab.range, ih]

omit [DecidableEq α] in
theorem tab_range_getD (d : α) (t : Tab α) (a n k : Nat) (h : k < n) : (Tab.range d t a n).getD k d = Tab.get d t (a + k) := by
  induction n generalizing a k with
  | zero => omega
  | succ n ih =>
    cases k with
    | zero => rfl
    | succ k => simp only [Tab.range, List.getD_cons_succ]; rw [ih _ _ (by omega)]; congr 1; omega

/-- The consecutive entries that were just written read back. -/
theorem tab_range_setRange (d : α) {t : Tab α} (h : Rising t) (a : Nat) (vs : List α) :
    Tab.range d (Tab.setRange d t a vs) a vs.length = vs := by
  apply List.ext_getElem (by simp)
  intro k h1 h2
  have e := tab_range_getD d (Tab.setRange d t a vs) a vs.length k h2
  rw [tab_get_setRange d h, if_pos (by omega), Nat.add_sub_cancel_left] at e
  simpa [List.getD_eq_getElem?_getD, h1, h2] using e

omit [DecidableEq α] in
theorem rising_keep (p : Nat → Bool) {t : Tab α} (h : Rising t) : Rising (Tab.keep p t) := List.Pairwise.filter _ h

theorem tab_wf_keep {d : α} (p : Nat → Bool) {t : Tab α} (h : Tab.wf d t = true) : Tab.wf d (Tab.keep p t) = true := by
  obtain ⟨h1, h2⟩ := (tab_wf_iff d t).mp h
  exact (tab_wf_iff d _).mpr ⟨rising_keep p h1, fun e he => h2 e ((List.mem_filter.mp he).1)⟩

theorem tab_wf_overlay {d : α} {t : Tab α} (h : Tab.wf d t = true) (u : Tab α) : Tab.wf d (Tab.overlay d t u) = true := by
  unfold Tab.overlay
  induction u generalizing t with
  | nil => exact h
  | cons e u ih => exact ih (tab_wf_set h e.1 e.2)

theorem rising_overlay (d : α) {t : Tab α} (h : Rising t) (u : Tab α) : Rising (Tab.overlay d t u) := by
  unfold Tab.overlay
  induction u generalizing t with
  | nil => exact h
  | cons e u ih => exact ih (rising_set d e.2 h e.1)

/-- Two tables in the canonical form that read alike are the same table. -/
theorem tab_ext {d : α} {t u : Tab α} (ht : Tab.wf d t = true) (hu : Tab.wf d u = true) (h : ∀ a, Tab.get d t a = Tab.get d u a) : t = u := by
  obtain ⟨rt, dt⟩ := (tab_wf_iff d t).mp ht
  obtain ⟨ru, du⟩ := (tab_wf_iff d u).mp hu
  clear ht hu
  induction t generalizing u with
  | nil =>
    cases u with
    | nil => rfl
    | cons e u =>
      have := h e.1
      simp only [Tab.get, if_pos] at this
      exact absurd this.symm (du e (by simp))
  | cons e t ih =>
    cases u with
    | nil =>
      have := h e.1
      simp only [Tab.get, if_pos] at this
      exact absurd this (dt e (by simp))
    | cons f u =>
      have he := h e.1
      have hf := h f.1
      simp only [Tab.get, if_pos] at he hf
      have hk : e.1 = f.1 := by
        rcases Nat.lt_trichotomy e.1 f.1 with hl | hl | hl
        · rw [if_neg (by omega), tab_get_below d fun x hx => Nat.lt_trans hl (rising_head ru x hx)] at he
          exact absurd he (dt e (by simp))
        · exact hl
        · rw [if_neg (by omega), tab_get_below d fun x hx => Nat.lt_trans hl (rising_head rt x hx)] at hf
          exact absurd hf.symm (du f (by simp))
      have hv : e.2 = f.2 := by rw [if_pos hk] at he; exact he
      have hef : e = f := Prod.ext hk hv
      subst hef
      congr 1
      refine ih (fun a => ?_) (rising_tail rt) (fun x hx => dt x (by simp [hx])) (rising_tail ru) fun x hx => du x (by simp [hx])
      by_cases ha : a = e.1
      · subst ha
        rw [tab_get_below d (rising_head rt), tab_get_below d (rising_head ru)]
      · have := h a
        simpa only [Tab.get, if_neg ha] using this

end Sys2Proof.Laws
end

