-- ==== Sys2Proof/Laws/State.lean ====
section
/-! SUPPORT. The laws of the state: what the named updates of its parts change and leave, and the rules by which folds and choices of
states keep a part. No proof has to unfold an update. -/

namespace Sys2Proof.Laws

open Sys2Proof.Machine Sys2Proof.Safety

/-- What every pass of a fold keeps, the fold keeps. -/
theorem foldl_keeps {σ α β : Type} (g : σ → β) (f : σ → α → σ) (h : ∀ x a, g (f x a) = g x) (l : List α) (x : σ) :
    g (l.foldl f x) = g x := by
  induction l generalizing x with
  | nil => rfl
  | cons a l ih => rw [List.foldl_cons, ih, h]

/-- A property that every pass of a fold keeps holds after the fold. -/
theorem foldl_inv {σ α : Type} (P : σ → Prop) (f : σ → α → σ) (h : ∀ x a, P x → P (f x a)) (l : List α) (x : σ) (hx : P x) :
    P (l.foldl f x) := by
  induction l generalizing x with
  | nil => exact hx
  | cons a l ih => exact ih _ (h x a hx)

/-! ## Folds and choices, part by part -/

@[simp] theorem foldl_pending {α : Type} (f : State → α → State) (l : List α) (s : State) (h : ∀ s a, (f s a).pending = s.pending) :
    (l.foldl f s).pending = s.pending := foldl_keeps (·.pending) f h l s
@[simp] theorem foldl_fst_pending {α β : Type} (f : State × β → α → State × β) (l : List α) (p : State × β)
    (h : ∀ p a, (f p a).1.pending = p.1.pending) : (l.foldl f p).1.pending = p.1.pending := foldl_keeps (·.1.pending) f h l p
@[simp] theorem ite_pending (c : Prop) [Decidable c] (s t : State) : (if c then s else t).pending = if c then s.pending else t.pending :=
  apply_ite (·.pending) c s t
@[simp] theorem foldl_free {α : Type} (f : State → α → State) (l : List α) (s : State) (h : ∀ s a, (f s a).free = s.free) :
    (l.foldl f s).free = s.free := foldl_keeps (·.free) f h l s
@[simp] theorem foldl_fst_free {α β : Type} (f : State × β → α → State × β) (l : List α) (p : State × β)
    (h : ∀ p a, (f p a).1.free = p.1.free) : (l.foldl f p).1.free = p.1.free := foldl_keeps (·.1.free) f h l p
@[simp] theorem ite_free (c : Prop) [Decidable c] (s t : State) : (if c then s else t).free = if c then s.free else t.free :=
  apply_ite (·.free) c s t
@[simp] theorem foldl_sent {α : Type} (f : State → α → State) (l : List α) (s : State) (h : ∀ s a, (f s a).sent = s.sent) :
    (l.foldl f s).sent = s.sent := foldl_keeps (·.sent) f h l s
@[simp] theorem foldl_fst_sent {α β : Type} (f : State × β → α → State × β) (l : List α) (p : State × β)
    (h : ∀ p a, (f p a).1.sent = p.1.sent) : (l.foldl f p).1.sent = p.1.sent := foldl_keeps (·.1.sent) f h l p
@[simp] theorem ite_sent (c : Prop) [Decidable c] (s t : State) : (if c then s else t).sent = if c then s.sent else t.sent :=
  apply_ite (·.sent) c s t
@[simp] theorem foldl_sys {α : Type} (f : State → α → State) (l : List α) (s : State) (h : ∀ s a, (f s a).sys = s.sys) :
    (l.foldl f s).sys = s.sys := foldl_keeps (·.sys) f h l s
@[simp] theorem foldl_fst_sys {α β : Type} (f : State × β → α → State × β) (l : List α) (p : State × β)
    (h : ∀ p a, (f p a).1.sys = p.1.sys) : (l.foldl f p).1.sys = p.1.sys := foldl_keeps (·.1.sys) f h l p
@[simp] theorem ite_sys (c : Prop) [Decidable c] (s t : State) : (if c then s else t).sys = if c then s.sys else t.sys :=
  apply_ite (·.sys) c s t
@[simp] theorem foldl_res {α : Type} (f : State → α → State) (l : List α) (s : State) (h : ∀ s a, (f s a).res = s.res) :
    (l.foldl f s).res = s.res := foldl_keeps (·.res) f h l s
@[simp] theorem foldl_fst_res {α β : Type} (f : State × β → α → State × β) (l : List α) (p : State × β)
    (h : ∀ p a, (f p a).1.res = p.1.res) : (l.foldl f p).1.res = p.1.res := foldl_keeps (·.1.res) f h l p
@[simp] theorem ite_res (c : Prop) [Decidable c] (s t : State) : (if c then s else t).res = if c then s.res else t.res :=
  apply_ite (·.res) c s t
@[simp] theorem foldl_cast {α : Type} (f : State → α → State) (l : List α) (s : State) (h : ∀ s a, (f s a).cast = s.cast) :
    (l.foldl f s).cast = s.cast := foldl_keeps (·.cast) f h l s
@[simp] theorem foldl_fst_cast {α β : Type} (f : State × β → α → State × β) (l : List α) (p : State × β)
    (h : ∀ p a, (f p a).1.cast = p.1.cast) : (l.foldl f p).1.cast = p.1.cast := foldl_keeps (·.1.cast) f h l p
@[simp] theorem ite_cast (c : Prop) [Decidable c] (s t : State) : (if c then s else t).cast = if c then s.cast else t.cast :=
  apply_ite (·.cast) c s t
@[simp] theorem foldl_tsk {α : Type} (f : State → α → State) (l : List α) (s : State) (h : ∀ s a, (f s a).tsk = s.tsk) :
    (l.foldl f s).tsk = s.tsk := foldl_keeps (·.tsk) f h l s
@[simp] theorem foldl_fst_tsk {α β : Type} (f : State × β → α → State × β) (l : List α) (p : State × β)
    (h : ∀ p a, (f p a).1.tsk = p.1.tsk) : (l.foldl f p).1.tsk = p.1.tsk := foldl_keeps (·.1.tsk) f h l p
@[simp] theorem ite_tsk (c : Prop) [Decidable c] (s t : State) : (if c then s else t).tsk = if c then s.tsk else t.tsk :=
  apply_ite (·.tsk) c s t
@[simp] theorem foldl_scan {α : Type} (f : State → α → State) (l : List α) (s : State) (h : ∀ s a, (f s a).scan = s.scan) :
    (l.foldl f s).scan = s.scan := foldl_keeps (·.scan) f h l s
@[simp] theorem foldl_fst_scan {α β : Type} (f : State × β → α → State × β) (l : List α) (p : State × β)
    (h : ∀ p a, (f p a).1.scan = p.1.scan) : (l.foldl f p).1.scan = p.1.scan := foldl_keeps (·.1.scan) f h l p
@[simp] theorem ite_scan (c : Prop) [Decidable c] (s t : State) : (if c then s else t).scan = if c then s.scan else t.scan :=
  apply_ite (·.scan) c s t
@[simp] theorem foldl_prog {α : Type} (f : State → α → State) (l : List α) (s : State) (h : ∀ s a, (f s a).prog = s.prog) :
    (l.foldl f s).prog = s.prog := foldl_keeps (·.prog) f h l s
@[simp] theorem foldl_fst_prog {α β : Type} (f : State × β → α → State × β) (l : List α) (p : State × β)
    (h : ∀ p a, (f p a).1.prog = p.1.prog) : (l.foldl f p).1.prog = p.1.prog := foldl_keeps (·.1.prog) f h l p
@[simp] theorem ite_prog (c : Prop) [Decidable c] (s t : State) : (if c then s else t).prog = if c then s.prog else t.prog :=
  apply_ite (·.prog) c s t
@[simp] theorem foldl_host {α : Type} (f : State → α → State) (l : List α) (s : State) (h : ∀ s a, (f s a).host = s.host) :
    (l.foldl f s).host = s.host := foldl_keeps (·.host) f h l s
@[simp] theorem foldl_fst_host {α β : Type} (f : State × β → α → State × β) (l : List α) (p : State × β)
    (h : ∀ p a, (f p a).1.host = p.1.host) : (l.foldl f p).1.host = p.1.host := foldl_keeps (·.1.host) f h l p
@[simp] theorem ite_host (c : Prop) [Decidable c] (s t : State) : (if c then s else t).host = if c then s.host else t.host :=
  apply_ite (·.host) c s t
@[simp] theorem foldl_red {α : Type} (f : State → α → State) (l : List α) (s : State) (h : ∀ s a, (f s a).red = s.red) :
    (l.foldl f s).red = s.red := foldl_keeps (·.red) f h l s
@[simp] theorem foldl_fst_red {α β : Type} (f : State × β → α → State × β) (l : List α) (p : State × β)
    (h : ∀ p a, (f p a).1.red = p.1.red) : (l.foldl f p).1.red = p.1.red := foldl_keeps (·.1.red) f h l p
@[simp] theorem ite_red (c : Prop) [Decidable c] (s t : State) : (if c then s else t).red = if c then s.red else t.red :=
  apply_ite (·.red) c s t
@[simp] theorem foldl_pas {α : Type} (f : State → α → State) (l : List α) (s : State) (h : ∀ s a, (f s a).pas = s.pas) :
    (l.foldl f s).pas = s.pas := foldl_keeps (·.pas) f h l s
@[simp] theorem foldl_fst_pas {α β : Type} (f : State × β → α → State × β) (l : List α) (p : State × β)
    (h : ∀ p a, (f p a).1.pas = p.1.pas) : (l.foldl f p).1.pas = p.1.pas := foldl_keeps (·.1.pas) f h l p
@[simp] theorem ite_pas (c : Prop) [Decidable c] (s t : State) : (if c then s else t).pas = if c then s.pas else t.pas :=
  apply_ite (·.pas) c s t
@[simp] theorem foldl_ports {α : Type} (f : State → α → State) (l : List α) (s : State) (h : ∀ s a, (f s a).ports = s.ports) :
    (l.foldl f s).ports = s.ports := foldl_keeps (·.ports) f h l s
@[simp] theorem foldl_fst_ports {α β : Type} (f : State × β → α → State × β) (l : List α) (p : State × β)
    (h : ∀ p a, (f p a).1.ports = p.1.ports) : (l.foldl f p).1.ports = p.1.ports := foldl_keeps (·.1.ports) f h l p
@[simp] theorem ite_ports (c : Prop) [Decidable c] (s t : State) : (if c then s else t).ports = if c then s.ports else t.ports :=
  apply_ite (·.ports) c s t
@[simp] theorem foldl_dio {α : Type} (f : State → α → State) (l : List α) (s : State) (h : ∀ s a, (f s a).dio = s.dio) :
    (l.foldl f s).dio = s.dio := foldl_keeps (·.dio) f h l s
@[simp] theorem foldl_fst_dio {α β : Type} (f : State × β → α → State × β) (l : List α) (p : State × β)
    (h : ∀ p a, (f p a).1.dio = p.1.dio) : (l.foldl f p).1.dio = p.1.dio := foldl_keeps (·.1.dio) f h l p
@[simp] theorem ite_dio (c : Prop) [Decidable c] (s t : State) : (if c then s else t).dio = if c then s.dio else t.dio :=
  apply_ite (·.dio) c s t
@[simp] theorem foldl_iod {α : Type} (f : State → α → State) (l : List α) (s : State) (h : ∀ s a, (f s a).iod = s.iod) :
    (l.foldl f s).iod = s.iod := foldl_keeps (·.iod) f h l s
@[simp] theorem foldl_fst_iod {α β : Type} (f : State × β → α → State × β) (l : List α) (p : State × β)
    (h : ∀ p a, (f p a).1.iod = p.1.iod) : (l.foldl f p).1.iod = p.1.iod := foldl_keeps (·.1.iod) f h l p
@[simp] theorem ite_iod (c : Prop) [Decidable c] (s t : State) : (if c then s else t).iod = if c then s.iod else t.iod :=
  apply_ite (·.iod) c s t
@[simp] theorem foldl_bkd {α : Type} (f : State → α → State) (l : List α) (s : State) (h : ∀ s a, (f s a).bkd = s.bkd) :
    (l.foldl f s).bkd = s.bkd := foldl_keeps (·.bkd) f h l s
@[simp] theorem foldl_fst_bkd {α β : Type} (f : State × β → α → State × β) (l : List α) (p : State × β)
    (h : ∀ p a, (f p a).1.bkd = p.1.bkd) : (l.foldl f p).1.bkd = p.1.bkd := foldl_keeps (·.1.bkd) f h l p
@[simp] theorem ite_bkd (c : Prop) [Decidable c] (s t : State) : (if c then s else t).bkd = if c then s.bkd else t.bkd :=
  apply_ite (·.bkd) c s t
@[simp] theorem foldl_depot {α : Type} (f : State → α → State) (l : List α) (s : State) (h : ∀ s a, (f s a).depot = s.depot) :
    (l.foldl f s).depot = s.depot := foldl_keeps (·.depot) f h l s
@[simp] theorem foldl_fst_depot {α β : Type} (f : State × β → α → State × β) (l : List α) (p : State × β)
    (h : ∀ p a, (f p a).1.depot = p.1.depot) : (l.foldl f p).1.depot = p.1.depot := foldl_keeps (·.1.depot) f h l p
@[simp] theorem ite_depot (c : Prop) [Decidable c] (s t : State) : (if c then s else t).depot = if c then s.depot else t.depot :=
  apply_ite (·.depot) c s t
@[simp] theorem foldl_log {α : Type} (f : State → α → State) (l : List α) (s : State) (h : ∀ s a, (f s a).log = s.log) :
    (l.foldl f s).log = s.log := foldl_keeps (·.log) f h l s
@[simp] theorem foldl_fst_log {α β : Type} (f : State × β → α → State × β) (l : List α) (p : State × β)
    (h : ∀ p a, (f p a).1.log = p.1.log) : (l.foldl f p).1.log = p.1.log := foldl_keeps (·.1.log) f h l p
@[simp] theorem ite_log (c : Prop) [Decidable c] (s t : State) : (if c then s else t).log = if c then s.log else t.log :=
  apply_ite (·.log) c s t
@[simp] theorem foldl_upd {α : Type} (f : State → α → State) (l : List α) (s : State) (h : ∀ s a, (f s a).upd = s.upd) :
    (l.foldl f s).upd = s.upd := foldl_keeps (·.upd) f h l s
@[simp] theorem foldl_fst_upd {α β : Type} (f : State × β → α → State × β) (l : List α) (p : State × β)
    (h : ∀ p a, (f p a).1.upd = p.1.upd) : (l.foldl f p).1.upd = p.1.upd := foldl_keeps (·.1.upd) f h l p
@[simp] theorem ite_upd (c : Prop) [Decidable c] (s t : State) : (if c then s else t).upd = if c then s.upd else t.upd :=
  apply_ite (·.upd) c s t

/-! ## Tasks, cores, banks and parts -/

@[simp] theorem updTask_tsk (n : Nat) (f : Task → Task) (s : State) :
    (updTask n f s).tsk = { s.tsk with tasks := Tab.upd {} s.tsk.tasks n f } := rfl
theorem task_updTask (n k : Nat) (f : Task → Task) (s : State) (h : Rising s.tsk.tasks) :
    task (updTask n f s) k = if k = n then f (task s n) else task s k := by
  unfold task
  rw [updTask_tsk, tab_get_upd _ h]
  split
  · rename_i e; rw [e]
  · rfl
theorem task_updTask_ne {n k : Nat} (f : Task → Task) (s : State) (h : k ≠ n) : task (updTask n f s) k = task s k :=
  tab_get_upd_ne _ _ _ h
theorem task_updTask_self (n : Nat) (f : Task → Task) (s : State) (h : Rising s.tsk.tasks) :
    task (updTask n f s) n = f (task s n) := by rw [task_updTask n n f s h, if_pos rfl]
theorem rising_updTask (n : Nat) (f : Task → Task) (s : State) (h : Rising s.tsk.tasks) : Rising (updTask n f s).tsk.tasks :=
  rising_upd _ h n f
@[simp] theorem updCore_scan (c : Nat) (f : Core → Core) (s : State) :
    (updCore c f s).scan = { s.scan with cores := Tab.upd {} s.scan.cores c f } := rfl
theorem core_updCore_self (c : Nat) (f : Core → Core) (s : State) (h : Rising s.scan.cores) :
    Machine.core (updCore c f s) c = f (Machine.core s c) := by
  unfold Machine.core
  rw [updCore_scan, tab_get_upd _ h, if_pos rfl]
theorem core_updCore_ne {c d : Nat} (f : Core → Core) (s : State) (h : d ≠ c) : Machine.core (updCore c f s) d = Machine.core s d :=
  tab_get_upd_ne _ _ _ h
@[simp] theorem core_updTask (n c : Nat) (f : Task → Task) (s : State) : Machine.core (updTask n f s) c = Machine.core s c := rfl
@[simp] theorem task_updCore (n c : Nat) (f : Core → Core) (s : State) : task (updCore c f s) n = task s n := rfl
@[simp] theorem bankOf_updBank (b c : Bool) (f : Bank → Bank) (s : State) :
    bankOf (updBank b f s) c = if c = b then f (bankOf s b) else bankOf s c := by
  cases b <;> cases c <;> rfl
@[simp] theorem updBank_active (b : Bool) (f : Bank → Bank) (s : State) : (updBank b f s).prog.active = s.prog.active := by
  cases b <;> rfl
@[simp] theorem bankOf_setShadow_active (k : Bank) (s : State) : bankOf (setShadow k s) s.prog.active = bankOf s s.prog.active := by
  unfold setShadow; rw [bankOf_updBank]; cases s.prog.active <;> rfl
theorem partOf_updIdle_ne {k j : Nat} (f : Slot → Slot) (s : State) (h : j ≠ k) : partOf (updIdle k f s) j = partOf s j := by
  unfold partOf updIdle; dsimp only; exact tab_get_upd_ne _ _ _ h
theorem idleSlot_updIdle (k : Nat) (f : Slot → Slot) (s : State) (h : Rising s.upd.parts) :
    idleSlot (partOf (updIdle k f s) k) = f (idleSlot (partOf s k)) ∧ runSlot (partOf (updIdle k f s) k) = runSlot (partOf s k) := by
  have : partOf (updIdle k f s) k =
      if (partOf s k).runB then { partOf s k with a := f (partOf s k).a } else { partOf s k with b := f (partOf s k).b } := by
    unfold partOf updIdle
    rw [tab_get_upd _ h, if_pos rfl]
  rw [this]
  unfold idleSlot runSlot
  split <;> simp_all

/-! ## Ports -/

theorem fport_updPort (p k : Nat) (f : FPort → FPort) (s : State) (h : Rising s.ports.fld.ports) :
    fport (updPort p f s) k = if k = p then f (fport s k) else fport s k := tab_get_upd _ h p k f
theorem fport_updPort_ne {p k : Nat} (f : FPort → FPort) (s : State) (h : k ≠ p) : fport (updPort p f s) k = fport s k :=
  tab_get_upd_ne _ _ _ h
theorem node_updNode (n k : Nat) (f : Node → Node) (s : State) (h : Rising s.ports.fld.nodes) :
    node (updNode n f s) k = if k = n then f (node s k) else node s k := tab_get_upd _ h n k f
theorem node_updNode_ne {n k : Nat} (f : Node → Node) (s : State) (h : k ≠ n) : node (updNode n f s) k = node s k :=
  tab_get_upd_ne _ _ _ h
@[simp] theorem node_updPort (p n : Nat) (f : FPort → FPort) (s : State) : node (updPort p f s) n = node s n := rfl
@[simp] theorem fport_updNode (n p : Nat) (f : Node → Node) (s : State) : fport (updNode n f s) p = fport s p := rfl
theorem ser_updSer (q k : Nat) (f : Ser → Ser) (s : State) (h : Rising s.ports.ser) :
    ser (updSer q f s) k = if k = q then f (ser s k) else ser s k := tab_get_upd _ h q k f
theorem ser_updSer_ne {q k : Nat} (f : Ser → Ser) (s : State) (h : k ≠ q) : ser (updSer q f s) k = ser s k :=
  tab_get_upd_ne _ _ _ h
theorem crcCh_updCrc (n k : Nat) (f : CrcCh → CrcCh) (s : State) (h : Rising s.ports.crc) :
    crcCh (updCrc n f s) k = if k = n then f (crcCh s k) else crcCh s k := tab_get_upd _ h n k f
theorem crcCh_updCrc_ne {n k : Nat} (f : CrcCh → CrcCh) (s : State) (h : k ≠ n) : crcCh (updCrc n f s) k = crcCh s k :=
  tab_get_upd_ne _ _ _ h
@[simp] theorem ser_updCrc (n q : Nat) (f : CrcCh → CrcCh) (s : State) : ser (updCrc n f s) q = ser s q := rfl
@[simp] theorem crcCh_updSer (n q : Nat) (f : Ser → Ser) (s : State) : crcCh (updSer q f s) n = crcCh s n := rfl

/-! ## Sessions and outputs -/

@[simp] theorem updSession_host (ep : Endpoint) (f : Session → Session) (s : State) :
    (updSession ep f s).host = { s.host with sessions := s.host.sessions.map fun x => if x.ep = ep then f x else x } := rfl
/-- A change of the session of an endpoint that keeps its endpoint changes that session only. -/
theorem sessionOf_updSession (ep e : Endpoint) (f : Session → Session) (s : State) (hf : ∀ x, (f x).ep = x.ep) :
    sessionOf (updSession ep f s) e = (sessionOf s e).map fun x => if x.ep = ep then f x else x := by
  unfold sessionOf
  rw [updSession_host]
  induction s.host.sessions with
  | nil => rfl
  | cons x l ih =>
    have hx : (if x.ep = ep then f x else x).ep = x.ep := by split <;> simp [hf]
    simp only [List.map_cons, List.find?_cons, hx]
    cases decide (x.ep = e) <;> simp [ih]
@[simp] theorem emit_sent (x : Sent) (s : State) : (emit x s).sent = x :: s.sent := rfl

/-! ## Inputs and images -/

@[simp] theorem putWords_tsk (a : Nat) (vs : List W24) (s : State) :
    (putWords a vs s).tsk = { s.tsk with inWords := Tab.setRange 0 s.tsk.inWords a vs } := rfl
theorem putWords_inWords (a : Nat) (vs : List W24) (s : State) (h : Rising s.tsk.inWords) (b : Nat) :
    Tab.get 0 (putWords a vs s).tsk.inWords b = if a ≤ b ∧ b < a + vs.length then vs.getD (b - a) 0 else Tab.get 0 s.tsk.inWords b :=
  tab_get_setRange 0 h a vs b
theorem raiseTrigger_tsk (src idx : Nat) (rising : Bool) (s : State) :
    (raiseTrigger src idx rising s).tsk = { s.tsk with triggers := (raiseTrigger src idx rising s).tsk.triggers } := by
  unfold raiseTrigger; split <;> rfl
/-- A write of an input point writes that point and, on a change, raises the triggers that follow it. -/
theorem putBit_tsk (a : Nat) (v : Bool) (s : State) :
    (putBit a v s).tsk = { s.tsk with inBits := (putBit a v s).tsk.inBits, triggers := (putBit a v s).tsk.triggers } ∧
    (Rising s.tsk.inBits → Rising (putBit a v s).tsk.inBits ∧
      ∀ b, Tab.get false (putBit a v s).tsk.inBits b = if b = a then v else Tab.get false s.tsk.inBits b) := by
  have fold : ∀ (l : List Nat) (t : State), (l.foldl (fun s e => raiseTrigger 2 e v s) t).tsk =
      { t.tsk with triggers := (l.foldl (fun s e => raiseTrigger 2 e v s) t).tsk.triggers } := by
    intro l
    induction l with
    | nil => intro t; rfl
    | cons e l ih => intro t; rw [List.foldl_cons, ih, raiseTrigger_tsk]
  unfold putBit
  split
  · rename_i h
    refine ⟨rfl, fun hr => ⟨hr, fun b => ?_⟩⟩
    split
    · rename_i e; rw [e, h]
    · rfl
  · rw [fold]
    exact ⟨rfl, fun hr => ⟨rising_set _ _ hr _, fun b => tab_get_set _ _ hr a b⟩⟩
theorem markBlock_tsk (a : Nat) (s : State) : (markBlock a s).tsk = s.tsk := by
  unfold markBlock; (repeat' split) <;> rfl

/-! ## Ticks modulo 2^48 (R71) -/

theorem addTicks_lt (t n : Nat) : addTicks t n < 2 ^ 48 := Nat.mod_lt _ (by decide)
theorem ticksSince_lt (t now : Nat) : ticksSince t now < 2 ^ 48 := Nat.mod_lt _ (by decide)
/-- n ticks after t lie n ticks behind the sum, whether or not the count wraps between. -/
theorem ticksSince_addTicks (t n : Nat) (h : n < 2 ^ 48) : ticksSince t (addTicks t n) = n := by
  unfold ticksSince addTicks; omega
theorem ticksSince_self (t : Nat) : ticksSince t t = 0 := by unfold ticksSince; omega
theorem reached_self (t : Nat) : reached t t = true := by simp [reached, ticksSince_self]
/-- A tick less than half the wrap behind has come. -/
theorem reached_addTicks (t n : Nat) (h : n < 2 ^ 48) : reached t (addTicks t n) = decide (n < 2 ^ 47) := by
  simp [reached, ticksSince_addTicks t n h]

end Sys2Proof.Laws
end

