-- ==== Sys2Proof/Laws/Frames.lean ====
section
/-! SUPPORT. The frames of the shared operations: `Only.a_b s t` says that t differs from s in the parts a and b of the state at most,
and each operation's lemma names the parts that it can change. As simp lemmas they say, part by part, what an operation leaves
alone. -/

namespace Sys2Proof.Laws

open Sys2Proof.Machine

/-! ## The parts that may change -/

@[simp] abbrev Only.bkd (s t : State) : Prop :=
  t.pending = s.pending ∧ t.free = s.free ∧ t.sent = s.sent ∧ t.sys = s.sys ∧ t.res = s.res ∧ t.cast = s.cast ∧ t.tsk = s.tsk ∧ t.scan = s.scan ∧ t.prog = s.prog ∧ t.host = s.host ∧ t.red = s.red ∧ t.pas = s.pas ∧ t.ports = s.ports ∧ t.dio = s.dio ∧ t.iod = s.iod ∧ t.depot = s.depot ∧ t.log = s.log ∧ t.upd = s.upd
@[simp] abbrev Only.cast (s t : State) : Prop :=
  t.pending = s.pending ∧ t.free = s.free ∧ t.sent = s.sent ∧ t.sys = s.sys ∧ t.res = s.res ∧ t.tsk = s.tsk ∧ t.scan = s.scan ∧ t.prog = s.prog ∧ t.host = s.host ∧ t.red = s.red ∧ t.pas = s.pas ∧ t.ports = s.ports ∧ t.dio = s.dio ∧ t.iod = s.iod ∧ t.bkd = s.bkd ∧ t.depot = s.depot ∧ t.log = s.log ∧ t.upd = s.upd
@[simp] abbrev Only.depot (s t : State) : Prop :=
  t.pending = s.pending ∧ t.free = s.free ∧ t.sent = s.sent ∧ t.sys = s.sys ∧ t.res = s.res ∧ t.cast = s.cast ∧ t.tsk = s.tsk ∧ t.scan = s.scan ∧ t.prog = s.prog ∧ t.host = s.host ∧ t.red = s.red ∧ t.pas = s.pas ∧ t.ports = s.ports ∧ t.dio = s.dio ∧ t.iod = s.iod ∧ t.bkd = s.bkd ∧ t.log = s.log ∧ t.upd = s.upd
@[simp] abbrev Only.dio (s t : State) : Prop :=
  t.pending = s.pending ∧ t.free = s.free ∧ t.sent = s.sent ∧ t.sys = s.sys ∧ t.res = s.res ∧ t.cast = s.cast ∧ t.tsk = s.tsk ∧ t.scan = s.scan ∧ t.prog = s.prog ∧ t.host = s.host ∧ t.red = s.red ∧ t.pas = s.pas ∧ t.ports = s.ports ∧ t.iod = s.iod ∧ t.bkd = s.bkd ∧ t.depot = s.depot ∧ t.log = s.log ∧ t.upd = s.upd
@[simp] abbrev Only.free (s t : State) : Prop :=
  t.pending = s.pending ∧ t.sent = s.sent ∧ t.sys = s.sys ∧ t.res = s.res ∧ t.cast = s.cast ∧ t.tsk = s.tsk ∧ t.scan = s.scan ∧ t.prog = s.prog ∧ t.host = s.host ∧ t.red = s.red ∧ t.pas = s.pas ∧ t.ports = s.ports ∧ t.dio = s.dio ∧ t.iod = s.iod ∧ t.bkd = s.bkd ∧ t.depot = s.depot ∧ t.log = s.log ∧ t.upd = s.upd
@[simp] abbrev Only.host (s t : State) : Prop :=
  t.pending = s.pending ∧ t.free = s.free ∧ t.sent = s.sent ∧ t.sys = s.sys ∧ t.res = s.res ∧ t.cast = s.cast ∧ t.tsk = s.tsk ∧ t.scan = s.scan ∧ t.prog = s.prog ∧ t.red = s.red ∧ t.pas = s.pas ∧ t.ports = s.ports ∧ t.dio = s.dio ∧ t.iod = s.iod ∧ t.bkd = s.bkd ∧ t.depot = s.depot ∧ t.log = s.log ∧ t.upd = s.upd
@[simp] abbrev Only.iod (s t : State) : Prop :=
  t.pending = s.pending ∧ t.free = s.free ∧ t.sent = s.sent ∧ t.sys = s.sys ∧ t.res = s.res ∧ t.cast = s.cast ∧ t.tsk = s.tsk ∧ t.scan = s.scan ∧ t.prog = s.prog ∧ t.host = s.host ∧ t.red = s.red ∧ t.pas = s.pas ∧ t.ports = s.ports ∧ t.dio = s.dio ∧ t.bkd = s.bkd ∧ t.depot = s.depot ∧ t.log = s.log ∧ t.upd = s.upd
@[simp] abbrev Only.log (s t : State) : Prop :=
  t.pending = s.pending ∧ t.free = s.free ∧ t.sent = s.sent ∧ t.sys = s.sys ∧ t.res = s.res ∧ t.cast = s.cast ∧ t.tsk = s.tsk ∧ t.scan = s.scan ∧ t.prog = s.prog ∧ t.host = s.host ∧ t.red = s.red ∧ t.pas = s.pas ∧ t.ports = s.ports ∧ t.dio = s.dio ∧ t.iod = s.iod ∧ t.bkd = s.bkd ∧ t.depot = s.depot ∧ t.upd = s.upd
@[simp] abbrev Only.nothing (s t : State) : Prop :=
  t.pending = s.pending ∧ t.free = s.free ∧ t.sent = s.sent ∧ t.sys = s.sys ∧ t.res = s.res ∧ t.cast = s.cast ∧ t.tsk = s.tsk ∧ t.scan = s.scan ∧ t.prog = s.prog ∧ t.host = s.host ∧ t.red = s.red ∧ t.pas = s.pas ∧ t.ports = s.ports ∧ t.dio = s.dio ∧ t.iod = s.iod ∧ t.bkd = s.bkd ∧ t.depot = s.depot ∧ t.log = s.log ∧ t.upd = s.upd
@[simp] abbrev Only.pas (s t : State) : Prop :=
  t.pending = s.pending ∧ t.free = s.free ∧ t.sent = s.sent ∧ t.sys = s.sys ∧ t.res = s.res ∧ t.cast = s.cast ∧ t.tsk = s.tsk ∧ t.scan = s.scan ∧ t.prog = s.prog ∧ t.host = s.host ∧ t.red = s.red ∧ t.ports = s.ports ∧ t.dio = s.dio ∧ t.iod = s.iod ∧ t.bkd = s.bkd ∧ t.depot = s.depot ∧ t.log = s.log ∧ t.upd = s.upd
@[simp] abbrev Only.ports (s t : State) : Prop :=
  t.pending = s.pending ∧ t.free = s.free ∧ t.sent = s.sent ∧ t.sys = s.sys ∧ t.res = s.res ∧ t.cast = s.cast ∧ t.tsk = s.tsk ∧ t.scan = s.scan ∧ t.prog = s.prog ∧ t.host = s.host ∧ t.red = s.red ∧ t.pas = s.pas ∧ t.dio = s.dio ∧ t.iod = s.iod ∧ t.bkd = s.bkd ∧ t.depot = s.depot ∧ t.log = s.log ∧ t.upd = s.upd
@[simp] abbrev Only.prog (s t : State) : Prop :=
  t.pending = s.pending ∧ t.free = s.free ∧ t.sent = s.sent ∧ t.sys = s.sys ∧ t.res = s.res ∧ t.cast = s.cast ∧ t.tsk = s.tsk ∧ t.scan = s.scan ∧ t.host = s.host ∧ t.red = s.red ∧ t.pas = s.pas ∧ t.ports = s.ports ∧ t.dio = s.dio ∧ t.iod = s.iod ∧ t.bkd = s.bkd ∧ t.depot = s.depot ∧ t.log = s.log ∧ t.upd = s.upd
@[simp] abbrev Only.red (s t : State) : Prop :=
  t.pending = s.pending ∧ t.free = s.free ∧ t.sent = s.sent ∧ t.sys = s.sys ∧ t.res = s.res ∧ t.cast = s.cast ∧ t.tsk = s.tsk ∧ t.scan = s.scan ∧ t.prog = s.prog ∧ t.host = s.host ∧ t.pas = s.pas ∧ t.ports = s.ports ∧ t.dio = s.dio ∧ t.iod = s.iod ∧ t.bkd = s.bkd ∧ t.depot = s.depot ∧ t.log = s.log ∧ t.upd = s.upd
@[simp] abbrev Only.requests (s t : State) : Prop :=
  t.pending = s.pending ∧ t.iod = s.iod
@[simp] abbrev Only.res (s t : State) : Prop :=
  t.pending = s.pending ∧ t.free = s.free ∧ t.sent = s.sent ∧ t.sys = s.sys ∧ t.cast = s.cast ∧ t.tsk = s.tsk ∧ t.scan = s.scan ∧ t.prog = s.prog ∧ t.host = s.host ∧ t.red = s.red ∧ t.pas = s.pas ∧ t.ports = s.ports ∧ t.dio = s.dio ∧ t.iod = s.iod ∧ t.bkd = s.bkd ∧ t.depot = s.depot ∧ t.log = s.log ∧ t.upd = s.upd
@[simp] abbrev Only.scan (s t : State) : Prop :=
  t.pending = s.pending ∧ t.free = s.free ∧ t.sent = s.sent ∧ t.sys = s.sys ∧ t.res = s.res ∧ t.cast = s.cast ∧ t.tsk = s.tsk ∧ t.prog = s.prog ∧ t.host = s.host ∧ t.red = s.red ∧ t.pas = s.pas ∧ t.ports = s.ports ∧ t.dio = s.dio ∧ t.iod = s.iod ∧ t.bkd = s.bkd ∧ t.depot = s.depot ∧ t.log = s.log ∧ t.upd = s.upd
@[simp] abbrev Only.sent (s t : State) : Prop :=
  t.pending = s.pending ∧ t.free = s.free ∧ t.sys = s.sys ∧ t.res = s.res ∧ t.cast = s.cast ∧ t.tsk = s.tsk ∧ t.scan = s.scan ∧ t.prog = s.prog ∧ t.host = s.host ∧ t.red = s.red ∧ t.pas = s.pas ∧ t.ports = s.ports ∧ t.dio = s.dio ∧ t.iod = s.iod ∧ t.bkd = s.bkd ∧ t.depot = s.depot ∧ t.log = s.log ∧ t.upd = s.upd
@[simp] abbrev Only.sys (s t : State) : Prop :=
  t.pending = s.pending ∧ t.free = s.free ∧ t.sent = s.sent ∧ t.res = s.res ∧ t.cast = s.cast ∧ t.tsk = s.tsk ∧ t.scan = s.scan ∧ t.prog = s.prog ∧ t.host = s.host ∧ t.red = s.red ∧ t.pas = s.pas ∧ t.ports = s.ports ∧ t.dio = s.dio ∧ t.iod = s.iod ∧ t.bkd = s.bkd ∧ t.depot = s.depot ∧ t.log = s.log ∧ t.upd = s.upd
@[simp] abbrev Only.tsk (s t : State) : Prop :=
  t.pending = s.pending ∧ t.free = s.free ∧ t.sent = s.sent ∧ t.sys = s.sys ∧ t.res = s.res ∧ t.cast = s.cast ∧ t.scan = s.scan ∧ t.prog = s.prog ∧ t.host = s.host ∧ t.red = s.red ∧ t.pas = s.pas ∧ t.ports = s.ports ∧ t.dio = s.dio ∧ t.iod = s.iod ∧ t.bkd = s.bkd ∧ t.depot = s.depot ∧ t.log = s.log ∧ t.upd = s.upd
@[simp] abbrev Only.upd (s t : State) : Prop :=
  t.pending = s.pending ∧ t.free = s.free ∧ t.sent = s.sent ∧ t.sys = s.sys ∧ t.res = s.res ∧ t.cast = s.cast ∧ t.tsk = s.tsk ∧ t.scan = s.scan ∧ t.prog = s.prog ∧ t.host = s.host ∧ t.red = s.red ∧ t.pas = s.pas ∧ t.ports = s.ports ∧ t.dio = s.dio ∧ t.iod = s.iod ∧ t.bkd = s.bkd ∧ t.depot = s.depot ∧ t.log = s.log
@[simp] abbrev Only.bkd_upd (s t : State) : Prop :=
  t.pending = s.pending ∧ t.free = s.free ∧ t.sent = s.sent ∧ t.sys = s.sys ∧ t.res = s.res ∧ t.cast = s.cast ∧ t.tsk = s.tsk ∧ t.scan = s.scan ∧ t.prog = s.prog ∧ t.host = s.host ∧ t.red = s.red ∧ t.pas = s.pas ∧ t.ports = s.ports ∧ t.dio = s.dio ∧ t.iod = s.iod ∧ t.depot = s.depot ∧ t.log = s.log
@[simp] abbrev Only.cast_ports (s t : State) : Prop :=
  t.pending = s.pending ∧ t.free = s.free ∧ t.sent = s.sent ∧ t.sys = s.sys ∧ t.res = s.res ∧ t.tsk = s.tsk ∧ t.scan = s.scan ∧ t.prog = s.prog ∧ t.host = s.host ∧ t.red = s.red ∧ t.pas = s.pas ∧ t.dio = s.dio ∧ t.iod = s.iod ∧ t.bkd = s.bkd ∧ t.depot = s.depot ∧ t.log = s.log ∧ t.upd = s.upd
@[simp] abbrev Only.depot_log (s t : State) : Prop :=
  t.pending = s.pending ∧ t.free = s.free ∧ t.sent = s.sent ∧ t.sys = s.sys ∧ t.res = s.res ∧ t.cast = s.cast ∧ t.tsk = s.tsk ∧ t.scan = s.scan ∧ t.prog = s.prog ∧ t.host = s.host ∧ t.red = s.red ∧ t.pas = s.pas ∧ t.ports = s.ports ∧ t.dio = s.dio ∧ t.iod = s.iod ∧ t.bkd = s.bkd ∧ t.upd = s.upd
@[simp] abbrev Only.depot_upd (s t : State) : Prop :=
  t.pending = s.pending ∧ t.free = s.free ∧ t.sent = s.sent ∧ t.sys = s.sys ∧ t.res = s.res ∧ t.cast = s.cast ∧ t.tsk = s.tsk ∧ t.scan = s.scan ∧ t.prog = s.prog ∧ t.host = s.host ∧ t.red = s.red ∧ t.pas = s.pas ∧ t.ports = s.ports ∧ t.dio = s.dio ∧ t.iod = s.iod ∧ t.bkd = s.bkd ∧ t.log = s.log
@[simp] abbrev Only.dio_iod (s t : State) : Prop :=
  t.pending = s.pending ∧ t.free = s.free ∧ t.sent = s.sent ∧ t.sys = s.sys ∧ t.res = s.res ∧ t.cast = s.cast ∧ t.tsk = s.tsk ∧ t.scan = s.scan ∧ t.prog = s.prog ∧ t.host = s.host ∧ t.red = s.red ∧ t.pas = s.pas ∧ t.ports = s.ports ∧ t.bkd = s.bkd ∧ t.depot = s.depot ∧ t.log = s.log ∧ t.upd = s.upd
@[simp] abbrev Only.dio_upd (s t : State) : Prop :=
  t.pending = s.pending ∧ t.free = s.free ∧ t.sent = s.sent ∧ t.sys = s.sys ∧ t.res = s.res ∧ t.cast = s.cast ∧ t.tsk = s.tsk ∧ t.scan = s.scan ∧ t.prog = s.prog ∧ t.host = s.host ∧ t.red = s.red ∧ t.pas = s.pas ∧ t.ports = s.ports ∧ t.iod = s.iod ∧ t.bkd = s.bkd ∧ t.depot = s.depot ∧ t.log = s.log
@[simp] abbrev Only.free_bkd (s t : State) : Prop :=
  t.pending = s.pending ∧ t.sent = s.sent ∧ t.sys = s.sys ∧ t.res = s.res ∧ t.cast = s.cast ∧ t.tsk = s.tsk ∧ t.scan = s.scan ∧ t.prog = s.prog ∧ t.host = s.host ∧ t.red = s.red ∧ t.pas = s.pas ∧ t.ports = s.ports ∧ t.dio = s.dio ∧ t.iod = s.iod ∧ t.depot = s.depot ∧ t.log = s.log ∧ t.upd = s.upd
@[simp] abbrev Only.free_cast (s t : State) : Prop :=
  t.pending = s.pending ∧ t.sent = s.sent ∧ t.sys = s.sys ∧ t.res = s.res ∧ t.tsk = s.tsk ∧ t.scan = s.scan ∧ t.prog = s.prog ∧ t.host = s.host ∧ t.red = s.red ∧ t.pas = s.pas ∧ t.ports = s.ports ∧ t.dio = s.dio ∧ t.iod = s.iod ∧ t.bkd = s.bkd ∧ t.depot = s.depot ∧ t.log = s.log ∧ t.upd = s.upd
@[simp] abbrev Only.free_pas (s t : State) : Prop :=
  t.pending = s.pending ∧ t.sent = s.sent ∧ t.sys = s.sys ∧ t.res = s.res ∧ t.cast = s.cast ∧ t.tsk = s.tsk ∧ t.scan = s.scan ∧ t.prog = s.prog ∧ t.host = s.host ∧ t.red = s.red ∧ t.ports = s.ports ∧ t.dio = s.dio ∧ t.iod = s.iod ∧ t.bkd = s.bkd ∧ t.depot = s.depot ∧ t.log = s.log ∧ t.upd = s.upd
@[simp] abbrev Only.free_ports (s t : State) : Prop :=
  t.pending = s.pending ∧ t.sent = s.sent ∧ t.sys = s.sys ∧ t.res = s.res ∧ t.cast = s.cast ∧ t.tsk = s.tsk ∧ t.scan = s.scan ∧ t.prog = s.prog ∧ t.host = s.host ∧ t.red = s.red ∧ t.pas = s.pas ∧ t.dio = s.dio ∧ t.iod = s.iod ∧ t.bkd = s.bkd ∧ t.depot = s.depot ∧ t.log = s.log ∧ t.upd = s.upd
@[simp] abbrev Only.free_red (s t : State) : Prop :=
  t.pending = s.pending ∧ t.sent = s.sent ∧ t.sys = s.sys ∧ t.res = s.res ∧ t.cast = s.cast ∧ t.tsk = s.tsk ∧ t.scan = s.scan ∧ t.prog = s.prog ∧ t.host = s.host ∧ t.pas = s.pas ∧ t.ports = s.ports ∧ t.dio = s.dio ∧ t.iod = s.iod ∧ t.bkd = s.bkd ∧ t.depot = s.depot ∧ t.log = s.log ∧ t.upd = s.upd
@[simp] abbrev Only.pas_upd (s t : State) : Prop :=
  t.pending = s.pending ∧ t.free = s.free ∧ t.sent = s.sent ∧ t.sys = s.sys ∧ t.res = s.res ∧ t.cast = s.cast ∧ t.tsk = s.tsk ∧ t.scan = s.scan ∧ t.prog = s.prog ∧ t.host = s.host ∧ t.red = s.red ∧ t.ports = s.ports ∧ t.dio = s.dio ∧ t.iod = s.iod ∧ t.bkd = s.bkd ∧ t.depot = s.depot ∧ t.log = s.log
@[simp] abbrev Only.prog_red (s t : State) : Prop :=
  t.pending = s.pending ∧ t.free = s.free ∧ t.sent = s.sent ∧ t.sys = s.sys ∧ t.res = s.res ∧ t.cast = s.cast ∧ t.tsk = s.tsk ∧ t.scan = s.scan ∧ t.host = s.host ∧ t.pas = s.pas ∧ t.ports = s.ports ∧ t.dio = s.dio ∧ t.iod = s.iod ∧ t.bkd = s.bkd ∧ t.depot = s.depot ∧ t.log = s.log ∧ t.upd = s.upd
@[simp] abbrev Only.red_depot (s t : State) : Prop :=
  t.pending = s.pending ∧ t.free = s.free ∧ t.sent = s.sent ∧ t.sys = s.sys ∧ t.res = s.res ∧ t.cast = s.cast ∧ t.tsk = s.tsk ∧ t.scan = s.scan ∧ t.prog = s.prog ∧ t.host = s.host ∧ t.pas = s.pas ∧ t.ports = s.ports ∧ t.dio = s.dio ∧ t.iod = s.iod ∧ t.bkd = s.bkd ∧ t.log = s.log ∧ t.upd = s.upd
@[simp] abbrev Only.sent_depot (s t : State) : Prop :=
  t.pending = s.pending ∧ t.free = s.free ∧ t.sys = s.sys ∧ t.res = s.res ∧ t.cast = s.cast ∧ t.tsk = s.tsk ∧ t.scan = s.scan ∧ t.prog = s.prog ∧ t.host = s.host ∧ t.red = s.red ∧ t.pas = s.pas ∧ t.ports = s.ports ∧ t.dio = s.dio ∧ t.iod = s.iod ∧ t.bkd = s.bkd ∧ t.log = s.log ∧ t.upd = s.upd
@[simp] abbrev Only.sent_dio (s t : State) : Prop :=
  t.pending = s.pending ∧ t.free = s.free ∧ t.sys = s.sys ∧ t.res = s.res ∧ t.cast = s.cast ∧ t.tsk = s.tsk ∧ t.scan = s.scan ∧ t.prog = s.prog ∧ t.host = s.host ∧ t.red = s.red ∧ t.pas = s.pas ∧ t.ports = s.ports ∧ t.iod = s.iod ∧ t.bkd = s.bkd ∧ t.depot = s.depot ∧ t.log = s.log ∧ t.upd = s.upd
@[simp] abbrev Only.sent_host (s t : State) : Prop :=
  t.pending = s.pending ∧ t.free = s.free ∧ t.sys = s.sys ∧ t.res = s.res ∧ t.cast = s.cast ∧ t.tsk = s.tsk ∧ t.scan = s.scan ∧ t.prog = s.prog ∧ t.red = s.red ∧ t.pas = s.pas ∧ t.ports = s.ports ∧ t.dio = s.dio ∧ t.iod = s.iod ∧ t.bkd = s.bkd ∧ t.depot = s.depot ∧ t.log = s.log ∧ t.upd = s.upd
@[simp] abbrev Only.sent_iod (s t : State) : Prop :=
  t.pending = s.pending ∧ t.free = s.free ∧ t.sys = s.sys ∧ t.res = s.res ∧ t.cast = s.cast ∧ t.tsk = s.tsk ∧ t.scan = s.scan ∧ t.prog = s.prog ∧ t.host = s.host ∧ t.red = s.red ∧ t.pas = s.pas ∧ t.ports = s.ports ∧ t.dio = s.dio ∧ t.bkd = s.bkd ∧ t.depot = s.depot ∧ t.log = s.log ∧ t.upd = s.upd
@[simp] abbrev Only.sent_pas (s t : State) : Prop :=
  t.pending = s.pending ∧ t.free = s.free ∧ t.sys = s.sys ∧ t.res = s.res ∧ t.cast = s.cast ∧ t.tsk = s.tsk ∧ t.scan = s.scan ∧ t.prog = s.prog ∧ t.host = s.host ∧ t.red = s.red ∧ t.ports = s.ports ∧ t.dio = s.dio ∧ t.iod = s.iod ∧ t.bkd = s.bkd ∧ t.depot = s.depot ∧ t.log = s.log ∧ t.upd = s.upd
@[simp] abbrev Only.sent_ports (s t : State) : Prop :=
  t.pending = s.pending ∧ t.free = s.free ∧ t.sys = s.sys ∧ t.res = s.res ∧ t.cast = s.cast ∧ t.tsk = s.tsk ∧ t.scan = s.scan ∧ t.prog = s.prog ∧ t.host = s.host ∧ t.red = s.red ∧ t.pas = s.pas ∧ t.dio = s.dio ∧ t.iod = s.iod ∧ t.bkd = s.bkd ∧ t.depot = s.depot ∧ t.log = s.log ∧ t.upd = s.upd
@[simp] abbrev Only.sent_prog (s t : State) : Prop :=
  t.pending = s.pending ∧ t.free = s.free ∧ t.sys = s.sys ∧ t.res = s.res ∧ t.cast = s.cast ∧ t.tsk = s.tsk ∧ t.scan = s.scan ∧ t.host = s.host ∧ t.red = s.red ∧ t.pas = s.pas ∧ t.ports = s.ports ∧ t.dio = s.dio ∧ t.iod = s.iod ∧ t.bkd = s.bkd ∧ t.depot = s.depot ∧ t.log = s.log ∧ t.upd = s.upd
@[simp] abbrev Only.sent_red (s t : State) : Prop :=
  t.pending = s.pending ∧ t.free = s.free ∧ t.sys = s.sys ∧ t.res = s.res ∧ t.cast = s.cast ∧ t.tsk = s.tsk ∧ t.scan = s.scan ∧ t.prog = s.prog ∧ t.host = s.host ∧ t.pas = s.pas ∧ t.ports = s.ports ∧ t.dio = s.dio ∧ t.iod = s.iod ∧ t.bkd = s.bkd ∧ t.depot = s.depot ∧ t.log = s.log ∧ t.upd = s.upd
@[simp] abbrev Only.sys_bkd (s t : State) : Prop :=
  t.pending = s.pending ∧ t.free = s.free ∧ t.sent = s.sent ∧ t.res = s.res ∧ t.cast = s.cast ∧ t.tsk = s.tsk ∧ t.scan = s.scan ∧ t.prog = s.prog ∧ t.host = s.host ∧ t.red = s.red ∧ t.pas = s.pas ∧ t.ports = s.ports ∧ t.dio = s.dio ∧ t.iod = s.iod ∧ t.depot = s.depot ∧ t.log = s.log ∧ t.upd = s.upd
@[simp] abbrev Only.sys_scan (s t : State) : Prop :=
  t.pending = s.pending ∧ t.free = s.free ∧ t.sent = s.sent ∧ t.res = s.res ∧ t.cast = s.cast ∧ t.tsk = s.tsk ∧ t.prog = s.prog ∧ t.host = s.host ∧ t.red = s.red ∧ t.pas = s.pas ∧ t.ports = s.ports ∧ t.dio = s.dio ∧ t.iod = s.iod ∧ t.bkd = s.bkd ∧ t.depot = s.depot ∧ t.log = s.log ∧ t.upd = s.upd
@[simp] abbrev Only.sys_upd (s t : State) : Prop :=
  t.pending = s.pending ∧ t.free = s.free ∧ t.sent = s.sent ∧ t.res = s.res ∧ t.cast = s.cast ∧ t.tsk = s.tsk ∧ t.scan = s.scan ∧ t.prog = s.prog ∧ t.host = s.host ∧ t.red = s.red ∧ t.pas = s.pas ∧ t.ports = s.ports ∧ t.dio = s.dio ∧ t.iod = s.iod ∧ t.bkd = s.bkd ∧ t.depot = s.depot ∧ t.log = s.log
@[simp] abbrev Only.tsk_ports (s t : State) : Prop :=
  t.pending = s.pending ∧ t.free = s.free ∧ t.sent = s.sent ∧ t.sys = s.sys ∧ t.res = s.res ∧ t.cast = s.cast ∧ t.scan = s.scan ∧ t.prog = s.prog ∧ t.host = s.host ∧ t.red = s.red ∧ t.pas = s.pas ∧ t.dio = s.dio ∧ t.iod = s.iod ∧ t.bkd = s.bkd ∧ t.depot = s.depot ∧ t.log = s.log ∧ t.upd = s.upd
@[simp] abbrev Only.tsk_prog (s t : State) : Prop :=
  t.pending = s.pending ∧ t.free = s.free ∧ t.sent = s.sent ∧ t.sys = s.sys ∧ t.res = s.res ∧ t.cast = s.cast ∧ t.scan = s.scan ∧ t.host = s.host ∧ t.red = s.red ∧ t.pas = s.pas ∧ t.ports = s.ports ∧ t.dio = s.dio ∧ t.iod = s.iod ∧ t.bkd = s.bkd ∧ t.depot = s.depot ∧ t.log = s.log ∧ t.upd = s.upd
@[simp] abbrev Only.tsk_red (s t : State) : Prop :=
  t.pending = s.pending ∧ t.free = s.free ∧ t.sent = s.sent ∧ t.sys = s.sys ∧ t.res = s.res ∧ t.cast = s.cast ∧ t.scan = s.scan ∧ t.prog = s.prog ∧ t.host = s.host ∧ t.pas = s.pas ∧ t.ports = s.ports ∧ t.dio = s.dio ∧ t.iod = s.iod ∧ t.bkd = s.bkd ∧ t.depot = s.depot ∧ t.log = s.log ∧ t.upd = s.upd
@[simp] abbrev Only.tsk_scan (s t : State) : Prop :=
  t.pending = s.pending ∧ t.free = s.free ∧ t.sent = s.sent ∧ t.sys = s.sys ∧ t.res = s.res ∧ t.cast = s.cast ∧ t.prog = s.prog ∧ t.host = s.host ∧ t.red = s.red ∧ t.pas = s.pas ∧ t.ports = s.ports ∧ t.dio = s.dio ∧ t.iod = s.iod ∧ t.bkd = s.bkd ∧ t.depot = s.depot ∧ t.log = s.log ∧ t.upd = s.upd
@[simp] abbrev Only.cast_ports_upd (s t : State) : Prop :=
  t.pending = s.pending ∧ t.free = s.free ∧ t.sent = s.sent ∧ t.sys = s.sys ∧ t.res = s.res ∧ t.tsk = s.tsk ∧ t.scan = s.scan ∧ t.prog = s.prog ∧ t.host = s.host ∧ t.red = s.red ∧ t.pas = s.pas ∧ t.dio = s.dio ∧ t.iod = s.iod ∧ t.bkd = s.bkd ∧ t.depot = s.depot ∧ t.log = s.log
@[simp] abbrev Only.free_sent_pas (s t : State) : Prop :=
  t.pending = s.pending ∧ t.sys = s.sys ∧ t.res = s.res ∧ t.cast = s.cast ∧ t.tsk = s.tsk ∧ t.scan = s.scan ∧ t.prog = s.prog ∧ t.host = s.host ∧ t.red = s.red ∧ t.ports = s.ports ∧ t.dio = s.dio ∧ t.iod = s.iod ∧ t.bkd = s.bkd ∧ t.depot = s.depot ∧ t.log = s.log ∧ t.upd = s.upd
@[simp] abbrev Only.host_depot_log (s t : State) : Prop :=
  t.pending = s.pending ∧ t.free = s.free ∧ t.sent = s.sent ∧ t.sys = s.sys ∧ t.res = s.res ∧ t.cast = s.cast ∧ t.tsk = s.tsk ∧ t.scan = s.scan ∧ t.prog = s.prog ∧ t.red = s.red ∧ t.pas = s.pas ∧ t.ports = s.ports ∧ t.dio = s.dio ∧ t.iod = s.iod ∧ t.bkd = s.bkd ∧ t.upd = s.upd
@[simp] abbrev Only.red_pas_upd (s t : State) : Prop :=
  t.pending = s.pending ∧ t.free = s.free ∧ t.sent = s.sent ∧ t.sys = s.sys ∧ t.res = s.res ∧ t.cast = s.cast ∧ t.tsk = s.tsk ∧ t.scan = s.scan ∧ t.prog = s.prog ∧ t.host = s.host ∧ t.ports = s.ports ∧ t.dio = s.dio ∧ t.iod = s.iod ∧ t.bkd = s.bkd ∧ t.depot = s.depot ∧ t.log = s.log
@[simp] abbrev Only.res_cast_ports (s t : State) : Prop :=
  t.pending = s.pending ∧ t.free = s.free ∧ t.sent = s.sent ∧ t.sys = s.sys ∧ t.tsk = s.tsk ∧ t.scan = s.scan ∧ t.prog = s.prog ∧ t.host = s.host ∧ t.red = s.red ∧ t.pas = s.pas ∧ t.dio = s.dio ∧ t.iod = s.iod ∧ t.bkd = s.bkd ∧ t.depot = s.depot ∧ t.log = s.log ∧ t.upd = s.upd
@[simp] abbrev Only.sent_host_log (s t : State) : Prop :=
  t.pending = s.pending ∧ t.free = s.free ∧ t.sys = s.sys ∧ t.res = s.res ∧ t.cast = s.cast ∧ t.tsk = s.tsk ∧ t.scan = s.scan ∧ t.prog = s.prog ∧ t.red = s.red ∧ t.pas = s.pas ∧ t.ports = s.ports ∧ t.dio = s.dio ∧ t.iod = s.iod ∧ t.bkd = s.bkd ∧ t.depot = s.depot ∧ t.upd = s.upd
@[simp] abbrev Only.sent_pas_ports (s t : State) : Prop :=
  t.pending = s.pending ∧ t.free = s.free ∧ t.sys = s.sys ∧ t.res = s.res ∧ t.cast = s.cast ∧ t.tsk = s.tsk ∧ t.scan = s.scan ∧ t.prog = s.prog ∧ t.host = s.host ∧ t.red = s.red ∧ t.dio = s.dio ∧ t.iod = s.iod ∧ t.bkd = s.bkd ∧ t.depot = s.depot ∧ t.log = s.log ∧ t.upd = s.upd
@[simp] abbrev Only.sent_ports_dio (s t : State) : Prop :=
  t.pending = s.pending ∧ t.free = s.free ∧ t.sys = s.sys ∧ t.res = s.res ∧ t.cast = s.cast ∧ t.tsk = s.tsk ∧ t.scan = s.scan ∧ t.prog = s.prog ∧ t.host = s.host ∧ t.red = s.red ∧ t.pas = s.pas ∧ t.iod = s.iod ∧ t.bkd = s.bkd ∧ t.depot = s.depot ∧ t.log = s.log ∧ t.upd = s.upd
@[simp] abbrev Only.sent_prog_red (s t : State) : Prop :=
  t.pending = s.pending ∧ t.free = s.free ∧ t.sys = s.sys ∧ t.res = s.res ∧ t.cast = s.cast ∧ t.tsk = s.tsk ∧ t.scan = s.scan ∧ t.host = s.host ∧ t.pas = s.pas ∧ t.ports = s.ports ∧ t.dio = s.dio ∧ t.iod = s.iod ∧ t.bkd = s.bkd ∧ t.depot = s.depot ∧ t.log = s.log ∧ t.upd = s.upd
@[simp] abbrev Only.sent_red_pas (s t : State) : Prop :=
  t.pending = s.pending ∧ t.free = s.free ∧ t.sys = s.sys ∧ t.res = s.res ∧ t.cast = s.cast ∧ t.tsk = s.tsk ∧ t.scan = s.scan ∧ t.prog = s.prog ∧ t.host = s.host ∧ t.ports = s.ports ∧ t.dio = s.dio ∧ t.iod = s.iod ∧ t.bkd = s.bkd ∧ t.depot = s.depot ∧ t.log = s.log ∧ t.upd = s.upd
@[simp] abbrev Only.sent_tsk_pas (s t : State) : Prop :=
  t.pending = s.pending ∧ t.free = s.free ∧ t.sys = s.sys ∧ t.res = s.res ∧ t.cast = s.cast ∧ t.scan = s.scan ∧ t.prog = s.prog ∧ t.host = s.host ∧ t.red = s.red ∧ t.ports = s.ports ∧ t.dio = s.dio ∧ t.iod = s.iod ∧ t.bkd = s.bkd ∧ t.depot = s.depot ∧ t.log = s.log ∧ t.upd = s.upd
@[simp] abbrev Only.sent_tsk_ports (s t : State) : Prop :=
  t.pending = s.pending ∧ t.free = s.free ∧ t.sys = s.sys ∧ t.res = s.res ∧ t.cast = s.cast ∧ t.scan = s.scan ∧ t.prog = s.prog ∧ t.host = s.host ∧ t.red = s.red ∧ t.pas = s.pas ∧ t.dio = s.dio ∧ t.iod = s.iod ∧ t.bkd = s.bkd ∧ t.depot = s.depot ∧ t.log = s.log ∧ t.upd = s.upd
@[simp] abbrev Only.sent_tsk_scan (s t : State) : Prop :=
  t.pending = s.pending ∧ t.free = s.free ∧ t.sys = s.sys ∧ t.res = s.res ∧ t.cast = s.cast ∧ t.prog = s.prog ∧ t.host = s.host ∧ t.red = s.red ∧ t.pas = s.pas ∧ t.ports = s.ports ∧ t.dio = s.dio ∧ t.iod = s.iod ∧ t.bkd = s.bkd ∧ t.depot = s.depot ∧ t.log = s.log ∧ t.upd = s.upd
@[simp] abbrev Only.tsk_prog_red (s t : State) : Prop :=
  t.pending = s.pending ∧ t.free = s.free ∧ t.sent = s.sent ∧ t.sys = s.sys ∧ t.res = s.res ∧ t.cast = s.cast ∧ t.scan = s.scan ∧ t.host = s.host ∧ t.pas = s.pas ∧ t.ports = s.ports ∧ t.dio = s.dio ∧ t.iod = s.iod ∧ t.bkd = s.bkd ∧ t.depot = s.depot ∧ t.log = s.log ∧ t.upd = s.upd
@[simp] abbrev Only.tsk_scan_depot (s t : State) : Prop :=
  t.pending = s.pending ∧ t.free = s.free ∧ t.sent = s.sent ∧ t.sys = s.sys ∧ t.res = s.res ∧ t.cast = s.cast ∧ t.prog = s.prog ∧ t.host = s.host ∧ t.red = s.red ∧ t.pas = s.pas ∧ t.ports = s.ports ∧ t.dio = s.dio ∧ t.iod = s.iod ∧ t.bkd = s.bkd ∧ t.log = s.log ∧ t.upd = s.upd
@[simp] abbrev Only.tsk_scan_prog (s t : State) : Prop :=
  t.pending = s.pending ∧ t.free = s.free ∧ t.sent = s.sent ∧ t.sys = s.sys ∧ t.res = s.res ∧ t.cast = s.cast ∧ t.host = s.host ∧ t.red = s.red ∧ t.pas = s.pas ∧ t.ports = s.ports ∧ t.dio = s.dio ∧ t.iod = s.iod ∧ t.bkd = s.bkd ∧ t.depot = s.depot ∧ t.log = s.log ∧ t.upd = s.upd
@[simp] abbrev Only.tsk_scan_red (s t : State) : Prop :=
  t.pending = s.pending ∧ t.free = s.free ∧ t.sent = s.sent ∧ t.sys = s.sys ∧ t.res = s.res ∧ t.cast = s.cast ∧ t.prog = s.prog ∧ t.host = s.host ∧ t.pas = s.pas ∧ t.ports = s.ports ∧ t.dio = s.dio ∧ t.iod = s.iod ∧ t.bkd = s.bkd ∧ t.depot = s.depot ∧ t.log = s.log ∧ t.upd = s.upd
@[simp] abbrev Only.cast_red_ports_upd (s t : State) : Prop :=
  t.pending = s.pending ∧ t.free = s.free ∧ t.sent = s.sent ∧ t.sys = s.sys ∧ t.res = s.res ∧ t.tsk = s.tsk ∧ t.scan = s.scan ∧ t.prog = s.prog ∧ t.host = s.host ∧ t.pas = s.pas ∧ t.dio = s.dio ∧ t.iod = s.iod ∧ t.bkd = s.bkd ∧ t.depot = s.depot ∧ t.log = s.log
@[simp] abbrev Only.free_sent_cast_pas (s t : State) : Prop :=
  t.pending = s.pending ∧ t.sys = s.sys ∧ t.res = s.res ∧ t.tsk = s.tsk ∧ t.scan = s.scan ∧ t.prog = s.prog ∧ t.host = s.host ∧ t.red = s.red ∧ t.ports = s.ports ∧ t.dio = s.dio ∧ t.iod = s.iod ∧ t.bkd = s.bkd ∧ t.depot = s.depot ∧ t.log = s.log ∧ t.upd = s.upd
@[simp] abbrev Only.res_cast_ports_upd (s t : State) : Prop :=
  t.pending = s.pending ∧ t.free = s.free ∧ t.sent = s.sent ∧ t.sys = s.sys ∧ t.tsk = s.tsk ∧ t.scan = s.scan ∧ t.prog = s.prog ∧ t.host = s.host ∧ t.red = s.red ∧ t.pas = s.pas ∧ t.dio = s.dio ∧ t.iod = s.iod ∧ t.bkd = s.bkd ∧ t.depot = s.depot ∧ t.log = s.log
@[simp] abbrev Only.sent_host_pas_log (s t : State) : Prop :=
  t.pending = s.pending ∧ t.free = s.free ∧ t.sys = s.sys ∧ t.res = s.res ∧ t.cast = s.cast ∧ t.tsk = s.tsk ∧ t.scan = s.scan ∧ t.prog = s.prog ∧ t.red = s.red ∧ t.ports = s.ports ∧ t.dio = s.dio ∧ t.iod = s.iod ∧ t.bkd = s.bkd ∧ t.depot = s.depot ∧ t.upd = s.upd
@[simp] abbrev Only.sent_prog_red_pas (s t : State) : Prop :=
  t.pending = s.pending ∧ t.free = s.free ∧ t.sys = s.sys ∧ t.res = s.res ∧ t.cast = s.cast ∧ t.tsk = s.tsk ∧ t.scan = s.scan ∧ t.host = s.host ∧ t.ports = s.ports ∧ t.dio = s.dio ∧ t.iod = s.iod ∧ t.bkd = s.bkd ∧ t.depot = s.depot ∧ t.log = s.log ∧ t.upd = s.upd
@[simp] abbrev Only.free_sent_host_pas_log (s t : State) : Prop :=
  t.pending = s.pending ∧ t.sys = s.sys ∧ t.res = s.res ∧ t.cast = s.cast ∧ t.tsk = s.tsk ∧ t.scan = s.scan ∧ t.prog = s.prog ∧ t.red = s.red ∧ t.ports = s.ports ∧ t.dio = s.dio ∧ t.iod = s.iod ∧ t.bkd = s.bkd ∧ t.depot = s.depot ∧ t.upd = s.upd
@[simp] abbrev Only.res_cast_prog_ports_upd (s t : State) : Prop :=
  t.pending = s.pending ∧ t.free = s.free ∧ t.sent = s.sent ∧ t.sys = s.sys ∧ t.tsk = s.tsk ∧ t.scan = s.scan ∧ t.host = s.host ∧ t.red = s.red ∧ t.pas = s.pas ∧ t.dio = s.dio ∧ t.iod = s.iod ∧ t.bkd = s.bkd ∧ t.depot = s.depot ∧ t.log = s.log
@[simp] abbrev Only.res_cast_tsk_ports_upd (s t : State) : Prop :=
  t.pending = s.pending ∧ t.free = s.free ∧ t.sent = s.sent ∧ t.sys = s.sys ∧ t.scan = s.scan ∧ t.prog = s.prog ∧ t.host = s.host ∧ t.red = s.red ∧ t.pas = s.pas ∧ t.dio = s.dio ∧ t.iod = s.iod ∧ t.bkd = s.bkd ∧ t.depot = s.depot ∧ t.log = s.log
@[simp] abbrev Only.sent_host_pas_bkd_log (s t : State) : Prop :=
  t.pending = s.pending ∧ t.free = s.free ∧ t.sys = s.sys ∧ t.res = s.res ∧ t.cast = s.cast ∧ t.tsk = s.tsk ∧ t.scan = s.scan ∧ t.prog = s.prog ∧ t.red = s.red ∧ t.ports = s.ports ∧ t.dio = s.dio ∧ t.iod = s.iod ∧ t.depot = s.depot ∧ t.upd = s.upd
@[simp] abbrev Only.sent_host_pas_depot_log (s t : State) : Prop :=
  t.pending = s.pending ∧ t.free = s.free ∧ t.sys = s.sys ∧ t.res = s.res ∧ t.cast = s.cast ∧ t.tsk = s.tsk ∧ t.scan = s.scan ∧ t.prog = s.prog ∧ t.red = s.red ∧ t.ports = s.ports ∧ t.dio = s.dio ∧ t.iod = s.iod ∧ t.bkd = s.bkd ∧ t.upd = s.upd
@[simp] abbrev Only.sent_host_pas_dio_log (s t : State) : Prop :=
  t.pending = s.pending ∧ t.free = s.free ∧ t.sys = s.sys ∧ t.res = s.res ∧ t.cast = s.cast ∧ t.tsk = s.tsk ∧ t.scan = s.scan ∧ t.prog = s.prog ∧ t.red = s.red ∧ t.ports = s.ports ∧ t.iod = s.iod ∧ t.bkd = s.bkd ∧ t.depot = s.depot ∧ t.upd = s.upd
@[simp] abbrev Only.sent_host_pas_log_upd (s t : State) : Prop :=
  t.pending = s.pending ∧ t.free = s.free ∧ t.sys = s.sys ∧ t.res = s.res ∧ t.cast = s.cast ∧ t.tsk = s.tsk ∧ t.scan = s.scan ∧ t.prog = s.prog ∧ t.red = s.red ∧ t.ports = s.ports ∧ t.dio = s.dio ∧ t.iod = s.iod ∧ t.bkd = s.bkd ∧ t.depot = s.depot
@[simp] abbrev Only.sent_host_pas_ports_log (s t : State) : Prop :=
  t.pending = s.pending ∧ t.free = s.free ∧ t.sys = s.sys ∧ t.res = s.res ∧ t.cast = s.cast ∧ t.tsk = s.tsk ∧ t.scan = s.scan ∧ t.prog = s.prog ∧ t.red = s.red ∧ t.dio = s.dio ∧ t.iod = s.iod ∧ t.bkd = s.bkd ∧ t.depot = s.depot ∧ t.upd = s.upd
@[simp] abbrev Only.sent_host_red_pas_log (s t : State) : Prop :=
  t.pending = s.pending ∧ t.free = s.free ∧ t.sys = s.sys ∧ t.res = s.res ∧ t.cast = s.cast ∧ t.tsk = s.tsk ∧ t.scan = s.scan ∧ t.prog = s.prog ∧ t.ports = s.ports ∧ t.dio = s.dio ∧ t.iod = s.iod ∧ t.bkd = s.bkd ∧ t.depot = s.depot ∧ t.upd = s.upd
@[simp] abbrev Only.sent_prog_host_pas_log (s t : State) : Prop :=
  t.pending = s.pending ∧ t.free = s.free ∧ t.sys = s.sys ∧ t.res = s.res ∧ t.cast = s.cast ∧ t.tsk = s.tsk ∧ t.scan = s.scan ∧ t.red = s.red ∧ t.ports = s.ports ∧ t.dio = s.dio ∧ t.iod = s.iod ∧ t.bkd = s.bkd ∧ t.depot = s.depot ∧ t.upd = s.upd
@[simp] abbrev Only.sent_res_host_pas_log (s t : State) : Prop :=
  t.pending = s.pending ∧ t.free = s.free ∧ t.sys = s.sys ∧ t.cast = s.cast ∧ t.tsk = s.tsk ∧ t.scan = s.scan ∧ t.prog = s.prog ∧ t.red = s.red ∧ t.ports = s.ports ∧ t.dio = s.dio ∧ t.iod = s.iod ∧ t.bkd = s.bkd ∧ t.depot = s.depot ∧ t.upd = s.upd
@[simp] abbrev Only.sent_sys_host_depot_log (s t : State) : Prop :=
  t.pending = s.pending ∧ t.free = s.free ∧ t.res = s.res ∧ t.cast = s.cast ∧ t.tsk = s.tsk ∧ t.scan = s.scan ∧ t.prog = s.prog ∧ t.red = s.red ∧ t.pas = s.pas ∧ t.ports = s.ports ∧ t.dio = s.dio ∧ t.iod = s.iod ∧ t.bkd = s.bkd ∧ t.upd = s.upd
@[simp] abbrev Only.sent_tsk_host_pas_log (s t : State) : Prop :=
  t.pending = s.pending ∧ t.free = s.free ∧ t.sys = s.sys ∧ t.res = s.res ∧ t.cast = s.cast ∧ t.scan = s.scan ∧ t.prog = s.prog ∧ t.red = s.red ∧ t.ports = s.ports ∧ t.dio = s.dio ∧ t.iod = s.iod ∧ t.bkd = s.bkd ∧ t.depot = s.depot ∧ t.upd = s.upd
@[simp] abbrev Only.free_sent_host_pas_log_upd (s t : State) : Prop :=
  t.pending = s.pending ∧ t.sys = s.sys ∧ t.res = s.res ∧ t.cast = s.cast ∧ t.tsk = s.tsk ∧ t.scan = s.scan ∧ t.prog = s.prog ∧ t.red = s.red ∧ t.ports = s.ports ∧ t.dio = s.dio ∧ t.iod = s.iod ∧ t.bkd = s.bkd ∧ t.depot = s.depot
@[simp] abbrev Only.res_cast_tsk_prog_ports_upd (s t : State) : Prop :=
  t.pending = s.pending ∧ t.free = s.free ∧ t.sent = s.sent ∧ t.sys = s.sys ∧ t.scan = s.scan ∧ t.host = s.host ∧ t.red = s.red ∧ t.pas = s.pas ∧ t.dio = s.dio ∧ t.iod = s.iod ∧ t.bkd = s.bkd ∧ t.depot = s.depot ∧ t.log = s.log
@[simp] abbrev Only.res_cast_tsk_red_ports_upd (s t : State) : Prop :=
  t.pending = s.pending ∧ t.free = s.free ∧ t.sent = s.sent ∧ t.sys = s.sys ∧ t.scan = s.scan ∧ t.prog = s.prog ∧ t.host = s.host ∧ t.pas = s.pas ∧ t.dio = s.dio ∧ t.iod = s.iod ∧ t.bkd = s.bkd ∧ t.depot = s.depot ∧ t.log = s.log
@[simp] abbrev Only.sent_host_pas_depot_log_upd (s t : State) : Prop :=
  t.pending = s.pending ∧ t.free = s.free ∧ t.sys = s.sys ∧ t.res = s.res ∧ t.cast = s.cast ∧ t.tsk = s.tsk ∧ t.scan = s.scan ∧ t.prog = s.prog ∧ t.red = s.red ∧ t.ports = s.ports ∧ t.dio = s.dio ∧ t.iod = s.iod ∧ t.bkd = s.bkd
@[simp] abbrev Only.sent_host_red_pas_log_upd (s t : State) : Prop :=
  t.pending = s.pending ∧ t.free = s.free ∧ t.sys = s.sys ∧ t.res = s.res ∧ t.cast = s.cast ∧ t.tsk = s.tsk ∧ t.scan = s.scan ∧ t.prog = s.prog ∧ t.ports = s.ports ∧ t.dio = s.dio ∧ t.iod = s.iod ∧ t.bkd = s.bkd ∧ t.depot = s.depot
@[simp] abbrev Only.sent_tsk_host_pas_dio_log (s t : State) : Prop :=
  t.pending = s.pending ∧ t.free = s.free ∧ t.sys = s.sys ∧ t.res = s.res ∧ t.cast = s.cast ∧ t.scan = s.scan ∧ t.prog = s.prog ∧ t.red = s.red ∧ t.ports = s.ports ∧ t.iod = s.iod ∧ t.bkd = s.bkd ∧ t.depot = s.depot ∧ t.upd = s.upd
@[simp] abbrev Only.sent_tsk_host_pas_ports_log (s t : State) : Prop :=
  t.pending = s.pending ∧ t.free = s.free ∧ t.sys = s.sys ∧ t.res = s.res ∧ t.cast = s.cast ∧ t.scan = s.scan ∧ t.prog = s.prog ∧ t.red = s.red ∧ t.dio = s.dio ∧ t.iod = s.iod ∧ t.bkd = s.bkd ∧ t.depot = s.depot ∧ t.upd = s.upd
@[simp] abbrev Only.sys_res_cast_ports_depot_upd (s t : State) : Prop :=
  t.pending = s.pending ∧ t.free = s.free ∧ t.sent = s.sent ∧ t.tsk = s.tsk ∧ t.scan = s.scan ∧ t.prog = s.prog ∧ t.host = s.host ∧ t.red = s.red ∧ t.pas = s.pas ∧ t.dio = s.dio ∧ t.iod = s.iod ∧ t.bkd = s.bkd ∧ t.log = s.log
@[simp] abbrev Only.sent_sys_host_pas_depot_log_upd (s t : State) : Prop :=
  t.pending = s.pending ∧ t.free = s.free ∧ t.res = s.res ∧ t.cast = s.cast ∧ t.tsk = s.tsk ∧ t.scan = s.scan ∧ t.prog = s.prog ∧ t.red = s.red ∧ t.ports = s.ports ∧ t.dio = s.dio ∧ t.iod = s.iod ∧ t.bkd = s.bkd
@[simp] abbrev Only.sent_tsk_host_pas_dio_iod_log (s t : State) : Prop :=
  t.pending = s.pending ∧ t.free = s.free ∧ t.sys = s.sys ∧ t.res = s.res ∧ t.cast = s.cast ∧ t.scan = s.scan ∧ t.prog = s.prog ∧ t.red = s.red ∧ t.ports = s.ports ∧ t.bkd = s.bkd ∧ t.depot = s.depot ∧ t.upd = s.upd
@[simp] abbrev Only.sent_tsk_host_pas_ports_bkd_log (s t : State) : Prop :=
  t.pending = s.pending ∧ t.free = s.free ∧ t.sys = s.sys ∧ t.res = s.res ∧ t.cast = s.cast ∧ t.scan = s.scan ∧ t.prog = s.prog ∧ t.red = s.red ∧ t.dio = s.dio ∧ t.iod = s.iod ∧ t.depot = s.depot ∧ t.upd = s.upd
@[simp] abbrev Only.sent_tsk_prog_host_red_pas_log (s t : State) : Prop :=
  t.pending = s.pending ∧ t.free = s.free ∧ t.sys = s.sys ∧ t.res = s.res ∧ t.cast = s.cast ∧ t.scan = s.scan ∧ t.ports = s.ports ∧ t.dio = s.dio ∧ t.iod = s.iod ∧ t.bkd = s.bkd ∧ t.depot = s.depot ∧ t.upd = s.upd
@[simp] abbrev Only.sent_tsk_scan_host_pas_depot_log (s t : State) : Prop :=
  t.pending = s.pending ∧ t.free = s.free ∧ t.sys = s.sys ∧ t.res = s.res ∧ t.cast = s.cast ∧ t.prog = s.prog ∧ t.red = s.red ∧ t.ports = s.ports ∧ t.dio = s.dio ∧ t.iod = s.iod ∧ t.bkd = s.bkd ∧ t.upd = s.upd
@[simp] abbrev Only.sent_tsk_scan_prog_host_pas_log (s t : State) : Prop :=
  t.pending = s.pending ∧ t.free = s.free ∧ t.sys = s.sys ∧ t.res = s.res ∧ t.cast = s.cast ∧ t.red = s.red ∧ t.ports = s.ports ∧ t.dio = s.dio ∧ t.iod = s.iod ∧ t.bkd = s.bkd ∧ t.depot = s.depot ∧ t.upd = s.upd
@[simp] abbrev Only.free_sent_cast_host_red_pas_bkd_log (s t : State) : Prop :=
  t.pending = s.pending ∧ t.sys = s.sys ∧ t.res = s.res ∧ t.tsk = s.tsk ∧ t.scan = s.scan ∧ t.prog = s.prog ∧ t.ports = s.ports ∧ t.dio = s.dio ∧ t.iod = s.iod ∧ t.depot = s.depot ∧ t.upd = s.upd
@[simp] abbrev Only.sent_res_cast_host_pas_ports_log_upd (s t : State) : Prop :=
  t.pending = s.pending ∧ t.free = s.free ∧ t.sys = s.sys ∧ t.tsk = s.tsk ∧ t.scan = s.scan ∧ t.prog = s.prog ∧ t.red = s.red ∧ t.dio = s.dio ∧ t.iod = s.iod ∧ t.bkd = s.bkd ∧ t.depot = s.depot
@[simp] abbrev Only.sent_tsk_scan_host_red_pas_depot_log (s t : State) : Prop :=
  t.pending = s.pending ∧ t.free = s.free ∧ t.sys = s.sys ∧ t.res = s.res ∧ t.cast = s.cast ∧ t.prog = s.prog ∧ t.ports = s.ports ∧ t.dio = s.dio ∧ t.iod = s.iod ∧ t.bkd = s.bkd ∧ t.upd = s.upd
@[simp] abbrev Only.sent_tsk_scan_prog_host_red_pas_log (s t : State) : Prop :=
  t.pending = s.pending ∧ t.free = s.free ∧ t.sys = s.sys ∧ t.res = s.res ∧ t.cast = s.cast ∧ t.ports = s.ports ∧ t.dio = s.dio ∧ t.iod = s.iod ∧ t.bkd = s.bkd ∧ t.depot = s.depot ∧ t.upd = s.upd
@[simp] abbrev Only.sys_cast_host_red_pas_ports_dio_upd (s t : State) : Prop :=
  t.pending = s.pending ∧ t.free = s.free ∧ t.sent = s.sent ∧ t.res = s.res ∧ t.tsk = s.tsk ∧ t.scan = s.scan ∧ t.prog = s.prog ∧ t.iod = s.iod ∧ t.bkd = s.bkd ∧ t.depot = s.depot ∧ t.log = s.log
@[simp] abbrev Only.free_sent_cast_host_red_pas_bkd_log_upd (s t : State) : Prop :=
  t.pending = s.pending ∧ t.sys = s.sys ∧ t.res = s.res ∧ t.tsk = s.tsk ∧ t.scan = s.scan ∧ t.prog = s.prog ∧ t.ports = s.ports ∧ t.dio = s.dio ∧ t.iod = s.iod ∧ t.depot = s.depot
@[simp] abbrev Only.free_sent_cast_prog_host_pas_ports_depot_log (s t : State) : Prop :=
  t.pending = s.pending ∧ t.sys = s.sys ∧ t.res = s.res ∧ t.tsk = s.tsk ∧ t.scan = s.scan ∧ t.red = s.red ∧ t.dio = s.dio ∧ t.iod = s.iod ∧ t.bkd = s.bkd ∧ t.upd = s.upd
@[simp] abbrev Only.free_sent_tsk_scan_host_red_pas_depot_log (s t : State) : Prop :=
  t.pending = s.pending ∧ t.sys = s.sys ∧ t.res = s.res ∧ t.cast = s.cast ∧ t.prog = s.prog ∧ t.ports = s.ports ∧ t.dio = s.dio ∧ t.iod = s.iod ∧ t.bkd = s.bkd ∧ t.upd = s.upd
@[simp] abbrev Only.sent_res_cast_host_pas_ports_depot_log_upd (s t : State) : Prop :=
  t.pending = s.pending ∧ t.free = s.free ∧ t.sys = s.sys ∧ t.tsk = s.tsk ∧ t.scan = s.scan ∧ t.prog = s.prog ∧ t.red = s.red ∧ t.dio = s.dio ∧ t.iod = s.iod ∧ t.bkd = s.bkd
@[simp] abbrev Only.sent_res_cast_prog_host_pas_ports_log_upd (s t : State) : Prop :=
  t.pending = s.pending ∧ t.free = s.free ∧ t.sys = s.sys ∧ t.tsk = s.tsk ∧ t.scan = s.scan ∧ t.red = s.red ∧ t.dio = s.dio ∧ t.iod = s.iod ∧ t.bkd = s.bkd ∧ t.depot = s.depot
@[simp] abbrev Only.sent_res_cast_tsk_host_pas_ports_log_upd (s t : State) : Prop :=
  t.pending = s.pending ∧ t.free = s.free ∧ t.sys = s.sys ∧ t.scan = s.scan ∧ t.prog = s.prog ∧ t.red = s.red ∧ t.dio = s.dio ∧ t.iod = s.iod ∧ t.bkd = s.bkd ∧ t.depot = s.depot
@[simp] abbrev Only.sent_tsk_host_red_pas_ports_dio_depot_log (s t : State) : Prop :=
  t.pending = s.pending ∧ t.free = s.free ∧ t.sys = s.sys ∧ t.res = s.res ∧ t.cast = s.cast ∧ t.scan = s.scan ∧ t.prog = s.prog ∧ t.iod = s.iod ∧ t.bkd = s.bkd ∧ t.upd = s.upd
@[simp] abbrev Only.sent_tsk_scan_prog_host_red_pas_depot_log (s t : State) : Prop :=
  t.pending = s.pending ∧ t.free = s.free ∧ t.sys = s.sys ∧ t.res = s.res ∧ t.cast = s.cast ∧ t.ports = s.ports ∧ t.dio = s.dio ∧ t.iod = s.iod ∧ t.bkd = s.bkd ∧ t.upd = s.upd
@[simp] abbrev Only.sent_res_cast_tsk_host_red_pas_ports_log_upd (s t : State) : Prop :=
  t.pending = s.pending ∧ t.free = s.free ∧ t.sys = s.sys ∧ t.scan = s.scan ∧ t.prog = s.prog ∧ t.dio = s.dio ∧ t.iod = s.iod ∧ t.bkd = s.bkd ∧ t.depot = s.depot
@[simp] abbrev Only.sent_sys_res_cast_host_pas_ports_depot_log_upd (s t : State) : Prop :=
  t.pending = s.pending ∧ t.free = s.free ∧ t.tsk = s.tsk ∧ t.scan = s.scan ∧ t.prog = s.prog ∧ t.red = s.red ∧ t.dio = s.dio ∧ t.iod = s.iod ∧ t.bkd = s.bkd
@[simp] abbrev Only.sent_tsk_scan_prog_host_red_pas_dio_depot_log (s t : State) : Prop :=
  t.pending = s.pending ∧ t.free = s.free ∧ t.sys = s.sys ∧ t.res = s.res ∧ t.cast = s.cast ∧ t.ports = s.ports ∧ t.iod = s.iod ∧ t.bkd = s.bkd ∧ t.upd = s.upd
@[simp] abbrev Only.free_sent_cast_tsk_scan_prog_host_pas_ports_depot_log (s t : State) : Prop :=
  t.pending = s.pending ∧ t.sys = s.sys ∧ t.res = s.res ∧ t.red = s.red ∧ t.dio = s.dio ∧ t.iod = s.iod ∧ t.bkd = s.bkd ∧ t.upd = s.upd
@[simp] abbrev Only.free_sent_res_cast_tsk_host_red_pas_ports_log_upd (s t : State) : Prop :=
  t.pending = s.pending ∧ t.sys = s.sys ∧ t.scan = s.scan ∧ t.prog = s.prog ∧ t.dio = s.dio ∧ t.iod = s.iod ∧ t.bkd = s.bkd ∧ t.depot = s.depot
@[simp] abbrev Only.sent_res_cast_tsk_prog_host_red_pas_ports_log_upd (s t : State) : Prop :=
  t.pending = s.pending ∧ t.free = s.free ∧ t.sys = s.sys ∧ t.scan = s.scan ∧ t.dio = s.dio ∧ t.iod = s.iod ∧ t.bkd = s.bkd ∧ t.depot = s.depot
@[simp] abbrev Only.sent_sys_res_cast_tsk_host_pas_ports_bkd_log_upd (s t : State) : Prop :=
  t.pending = s.pending ∧ t.free = s.free ∧ t.scan = s.scan ∧ t.prog = s.prog ∧ t.red = s.red ∧ t.dio = s.dio ∧ t.iod = s.iod ∧ t.depot = s.depot
@[simp] abbrev Only.sent_res_cast_tsk_prog_host_red_pas_ports_depot_log_upd (s t : State) : Prop :=
  t.pending = s.pending ∧ t.free = s.free ∧ t.sys = s.sys ∧ t.scan = s.scan ∧ t.dio = s.dio ∧ t.iod = s.iod ∧ t.bkd = s.bkd
@[simp] abbrev Only.sent_sys_res_cast_tsk_host_red_pas_ports_bkd_log_upd (s t : State) : Prop :=
  t.pending = s.pending ∧ t.free = s.free ∧ t.scan = s.scan ∧ t.prog = s.prog ∧ t.dio = s.dio ∧ t.iod = s.iod ∧ t.depot = s.depot
@[simp] abbrev Only.sent_res_cast_tsk_scan_prog_host_red_pas_ports_depot_log_upd (s t : State) : Prop :=
  t.pending = s.pending ∧ t.free = s.free ∧ t.sys = s.sys ∧ t.dio = s.dio ∧ t.iod = s.iod ∧ t.bkd = s.bkd
@[simp] abbrev Only.sent_res_cast_tsk_scan_prog_host_red_pas_ports_dio_depot_log_upd (s t : State) : Prop :=
  t.pending = s.pending ∧ t.free = s.free ∧ t.sys = s.sys ∧ t.iod = s.iod ∧ t.bkd = s.bkd
@[simp] abbrev Only.sys_res_cast_tsk_scan_prog_red_pas_ports_dio_bkd_depot_log_upd (s t : State) : Prop :=
  t.pending = s.pending ∧ t.free = s.free ∧ t.sent = s.sent ∧ t.host = s.host ∧ t.iod = s.iod
@[simp] abbrev Only.free_sent_sys_res_cast_tsk_scan_host_red_pas_ports_dio_bkd_log_upd (s t : State) : Prop :=
  t.pending = s.pending ∧ t.prog = s.prog ∧ t.iod = s.iod ∧ t.depot = s.depot
@[simp] abbrev Only.free_sys_res_cast_tsk_scan_prog_red_pas_ports_dio_bkd_depot_log_upd (s t : State) : Prop :=
  t.pending = s.pending ∧ t.sent = s.sent ∧ t.host = s.host ∧ t.iod = s.iod
@[simp] abbrev Only.sent_sys_res_cast_tsk_scan_prog_host_red_pas_ports_bkd_depot_log_upd (s t : State) : Prop :=
  t.pending = s.pending ∧ t.free = s.free ∧ t.dio = s.dio ∧ t.iod = s.iod
@[simp] abbrev Only.free_sent_res_cast_tsk_scan_prog_host_red_pas_ports_dio_bkd_depot_log_upd (s t : State) : Prop :=
  t.pending = s.pending ∧ t.sys = s.sys ∧ t.iod = s.iod
@[simp] abbrev Only.free_sent_sys_res_cast_tsk_scan_prog_host_red_pas_ports_dio_bkd_depot_log_upd (s t : State) : Prop :=
  t.pending = s.pending ∧ t.iod = s.iod
@[simp] abbrev Only.tsk_scan_prog_red_dio_depot (s t : State) : Prop :=
  t.pending = s.pending ∧ t.free = s.free ∧ t.sent = s.sent ∧ t.sys = s.sys ∧ t.res = s.res ∧ t.cast = s.cast ∧ t.host = s.host ∧ t.pas = s.pas ∧ t.ports = s.ports ∧ t.iod = s.iod ∧ t.bkd = s.bkd ∧ t.log = s.log ∧ t.upd = s.upd
@[simp] abbrev Only.red_ports (s t : State) : Prop :=
  t.pending = s.pending ∧ t.free = s.free ∧ t.sent = s.sent ∧ t.sys = s.sys ∧ t.res = s.res ∧ t.cast = s.cast ∧ t.tsk = s.tsk ∧ t.scan = s.scan ∧ t.prog = s.prog ∧ t.host = s.host ∧ t.pas = s.pas ∧ t.dio = s.dio ∧ t.iod = s.iod ∧ t.bkd = s.bkd ∧ t.depot = s.depot ∧ t.log = s.log ∧ t.upd = s.upd
@[simp] abbrev Only.tsk_pas_ports_upd (s t : State) : Prop :=
  t.pending = s.pending ∧ t.free = s.free ∧ t.sent = s.sent ∧ t.sys = s.sys ∧ t.res = s.res ∧ t.cast = s.cast ∧ t.scan = s.scan ∧ t.prog = s.prog ∧ t.host = s.host ∧ t.red = s.red ∧ t.dio = s.dio ∧ t.iod = s.iod ∧ t.bkd = s.bkd ∧ t.depot = s.depot ∧ t.log = s.log
@[simp] abbrev Only.tsk_red_pas_ports_upd (s t : State) : Prop :=
  t.pending = s.pending ∧ t.free = s.free ∧ t.sent = s.sent ∧ t.sys = s.sys ∧ t.res = s.res ∧ t.cast = s.cast ∧ t.scan = s.scan ∧ t.prog = s.prog ∧ t.host = s.host ∧ t.dio = s.dio ∧ t.iod = s.iod ∧ t.bkd = s.bkd ∧ t.depot = s.depot ∧ t.log = s.log
@[simp] abbrev Only.sent_res_ports (s t : State) : Prop :=
  t.pending = s.pending ∧ t.free = s.free ∧ t.sys = s.sys ∧ t.cast = s.cast ∧ t.tsk = s.tsk ∧ t.scan = s.scan ∧ t.prog = s.prog ∧ t.host = s.host ∧ t.red = s.red ∧ t.pas = s.pas ∧ t.dio = s.dio ∧ t.iod = s.iod ∧ t.bkd = s.bkd ∧ t.depot = s.depot ∧ t.log = s.log ∧ t.upd = s.upd
@[simp] abbrev Only.sent_sys_tsk_host_pas_ports_log (s t : State) : Prop :=
  t.pending = s.pending ∧ t.free = s.free ∧ t.res = s.res ∧ t.cast = s.cast ∧ t.scan = s.scan ∧ t.prog = s.prog ∧ t.red = s.red ∧ t.dio = s.dio ∧ t.iod = s.iod ∧ t.bkd = s.bkd ∧ t.depot = s.depot ∧ t.upd = s.upd
@[simp] abbrev Only.sent_tsk_scan_prog_host_red_pas_ports_dio_depot_log (s t : State) : Prop :=
  t.pending = s.pending ∧ t.free = s.free ∧ t.sys = s.sys ∧ t.res = s.res ∧ t.cast = s.cast ∧ t.iod = s.iod ∧ t.bkd = s.bkd ∧ t.upd = s.upd
@[simp] abbrev Only.free_sent_depot_log (s t : State) : Prop :=
  t.pending = s.pending ∧ t.sys = s.sys ∧ t.res = s.res ∧ t.cast = s.cast ∧ t.tsk = s.tsk ∧ t.scan = s.scan ∧ t.prog = s.prog ∧ t.host = s.host ∧ t.red = s.red ∧ t.pas = s.pas ∧ t.ports = s.ports ∧ t.dio = s.dio ∧ t.iod = s.iod ∧ t.bkd = s.bkd ∧ t.upd = s.upd
@[simp] abbrev Only.free_sent_tsk_scan (s t : State) : Prop :=
  t.pending = s.pending ∧ t.sys = s.sys ∧ t.res = s.res ∧ t.cast = s.cast ∧ t.prog = s.prog ∧ t.host = s.host ∧ t.red = s.red ∧ t.pas = s.pas ∧ t.ports = s.ports ∧ t.dio = s.dio ∧ t.iod = s.iod ∧ t.bkd = s.bkd ∧ t.depot = s.depot ∧ t.log = s.log ∧ t.upd = s.upd
@[simp] abbrev Only.free_sent_tsk_scan_host_pas_depot_log (s t : State) : Prop :=
  t.pending = s.pending ∧ t.sys = s.sys ∧ t.res = s.res ∧ t.cast = s.cast ∧ t.prog = s.prog ∧ t.red = s.red ∧ t.ports = s.ports ∧ t.dio = s.dio ∧ t.iod = s.iod ∧ t.bkd = s.bkd ∧ t.upd = s.upd
@[simp] abbrev Only.free_sent_tsk_scan_prog_host_pas_depot_log (s t : State) : Prop :=
  t.pending = s.pending ∧ t.sys = s.sys ∧ t.res = s.res ∧ t.cast = s.cast ∧ t.red = s.red ∧ t.ports = s.ports ∧ t.dio = s.dio ∧ t.iod = s.iod ∧ t.bkd = s.bkd ∧ t.upd = s.upd
@[simp] abbrev Only.free_sent_tsk_scan_prog_host_red_pas_log (s t : State) : Prop :=
  t.pending = s.pending ∧ t.sys = s.sys ∧ t.res = s.res ∧ t.cast = s.cast ∧ t.ports = s.ports ∧ t.dio = s.dio ∧ t.iod = s.iod ∧ t.bkd = s.bkd ∧ t.depot = s.depot ∧ t.upd = s.upd
@[simp] abbrev Only.free_sent_tsk_scan_red (s t : State) : Prop :=
  t.pending = s.pending ∧ t.sys = s.sys ∧ t.res = s.res ∧ t.cast = s.cast ∧ t.prog = s.prog ∧ t.host = s.host ∧ t.pas = s.pas ∧ t.ports = s.ports ∧ t.dio = s.dio ∧ t.iod = s.iod ∧ t.bkd = s.bkd ∧ t.depot = s.depot ∧ t.log = s.log ∧ t.upd = s.upd
@[simp] abbrev Only.free_tsk_scan (s t : State) : Prop :=
  t.pending = s.pending ∧ t.sent = s.sent ∧ t.sys = s.sys ∧ t.res = s.res ∧ t.cast = s.cast ∧ t.prog = s.prog ∧ t.host = s.host ∧ t.red = s.red ∧ t.pas = s.pas ∧ t.ports = s.ports ∧ t.dio = s.dio ∧ t.iod = s.iod ∧ t.bkd = s.bkd ∧ t.depot = s.depot ∧ t.log = s.log ∧ t.upd = s.upd
@[simp] abbrev Only.free_sent_depot (s t : State) : Prop :=
  t.pending = s.pending ∧ t.sys = s.sys ∧ t.res = s.res ∧ t.cast = s.cast ∧ t.tsk = s.tsk ∧ t.scan = s.scan ∧ t.prog = s.prog ∧ t.host = s.host ∧ t.red = s.red ∧ t.pas = s.pas ∧ t.ports = s.ports ∧ t.dio = s.dio ∧ t.iod = s.iod ∧ t.bkd = s.bkd ∧ t.log = s.log ∧ t.upd = s.upd
@[simp] abbrev Only.free_sent_depot_upd (s t : State) : Prop :=
  t.pending = s.pending ∧ t.sys = s.sys ∧ t.res = s.res ∧ t.cast = s.cast ∧ t.tsk = s.tsk ∧ t.scan = s.scan ∧ t.prog = s.prog ∧ t.host = s.host ∧ t.red = s.red ∧ t.pas = s.pas ∧ t.ports = s.ports ∧ t.dio = s.dio ∧ t.iod = s.iod ∧ t.bkd = s.bkd ∧ t.log = s.log
@[simp] abbrev Only.free_sent_host_pas_depot_log_upd (s t : State) : Prop :=
  t.pending = s.pending ∧ t.sys = s.sys ∧ t.res = s.res ∧ t.cast = s.cast ∧ t.tsk = s.tsk ∧ t.scan = s.scan ∧ t.prog = s.prog ∧ t.red = s.red ∧ t.ports = s.ports ∧ t.dio = s.dio ∧ t.iod = s.iod ∧ t.bkd = s.bkd
@[simp] abbrev Only.free_sent_sys_res_cast_tsk_scan_prog_host_red_pas_ports_dio_iod_bkd_depot_log_upd (s t : State) : Prop :=
  t.pending = s.pending
@[simp] abbrev Only.free_sent_tsk_host_pas_ports_log (s t : State) : Prop :=
  t.pending = s.pending ∧ t.sys = s.sys ∧ t.res = s.res ∧ t.cast = s.cast ∧ t.scan = s.scan ∧ t.prog = s.prog ∧ t.red = s.red ∧ t.dio = s.dio ∧ t.iod = s.iod ∧ t.bkd = s.bkd ∧ t.depot = s.depot ∧ t.upd = s.upd
@[simp] abbrev Only.sent_res_cast_prog_red_ports_upd (s t : State) : Prop :=
  t.pending = s.pending ∧ t.free = s.free ∧ t.sys = s.sys ∧ t.tsk = s.tsk ∧ t.scan = s.scan ∧ t.host = s.host ∧ t.pas = s.pas ∧ t.dio = s.dio ∧ t.iod = s.iod ∧ t.bkd = s.bkd ∧ t.depot = s.depot ∧ t.log = s.log
@[simp] abbrev Only.sent_tsk_red (s t : State) : Prop :=
  t.pending = s.pending ∧ t.free = s.free ∧ t.sys = s.sys ∧ t.res = s.res ∧ t.cast = s.cast ∧ t.scan = s.scan ∧ t.prog = s.prog ∧ t.host = s.host ∧ t.pas = s.pas ∧ t.ports = s.ports ∧ t.dio = s.dio ∧ t.iod = s.iod ∧ t.bkd = s.bkd ∧ t.depot = s.depot ∧ t.log = s.log ∧ t.upd = s.upd
@[simp] abbrev Only.host_bkd (s t : State) : Prop :=
  t.pending = s.pending ∧ t.free = s.free ∧ t.sent = s.sent ∧ t.sys = s.sys ∧ t.res = s.res ∧ t.cast = s.cast ∧ t.tsk = s.tsk ∧ t.scan = s.scan ∧ t.prog = s.prog ∧ t.red = s.red ∧ t.pas = s.pas ∧ t.ports = s.ports ∧ t.dio = s.dio ∧ t.iod = s.iod ∧ t.depot = s.depot ∧ t.log = s.log ∧ t.upd = s.upd
@[simp] abbrev Only.sys_host_bkd (s t : State) : Prop :=
  t.pending = s.pending ∧ t.free = s.free ∧ t.sent = s.sent ∧ t.res = s.res ∧ t.cast = s.cast ∧ t.tsk = s.tsk ∧ t.scan = s.scan ∧ t.prog = s.prog ∧ t.red = s.red ∧ t.pas = s.pas ∧ t.ports = s.ports ∧ t.dio = s.dio ∧ t.iod = s.iod ∧ t.depot = s.depot ∧ t.log = s.log ∧ t.upd = s.upd
@[simp] abbrev Only.free_sent_sys_tsk_host_red_pas_ports_log_upd (s t : State) : Prop :=
  t.pending = s.pending ∧ t.res = s.res ∧ t.cast = s.cast ∧ t.scan = s.scan ∧ t.prog = s.prog ∧ t.dio = s.dio ∧ t.iod = s.iod ∧ t.bkd = s.bkd ∧ t.depot = s.depot
@[simp] abbrev Only.sent_sys_tsk_host_red_pas_ports_log (s t : State) : Prop :=
  t.pending = s.pending ∧ t.free = s.free ∧ t.res = s.res ∧ t.cast = s.cast ∧ t.scan = s.scan ∧ t.prog = s.prog ∧ t.dio = s.dio ∧ t.iod = s.iod ∧ t.bkd = s.bkd ∧ t.depot = s.depot ∧ t.upd = s.upd
@[simp] abbrev Only.free_depot (s t : State) : Prop :=
  t.pending = s.pending ∧ t.sent = s.sent ∧ t.sys = s.sys ∧ t.res = s.res ∧ t.cast = s.cast ∧ t.tsk = s.tsk ∧ t.scan = s.scan ∧ t.prog = s.prog ∧ t.host = s.host ∧ t.red = s.red ∧ t.pas = s.pas ∧ t.ports = s.ports ∧ t.dio = s.dio ∧ t.iod = s.iod ∧ t.bkd = s.bkd ∧ t.log = s.log ∧ t.upd = s.upd
@[simp] abbrev Only.free_sent_host_pas_depot_log (s t : State) : Prop :=
  t.pending = s.pending ∧ t.sys = s.sys ∧ t.res = s.res ∧ t.cast = s.cast ∧ t.tsk = s.tsk ∧ t.scan = s.scan ∧ t.prog = s.prog ∧ t.red = s.red ∧ t.ports = s.ports ∧ t.dio = s.dio ∧ t.iod = s.iod ∧ t.bkd = s.bkd ∧ t.upd = s.upd

/-! ## The operations -/

@[simp] theorem emit_frame (a0 s) : Only.sent s (emit a0 s) := by
  unfold Only.sent emit; simp

@[simp] theorem putFrame_frame (a0 s) : Only.sent s (putFrame a0 s) := by
  unfold Only.sent putFrame; simp

@[simp] theorem sendRing_frame (a0 a1 a2 a3 a4 a5 a6 s) : Only.sent_pas s (sendRing a0 a1 a2 a3 a4 a5 a6 s) := by
  unfold Only.sent_pas sendRing; simp

@[simp] theorem sendSync_frame (a0 a1 a2 a3 s) : Only.sent s (sendSync a0 a1 a2 a3 s) := by
  unfold Only.sent sendSync; simp

@[simp] theorem sendParts_frame (a0 a1 a2 a3 a4 s) : Only.sent s (sendParts a0 a1 a2 a3 a4 s) := by
  unfold Only.sent sendParts; simp

@[simp] theorem sendControl_frame (a0 a1 s) : Only.sent s (sendControl a0 a1 s) := by
  unfold Only.sent sendControl; simp

@[simp] theorem sendControlCommand_frame (a0 a1 a2 s) : Only.sent s (sendControlCommand a0 a1 a2 s) := by
  unfold Only.sent sendControlCommand; dsimp only; (repeat' split) <;> simp

@[simp] theorem sendState_frame (a0 s) : Only.sent s (sendState a0 s) := by
  unfold Only.sent sendState; simp

@[simp] theorem updSession_frame (a0 a1 s) : Only.host s (updSession a0 a1 s) := by
  unfold Only.host updSession; simp

@[simp] theorem transmit_frame (a0 a1 a2 s) : Only.sent_host s (transmit a0 a1 a2 s) := by
  unfold Only.sent_host transmit; (repeat' split) <;> simp

@[simp] theorem sendReply_frame (a0 a1 a2 a3 a4 s) : Only.sent_host s (sendReply a0 a1 a2 a3 a4 s) := by
  unfold Only.sent_host sendReply; simp

@[simp] theorem notice_frame (a0 a1 s) : Only.sent_host s (notice a0 a1 s) := by
  unfold Only.sent_host notice; (repeat' split) <;> simp

@[simp] theorem countLoss_frame (a0 s) : Only.log s (countLoss a0 s) := by
  unfold Only.log countLoss; simp

@[simp] theorem bufferIn_frame (a0 s) : Only.log s (bufferIn a0 s) := by
  unfold Only.log bufferIn; simp

@[simp] theorem logIn_frame (a0 s) : Only.sent_host_log s (logIn a0 s) := by
  unfold Only.sent_host_log logIn; simp

@[simp] theorem closeOrigin_frame (a0 s) : Only.sent_host_pas_log s (closeOrigin a0 s) := by
  unfold Only.sent_host_pas_log closeOrigin; simp

@[simp] theorem coalesce_frame (a0 a1 s) : Only.sent_host_pas_log s (coalesce a0 a1 s) := by
  unfold Only.sent_host_pas_log coalesce; (repeat' split) <;> simp

@[simp] theorem report_frame (a0 a1 a2 a3 s) : Only.sent_host_pas_log s (report a0 a1 a2 a3 s) := by
  unfold Only.sent_host_pas_log report; simp

@[simp] theorem intake_frame (a0 s) : Only.sent_host_pas_log s (intake a0 s) := by
  unfold Only.sent_host_pas_log intake; simp

@[simp] theorem accession_frame (a0 a1 a2 a3 s) : Only.sent_host_pas_log s (accession a0 a1 a2 a3 s) := by
  unfold Only.sent_host_pas_log accession; simp

@[simp] theorem drawWord_frame (s) : Only.free s (drawWord s).2 := by
  unfold Only.free drawWord; simp

@[simp] theorem drawBool_frame (s) : Only.free s (drawBool s).2 := by
  unfold Only.free drawBool; simp

@[simp] theorem updTask_frame (a0 a1 s) : Only.tsk s (updTask a0 a1 s) := by
  unfold Only.tsk updTask; simp

@[simp] theorem updCore_frame (a0 a1 s) : Only.scan s (updCore a0 a1 s) := by
  unfold Only.scan updCore; simp

@[simp] theorem holdClock_frame (a0 s) : Only.sys s (holdClock a0 s) := by
  unfold Only.sys holdClock; (try dsimp only); (repeat' split) <;> simp

@[simp] theorem loseClock_frame (a0 s) : Only.sys s (loseClock a0 s) := by
  unfold Only.sys loseClock; simp

@[simp] theorem raiseCast_frame (a0 s) : Only.free_cast s (raiseCast a0 s) := by
  unfold Only.free_cast raiseCast; simp

@[simp] theorem castArmOp_frame (s) : Only.cast s (castArmOp s) := by
  unfold Only.cast castArmOp; simp

@[simp] theorem sendCastFrame_frame (a0 s) : Only.free_sent_pas s (sendCastFrame a0 s) := by
  unfold Only.free_sent_pas sendCastFrame; simp

@[simp] theorem raiseCastSpread_frame (a0 s) : Only.free_sent_cast_pas s (raiseCastSpread a0 s) := by
  unfold Only.free_sent_cast_pas raiseCastSpread; simp

@[simp] theorem bkdClock_frame (s) : Only.bkd s (bkdClock s) := by
  unfold Only.bkd bkdClock; simp

@[simp] theorem rtcCommitOp_frame (s) : Only.bkd s (rtcCommitOp s) := by
  unfold Only.bkd rtcCommitOp; simp

@[simp] theorem wakeDie_frame (a0 s) : Only.sys_bkd s (wakeDie a0 s) := by
  unfold Only.sys_bkd wakeDie; simp

@[simp] theorem wakeFire_frame (s) : Only.sys_bkd s (wakeFire s) := by
  unfold Only.sys_bkd wakeFire; simp

@[simp] theorem sleepOp_frame (s) : Only.sys_bkd s (sleepOp s) := by
  unfold Only.sys_bkd sleepOp; simp

@[simp] theorem openWindow_frame (s) : Only.bkd s (openWindow s) := by
  unfold Only.bkd openWindow; simp

@[simp] theorem evidence_frame (a0 a1 a2 s) : Only.free_bkd s (evidence a0 a1 a2 s) := by
  unfold Only.free_bkd evidence; simp

@[simp] theorem writeImage_frame (s) : Only.log s (writeImage s) := by
  unfold Only.log writeImage; simp

@[simp] theorem supAtExpiry_frame (a0 a1 a2 s) : Only.sent_host_pas_bkd_log s (supAtExpiry a0 a1 a2 s) := by
  unfold Only.sent_host_pas_bkd_log supAtExpiry; simp

@[simp] theorem expire_frame (a0 a1 a2 a3 s) : Only.free_sent_cast_host_red_pas_bkd_log s (expire a0 a1 a2 a3 s) := by
  unfold Only.free_sent_cast_host_red_pas_bkd_log expire; simp

@[simp] theorem countMisses_frame (a0 s) : Only.sent_host_pas_bkd_log s (countMisses a0 s) := by
  unfold Only.sent_host_pas_bkd_log countMisses; simp

@[simp] theorem serviceOp_frame (s) : Only.free_sent_cast_host_red_pas_bkd_log s (serviceOp s) := by
  unfold Only.free_sent_cast_host_red_pas_bkd_log serviceOp; simp

@[simp] theorem timeoutOp_frame (s) : Only.free_sent_cast_host_red_pas_bkd_log s (timeoutOp s) := by
  unfold Only.free_sent_cast_host_red_pas_bkd_log timeoutOp; simp

@[simp] theorem windowOpenOp_frame (s) : Only.sys_bkd s (windowOpenOp s) := by
  unfold Only.sys_bkd windowOpenOp; simp

@[simp] theorem wdtEnableOp_frame (s) : Only.bkd s (wdtEnableOp s) := by
  unfold Only.bkd wdtEnableOp; simp

@[simp] theorem keyWriteOp_frame (a0 s) : Only.bkd s (keyWriteOp a0 s) := by
  unfold Only.bkd keyWriteOp; simp

@[simp] theorem setPeriod_frame (a0 s) : Only.bkd s (setPeriod a0 s) := by
  unfold Only.bkd setPeriod; simp

@[simp] theorem setWopen_frame (a0 s) : Only.bkd s (setWopen a0 s) := by
  unfold Only.bkd setWopen; simp

@[simp] theorem checkIns_frame (a0 s) : Only.bkd s (checkIns a0 s) := by
  unfold Only.bkd checkIns; simp

@[simp] theorem updBank_frame (a0 a1 s) : Only.prog s (updBank a0 a1 s) := by
  unfold Only.prog updBank; simp

@[simp] theorem setSegBit_frame (a0 a1 a2 a3 s) : Only.prog s (setSegBit a0 a1 a2 a3 s) := by
  unfold Only.prog setSegBit; simp

@[simp] theorem rerunTag_frame (a0 a1 s) : Only.prog s (rerunTag a0 a1 s) := by
  unfold Only.prog rerunTag; (repeat' split) <;> simp

@[simp] theorem viewWrite_frame (a0 a1 a2 s) : Only.tsk_scan_prog s (viewWrite a0 a1 a2 s) := by
  unfold Only.tsk_scan_prog viewWrite; simp

@[simp] theorem dropPasses_frame (s) : Only.scan s (dropPasses s) := by
  unfold Only.scan dropPasses; simp

@[simp] theorem countSquash_frame (a0 s) : Only.scan s (countSquash a0 s) := by
  unfold Only.scan countSquash; simp

@[simp] theorem squashCore_frame (a0 s) : Only.scan s (squashCore a0 s) := by
  unfold Only.scan squashCore; (repeat' split) <;> simp

@[simp] theorem squashReaders_frame (a0 a1 a2 s) : Only.scan s (squashReaders a0 a1 a2 s) := by
  unfold Only.scan squashReaders; refine ⟨?_, ?_, ?_, ?_, ?_, ?_, ?_, ?_, ?_, ?_, ?_, ?_, ?_, ?_, ?_, ?_, ?_, ?_⟩ <;> (refine (foldl_keeps _ _ (fun s a => ?_) _ _).trans ?_ <;> (try dsimp only) <;> (repeat' split) <;> simp)

@[simp] theorem commitJournal_frame (a0 a1 a2 a3 s) : Only.tsk_scan_prog s (commitJournal a0 a1 a2 a3 s) := by
  unfold commitJournal
  and_intros <;>
  · simp only [squashReaders_frame, updTask_frame]
    try exact foldl_keeps _ _ (fun s d => by simp) _ _

@[simp] theorem freeCore_frame (a0 s) : Only.scan s (freeCore a0 s) := by
  unfold Only.scan freeCore; simp

@[simp] theorem dropRuns_frame (a0 a1 s) : Only.scan s (dropRuns a0 a1 s) := by
  unfold Only.scan dropRuns; refine ⟨?_, ?_, ?_, ?_, ?_, ?_, ?_, ?_, ?_, ?_, ?_, ?_, ?_, ?_, ?_, ?_, ?_, ?_⟩ <;> (refine (foldl_keeps _ _ (fun s a => ?_) _ _).trans ?_ <;> (try dsimp only) <;> (repeat' split) <;> simp)

@[simp] theorem abandon_frame (a0 s) : Only.tsk_scan_depot s (abandon a0 s) := by
  unfold Only.tsk_scan_depot abandon; simp

@[simp] theorem dropPending_frame (s) : Only.tsk s (dropPending s) := by
  unfold Only.tsk dropPending; simp

@[simp] theorem faultTask_frame (a0 s) : Only.sent_tsk_scan_host_pas_depot_log s (faultTask a0 s) := by
  unfold Only.sent_tsk_scan_host_pas_depot_log faultTask; simp

@[simp] theorem countOverrun_frame (a0 s) : Only.sent_tsk_host_pas_log s (countOverrun a0 s).1 := by
  unfold Only.sent_tsk_host_pas_log countOverrun; simp

@[simp] theorem viewFull_frame (a0 s) : Only.sent_tsk_scan_host_pas_depot_log s (viewFull a0 s) := by
  unfold Only.sent_tsk_scan_host_pas_depot_log viewFull; simp

@[simp] theorem finishTask_frame (a0 s) : Only.sent_tsk_scan s (finishTask a0 s) := by
  unfold Only.sent_tsk_scan finishTask; simp

@[simp] theorem setSeg_frame (a0 a1 a2 s) : Only.tsk s (setSeg a0 a1 a2 s) := by
  unfold Only.tsk setSeg; simp

@[simp] theorem startOn_frame (a0 a1 a2 a3 s) : Only.tsk_scan s (startOn a0 a1 a2 a3 s) := by
  unfold Only.tsk_scan startOn; simp

theorem freeCoreOf_frame (s : State) (p : Nat × State) (h : freeCoreOf s = some p) : Only.free s p.2 := by
  unfold freeCoreOf at h
  split at h <;> cases h <;> simp

theorem coreFor_frame (n : Nat) (o : Bool) (s : State) (p : Nat × State) (h : coreFor n o s = some p) : Only.free_tsk_scan s p.2 := by
  unfold coreFor at h
  split at h
  · rename_i q hq
    obtain rfl : q = p := Option.some.inj h
    have := freeCoreOf_frame s q hq
    simp_all
  · split at h
    · obtain ⟨e, -, rfl⟩ := Option.map_eq_some_iff.mp h; simp
    · cases h

theorem advanceOne_frame (n : Nat) (s t : State) (h : advanceOne n s = some t) : Only.free_sent_tsk_scan s t := by
  unfold advanceOne at h
  split at h
  · cases h
  · split at h
    · cases h; simp
    · split at h <;> cases h <;> simp
    · split at h
      · cases h
      · split at h
        · obtain ⟨p, hp, rfl⟩ := Option.map_eq_some_iff.mp h
          have := coreFor_frame _ _ _ _ hp
          simp_all
        · split at h
          · split at h
            · cases h
            · split at h
              · cases h
              · rename_i c u hp
                have := coreFor_frame _ _ _ _ hp
                cases h
                split <;> simp_all
          · cases h; simp

@[simp] theorem advanceLoop_frame (a0 a1 s) : Only.free_sent_tsk_scan s (advanceLoop a0 a1 s) := by
  induction a1 generalizing s with
  | zero => simp [advanceLoop]
  | succ n ih =>
    unfold advanceLoop
    split
    · simp
    · rename_i t h
      have := advanceOne_frame _ _ _ h
      simp_all

@[simp] theorem advance_frame (a0 s) : Only.free_sent_tsk_scan s (advance a0 s) := by
  unfold Only.free_sent_tsk_scan advance; simp

@[simp] theorem preempt_frame (a0 s) : Only.tsk_scan s (preempt a0 s) := by
  unfold Only.tsk_scan preempt; (repeat' split) <;> simp

@[simp] theorem serve_frame (a0 s) : Only.free_sent_tsk_scan s (serve a0 s) := by
  unfold Only.free_sent_tsk_scan serve; dsimp only; (repeat' split) <;> simp

@[simp] theorem giveOnce_frame (s) : Only.free_sent_tsk_scan s (giveOnce s) := by
  unfold Only.free_sent_tsk_scan giveOnce; (repeat' split) <;> simp

@[simp] theorem giveLoop_frame (a0 s) : Only.free_sent_tsk_scan s (giveLoop a0 s) := by
  induction a0 generalizing s with
  | zero => simp [giveLoop]
  | succ n ih => unfold giveLoop; dsimp only; split <;> simp [ih]

@[simp] theorem giveCluster_frame (s) : Only.free_sent_tsk_scan s (giveCluster s) := by
  unfold Only.free_sent_tsk_scan giveCluster; simp

@[simp] theorem claimOne_frame (a0 a1 a2 s) : Only.res s (claimOne a0 a1 a2 s) := by
  unfold Only.res claimOne; simp

@[simp] theorem releaseOne_frame (a0 a1 a2 s) : Only.res s (releaseOne a0 a1 a2 s) := by
  unfold Only.res releaseOne; simp

@[simp] theorem refuseClaim_frame (a0 a1 a2 s) : Only.sent_res_host_pas_log s (refuseClaim a0 a1 a2 s) := by
  unfold Only.sent_res_host_pas_log refuseClaim; simp

@[simp] theorem setEnabled_frame (a0 a1 a2 s) : Only.res_cast_ports s (setEnabled a0 a1 a2 s) := by
  unfold Only.res_cast_ports setEnabled; simp

@[simp] theorem touchSettings_frame (s) : Only.upd s (touchSettings s) := by
  unfold Only.upd touchSettings; simp

@[simp] theorem claimFeature_frame (a0 a1 s) : Only.sent_res_cast_host_pas_ports_log_upd s (claimFeature a0 a1 s).1 := by
  unfold Only.sent_res_cast_host_pas_ports_log_upd claimFeature; dsimp only; (repeat' split) <;> simp

@[simp] theorem releaseFeature_frame (a0 a1 s) : Only.res_cast_ports_upd s (releaseFeature a0 a1 s) := by
  unfold Only.res_cast_ports_upd releaseFeature; simp

@[simp] theorem enableDefaults_frame (a0 s) : Only.sent_res_cast_host_pas_ports_log_upd s (enableDefaults a0 s) := by
  unfold enableDefaults
  and_intros <;>
  · refine foldl_keeps _ _ (fun s f => ?_) _ _
    split
    · split <;> rename_i h <;> have hf := claimFeature_frame f.1 f.2 s <;> simp [h] at hf <;> simp [hf]
    · rfl

@[simp] theorem raiseTrigger_frame (a0 a1 a2 s) : Only.tsk s (raiseTrigger a0 a1 a2 s) := by
  unfold Only.tsk raiseTrigger; simp

@[simp] theorem putRaw_frame (a0 a1 s) : Only.tsk s (putRaw a0 a1 s) := by
  unfold Only.tsk putRaw; simp

@[simp] theorem putBit_frame (a0 a1 s) : Only.tsk s (putBit a0 a1 s) := by
  unfold Only.tsk putBit; simp

@[simp] theorem putBits_frame (a0 a1 s) : Only.tsk s (putBits a0 a1 s) := by
  unfold Only.tsk putBits; simp

@[simp] theorem putWords_frame (a0 a1 s) : Only.tsk s (putWords a0 a1 s) := by
  unfold Only.tsk putWords; simp

@[simp] theorem updSer_frame (a0 a1 s) : Only.ports s (updSer a0 a1 s) := by
  unfold Only.ports updSer; simp

@[simp] theorem writeMailbox_frame (a0 a1 a2 a3 s) : Only.tsk s (writeMailbox a0 a1 a2 a3 s) := by
  unfold Only.tsk writeMailbox; (repeat' split) <;> simp

@[simp] theorem sendMessage_frame (a0 a1 a2 a3 s) : Only.ports s (sendMessage a0 a1 a2 a3 s) := by
  unfold Only.ports sendMessage; simp

@[simp] theorem flushClosing_frame (s) : Only.tsk_ports s (flushClosing s) := by
  unfold Only.tsk_ports flushClosing; simp

@[simp] theorem updPort_frame (a0 a1 s) : Only.ports s (updPort a0 a1 s) := by
  unfold Only.ports updPort; simp

@[simp] theorem updNode_frame (a0 a1 s) : Only.ports s (updNode a0 a1 s) := by
  unfold Only.ports updNode; simp

@[simp] theorem showHealth_frame (a0 s) : Only.tsk s (showHealth a0 s) := by
  unfold Only.tsk showHealth; simp

@[simp] theorem setNode_frame (a0 a1 s) : Only.tsk_ports s (setNode a0 a1 s) := by
  unfold Only.tsk_ports setNode; simp

@[simp] theorem countTx_frame (a0 a1 s) : Only.ports s (countTx a0 a1 s) := by
  unfold Only.ports countTx; simp

@[simp] theorem sendPlainline_frame (a0 a1 a2 a3 s) : Only.sent_ports s (sendPlainline a0 a1 a2 a3 s) := by
  unfold Only.sent_ports sendPlainline; simp

@[simp] theorem sendCfg_frame (a0 s) : Only.sent_ports s (sendCfg a0 s) := by
  unfold Only.sent_ports sendCfg; (repeat' split) <;> simp

@[simp] theorem countMiss_frame (a0 a1 s) : Only.sent_tsk_host_pas_ports_log s (countMiss a0 a1 s) := by
  unfold Only.sent_tsk_host_pas_ports_log countMiss; simp

@[simp] theorem sendPoint_frame (a0 s) : Only.sent_tsk_host_pas_ports_log s (sendPoint a0 s) := by
  unfold Only.sent_tsk_host_pas_ports_log sendPoint; (repeat' split) <;> simp

@[simp] theorem commitSends_frame (a0 s) : Only.sent_tsk_host_pas_ports_log s (commitSends a0 s) := by
  unfold Only.sent_tsk_host_pas_ports_log commitSends; simp

@[simp] theorem badPlFrame_frame (a0 a1 s) : Only.ports s (badPlFrame a0 a1 s) := by
  unfold Only.ports badPlFrame; simp

@[simp] theorem discardIn_frame (a0 s) : Only.ports s (discardIn a0 s) := by
  unfold Only.ports discardIn; simp

@[simp] theorem acceptIn_frame (a0 a1 a2 s) : Only.sent_tsk_host_pas_ports_log s (acceptIn a0 a1 a2 s) := by
  unfold Only.sent_tsk_host_pas_ports_log acceptIn; simp

@[simp] theorem inFrame_frame (a0 s) : Only.sent_tsk_host_pas_ports_log s (inFrame a0 s) := by
  unfold Only.sent_tsk_host_pas_ports_log inFrame; dsimp only; (repeat' split) <;> simp

@[simp] theorem respExpiry_frame (a0 s) : Only.sent_tsk_host_pas_ports_log s (respExpiry a0 s) := by
  unfold Only.sent_tsk_host_pas_ports_log respExpiry; dsimp only; (repeat' split) <;> simp

@[simp] theorem cfgResponse_frame (a0 a1 a2 s) : Only.tsk_ports s (cfgResponse a0 a1 a2 s) := by
  unfold Only.tsk_ports cfgResponse; dsimp only; (repeat' split) <;> simp

@[simp] theorem diagPoll_frame (s) : Only.sent_ports s (diagPoll s) := by
  unfold Only.sent_ports diagPoll; (repeat' split) <;> simp

@[simp] theorem startPlainline_frame (s) : Only.sent_tsk_ports s (startPlainline s) := by
  unfold Only.sent_tsk_ports startPlainline; simp

@[simp] theorem stopPlainline_frame (s) : Only.tsk_ports s (stopPlainline s) := by
  unfold Only.tsk_ports stopPlainline; simp

@[simp] theorem fieldFrame_frame (a0 a1 s) : Only.ports s (fieldFrame a0 a1 s) := by
  unfold Only.ports fieldFrame; (repeat' split) <;> simp

@[simp] theorem timebaseAcc_frame (s) : Only.sent_host_pas_ports_log s (timebaseAcc s) := by
  unfold Only.sent_host_pas_ports_log timebaseAcc; simp

@[simp] theorem retime_frame (s) : Only.sent_tsk_host_pas_ports_log s (retime s) := by
  unfold Only.sent_tsk_host_pas_ports_log retime; simp

@[simp] theorem noteOffset_frame (a0 s) : Only.sent_tsk_host_pas_ports_log s (noteOffset a0 s) := by
  unfold Only.sent_tsk_host_pas_ports_log noteOffset; simp

@[simp] theorem gateEntry_frame (a0 s) : Only.ports s (gateEntry a0 s) := by
  unfold Only.ports gateEntry; simp

@[simp] theorem writeFldEvt_frame (a0 a1 s) : Only.ports s (writeFldEvt a0 a1 s) := by
  unfold Only.ports writeFldEvt; simp

@[simp] theorem writePlCtrl_frame (a0 s) : Only.tsk_ports s (writePlCtrl a0 s) := by
  unfold Only.tsk_ports writePlCtrl; simp

@[simp] theorem serError_frame (a0 s) : Only.free_ports s (serError a0 s) := by
  unfold Only.free_ports serError; simp

@[simp] theorem badCheck_frame (a0 a1 s) : Only.free_ports s (badCheck a0 a1 s) := by
  unfold Only.free_ports badCheck; simp

@[simp] theorem sendModbus_frame (a0 a1 s) : Only.sent_ports s (sendModbus a0 a1 s) := by
  unfold Only.sent_ports sendModbus; simp

@[simp] theorem sendMbus_frame (a0 a1 s) : Only.sent_ports s (sendMbus a0 a1 s) := by
  unfold Only.sent_ports sendMbus; simp

@[simp] theorem putStatus_frame (a0 a1 s) : Only.tsk s (putStatus a0 a1 s) := by
  unfold Only.tsk putStatus; (repeat' split) <;> simp

@[simp] theorem sendCan_frame (a0 a1 a2 s) : Only.sent s (sendCan a0 a1 a2 s) := by
  unfold Only.sent sendCan; simp

@[simp] theorem startTx_frame (a0 a1 s) : Only.sent_ports s (startTx a0 a1 s) := by
  unfold Only.sent_ports startTx; (repeat' split) <;> simp

@[simp] theorem startPoll_frame (a0 a1 s) : Only.sent_ports s (startPoll a0 a1 s) := by
  unfold Only.sent_ports startPoll; (repeat' split) <;> simp

@[simp] theorem startCan_frame (a0 s) : Only.sent_ports s (startCan a0 s) := by
  unfold Only.sent_ports startCan; (repeat' split) <;> simp

@[simp] theorem startDueLoop_frame (a0 a1 s) : Only.sent_ports s (startDueLoop a0 a1 s) := by
  induction a1 generalizing s with
  | zero => simp [startDueLoop]
  | succ n ih =>
    unfold startDueLoop
    (repeat' split) <;> simp [ih]

@[simp] theorem startDue_frame (a0 s) : Only.sent_ports s (startDue a0 s) := by
  unfold Only.sent_ports startDue; simp

@[simp] theorem jobEnd_frame (a0 s) : Only.sent_ports s (jobEnd a0 s) := by
  unfold Only.sent_ports jobEnd; simp

@[simp] theorem messageEnd_frame (a0 a1 a2 a3 s) : Only.sent_tsk_ports s (messageEnd a0 a1 a2 a3 s) := by
  unfold Only.sent_tsk_ports messageEnd; simp

@[simp] theorem startMessage_frame (a0 s) : Only.sent_tsk_ports s (startMessage a0 s) := by
  unfold Only.sent_tsk_ports startMessage; (repeat' split) <;> simp

@[simp] theorem countFail_frame (a0 a1 s) : Only.sent_host_pas_ports_log s (countFail a0 a1 s) := by
  unfold Only.sent_host_pas_ports_log countFail; simp

@[simp] theorem makeDue_frame (a0 a1 a2 s) : Only.ports s (makeDue a0 a1 a2 s) := by
  unfold Only.ports makeDue; simp

@[simp] theorem slaveAnswer_frame (a0 a1 a2 s) : Only.tsk s (slaveAnswer a0 a1 a2 s).2 := by
  unfold Only.tsk slaveAnswer; dsimp only; (repeat' split) <;> simp

@[simp] theorem meterTargets_frame (a0 a1 a2 s) : Only.tsk s (meterTargets a0 a1 a2 s) := by
  unfold meterTargets
  and_intros <;>
  · simp only [putStatus_frame]
    exact foldl_keeps _ _ (fun s d => by split <;> simp) _ _

@[simp] theorem meterDone_frame (a0 a1 a2 s) : Only.sent_tsk_ports s (meterDone a0 a1 a2 s) := by
  unfold Only.sent_tsk_ports meterDone; simp

@[simp] theorem canDue_frame (a0 a1 s) : Only.sent_ports s (canDue a0 a1 s) := by
  unfold Only.sent_ports canDue; (repeat' split) <;> simp

@[simp] theorem busRecover_frame (a0 s) : Only.ports s (busRecover a0 s) := by
  unfold Only.ports busRecover; simp

theorem foldl_sent_pas_ports {α : Type} (f : State → α → State) (hf : ∀ s a, Only.sent_pas_ports s (f s a)) (l : List α) (s : State) :
    Only.sent_pas_ports s (l.foldl f s) := by
  induction l generalizing s with
  | nil => simp
  | cons a l ih =>
    have h1 := hf s a
    have h2 := ih (f s a)
    simp only [Only.sent_pas_ports] at h1 h2 ⊢
    simp only [List.foldl_cons, h1, h2, and_self]

@[simp] theorem commitTx_frame (a0 a1 s a2) : Only.ports s (commitTx a0 a1 s a2) := by
  unfold Only.ports commitTx; split <;> simp

@[simp] theorem commitObj_frame (a0 a1 s a2) : Only.sent_ports s (commitObj a0 a1 s a2) := by
  unfold Only.sent_ports commitObj; split <;> simp

theorem foldl_sent_ports {α : Type} (f : State → α → State) (hf : ∀ s a, Only.sent_ports s (f s a)) (l : List α) (s : State) :
    Only.sent_ports s (l.foldl f s) := by
  induction l generalizing s with
  | nil => simp
  | cons a l ih =>
    have h1 := hf s a
    have h2 := ih (f s a)
    simp only [Only.sent_ports] at h1 h2 ⊢
    simp only [List.foldl_cons, h1, h2, and_self]

@[simp] theorem commitTxs_frame (a0 a1 l s) : Only.sent_ports s (List.foldl (commitTx a0 a1) s l) :=
  foldl_sent_ports _ (fun s a => by unfold Only.sent_ports; simp) l s

@[simp] theorem commitObjs_frame (a0 a1 l s) : Only.sent_ports s (List.foldl (commitObj a0 a1) s l) :=
  foldl_sent_ports _ (fun s a => by simp) l s

@[simp] theorem commitPort_frame (a0 s a1) : Only.sent_ports s (commitPort a0 s a1) := by
  unfold Only.sent_ports commitPort; dsimp only; (repeat' split) <;> simp

@[simp] theorem commitDue_frame (a0 s) : Only.sent_ports s (commitDue a0 s) :=
  foldl_sent_ports _ (fun s a => by simp) _ s

@[simp] theorem loseSource_frame (s) : Only.tsk_ports s (loseSource s) := by
  unfold Only.tsk_ports loseSource; (repeat' split) <;> simp

@[simp] theorem lockEvent_frame (a0 s) : Only.sent_tsk_host_pas_ports_log s (lockEvent a0 s) := by
  unfold Only.sent_tsk_host_pas_ports_log lockEvent; (repeat' split) <;> simp

@[simp] theorem gpioLatch_frame (s) : Only.tsk s (gpioLatch s) := by
  unfold Only.tsk gpioLatch; simp

@[simp] theorem gpioTick_frame (a0 s) : Only.ports s (gpioTick a0 s) := by
  unfold Only.ports gpioTick; simp

@[simp] theorem ppsTick_frame (a0 a1 s) : Only.ports s (ppsTick a0 a1 s) := by
  unfold Only.ports ppsTick; simp

@[simp] theorem updCrc_frame (a0 a1 s) : Only.ports s (updCrc a0 a1 s) := by
  unfold Only.ports updCrc; simp

@[simp] theorem loadPreset_frame (a0 a1 s) : Only.ports s (loadPreset a0 a1 s) := by
  unfold Only.ports loadPreset; (repeat' split) <;> simp

@[simp] theorem startUserCrc_frame (a0 s) : Only.ports s (startUserCrc a0 s) := by
  unfold Only.ports startUserCrc; simp

@[simp] theorem crcSend_frame (a0 a1 s) : Only.sent s (crcSend a0 a1 s) := by
  unfold Only.sent crcSend; (try dsimp only); (repeat' split) <;> simp

@[simp] theorem crcEnd_frame (a0 a1 s) : Only.sent_res_ports s (crcEnd a0 a1 s) := by
  unfold Only.sent_res_ports crcEnd; simp

@[simp] theorem crcChunk_frame (a0 s) : Only.sent_res_ports s (crcChunk a0 s) := by
  unfold Only.sent_res_ports crcChunk; simp

@[simp] theorem noteBad_frame (a0 s) : Only.sent_host_pas_depot_log s (noteBad a0 s) := by
  unfold Only.sent_host_pas_depot_log noteBad; (try dsimp only); (repeat' split) <;> simp

@[simp] theorem wornPage_frame (a0 s) : Only.free_depot s (wornPage a0 s) := by
  unfold Only.free_depot wornPage; (try dsimp only); (repeat' split) <;> simp

@[simp] theorem noteRead_frame (a0 s) : Only.free_sent_host_pas_depot_log s (noteRead a0 s) := by
  unfold Only.free_sent_host_pas_depot_log noteRead; simp

@[simp] theorem depotEnter_frame (a0 a1 a2 s) : Only.depot s (depotEnter a0 a1 a2 s) := by
  unfold Only.depot depotEnter; simp

@[simp] theorem twinWrite_frame (a0 a1 s) : Only.depot s (twinWrite a0 a1 s) := by
  unfold Only.depot twinWrite; simp

@[simp] theorem queueOrWait_frame (a0 a1 a2 s) : Only.depot s (queueOrWait a0 a1 a2 s) := by
  unfold Only.depot queueOrWait; (try dsimp only); (repeat' split) <;> simp

@[simp] theorem firmwareWrite_frame (a0 a1 s) : Only.depot s (firmwareWrite a0 a1 s) := by
  unfold Only.depot firmwareWrite; simp

@[simp] theorem storeContents_frame (a0 s) : Only.sent_depot s (storeContents a0 s) := by
  unfold Only.sent_depot storeContents; (try dsimp only); (repeat' split) <;> simp

@[simp] theorem putBytes_frame (a0 a1 s) : Only.sent_depot s (putBytes a0 a1 s) := by
  unfold Only.sent_depot putBytes; (try dsimp only); (repeat' split) <;> simp

@[simp] theorem storePage_frame (a0 s) : Only.free_sent_depot s (storePage a0 s) := by
  unfold Only.free_sent_depot storePage; (repeat' split) <;> simp

@[simp] theorem scanTwin_frame (s a1) : Only.sent_host_pas_depot_log s (scanTwin s a1) := by
  unfold Only.sent_host_pas_depot_log scanTwin; simp

@[simp] theorem scanSoft_frame (s a0) : Only.depot s (scanSoft s a0) := by
  unfold Only.depot scanSoft; (try dsimp only); (repeat' split) <;> simp

@[simp] theorem startRefresh_frame (s) : Only.depot s (startRefresh s) := by
  unfold Only.depot startRefresh; (try dsimp only); (repeat' split) <;> simp

@[simp] theorem recallScan_frame (a0 s) : Only.free_sent_host_pas_depot_log s (recallScan a0 s) := by
  unfold Only.free_sent_host_pas_depot_log recallScan; simp

@[simp] theorem depotPfail_frame (s) : Only.depot_upd s (depotPfail s) := by
  unfold Only.depot_upd depotPfail; simp

@[simp] theorem depotReset_frame (s) : Only.free_sent_depot s (depotReset s) := by
  unfold Only.free_sent_depot depotReset; (repeat' split) <;> simp

@[simp] theorem putRun_frame (a0 a1 s) : Only.scan s (putRun a0 a1 s) := by
  unfold Only.scan putRun; simp

@[simp] theorem applyOut_frame (a0 s a2) : Only.free_sent_cast_prog_host_pas_ports_depot_log s (applyOut a0 s a2) := by
  unfold Only.free_sent_cast_prog_host_pas_ports_depot_log applyOut; (repeat' split) <;> simp

@[simp] theorem waitDepot_frame (a0 s) : Only.depot s (waitDepot a0 s) := by
  unfold Only.depot waitDepot; simp

@[simp] theorem landIns_frame (a0 a1 a2 a3 a4 s) : Only.free_sent_cast_tsk_scan_prog_host_pas_ports_depot_log s (landIns a0 a1 a2 a3 a4 s) := by
  unfold Only.free_sent_cast_tsk_scan_prog_host_pas_ports_depot_log landIns; simp

@[simp] theorem swmOne_frame (a0 a1 a2 a3 a4 s) : Only.free_sent_cast_tsk_scan_prog_host_pas_ports_depot_log s (swmOne a0 a1 a2 a3 a4 s) := by
  unfold Only.free_sent_cast_tsk_scan_prog_host_pas_ports_depot_log swmOne; simp

@[simp] theorem passToSup_frame (a0 s) : Only.scan s (passToSup a0 s) := by
  unfold Only.scan passToSup; simp

@[simp] theorem emulationPass_frame (s) : Only.free_sent_cast_tsk_scan_prog_host_pas_ports_depot_log s (emulationPass s) := by
  unfold Only.free_sent_cast_tsk_scan_prog_host_pas_ports_depot_log emulationPass; dsimp only; (repeat' split) <;> simp

@[simp] theorem countCommit_frame (a0 a1 s) : Only.tsk_scan_prog s (countCommit a0 a1 s) := by
  unfold Only.tsk_scan_prog countCommit; simp

@[simp] theorem recordMiss_frame (a0 s) : Only.sent_tsk_scan_prog_host_pas_log s (recordMiss a0 s) := by
  unfold Only.sent_tsk_scan_prog_host_pas_log recordMiss; (repeat' split) <;> simp

@[simp] theorem popSegment_frame (a0 s) : Only.free_sent_tsk_scan s (popSegment a0 s) := by
  unfold Only.free_sent_tsk_scan popSegment; simp

@[simp] theorem segmentCommitOp_frame (a0 s) : Only.free_sent_tsk_scan_prog_host_pas_depot_log s (segmentCommitOp a0 s) := by
  unfold Only.free_sent_tsk_scan_prog_host_pas_depot_log segmentCommitOp; (repeat' split) <;> simp

@[simp] theorem directEntryOp_frame (a0 s) : Only.free_sent_tsk_scan_prog_host_pas_depot_log s (directEntryOp a0 s) := by
  unfold Only.free_sent_tsk_scan_prog_host_pas_depot_log directEntryOp; (repeat' split) <;> simp

@[simp] theorem suspendOp_frame (a0 s) : Only.free_sent_tsk_scan_prog_host_pas_depot_log s (suspendOp a0 s) := by
  unfold Only.free_sent_tsk_scan_prog_host_pas_depot_log suspendOp; (repeat' split) <;> simp

@[simp] theorem trapAbandonOp_frame (a0 s) : Only.free_sent_tsk_scan_host_pas_depot_log s (trapAbandonOp a0 s) := by
  unfold Only.free_sent_tsk_scan_host_pas_depot_log trapAbandonOp; (repeat' split) <;> simp

end Sys2Proof.Laws
end

