-- ==== Sys2Proof/Laws/FramesTop.lean ====
section
/-! SUPPORT. The frames of the operations of the ring, the pair, start-up, registers and requests. -/

namespace Sys2Proof.Laws

open Sys2Proof.Machine

@[simp] theorem goAlone_frame (s) : Only.sent_tsk_host_pas_ports_log s (goAlone s) := by
  unfold Only.sent_tsk_host_pas_ports_log goAlone; simp

@[simp] theorem setMinor_frame (s) : Only.pas s (setMinor s) := by
  unfold Only.pas setMinor; simp

@[simp] theorem linkBreak_frame (a0 s) : Only.sent_sys_tsk_host_pas_ports_log s (linkBreak a0 s) := by
  unfold Only.sent_sys_tsk_host_pas_ports_log linkBreak; simp

@[simp] theorem linkUp_frame (a0 a1 s) : Only.pas s (linkUp a0 a1 s) := by
  unfold Only.pas linkUp; simp

@[simp] theorem closeBypass_frame (s) : Only.sent_sys_tsk_host_pas_ports_log s (closeBypass s) := by
  unfold Only.sent_sys_tsk_host_pas_ports_log closeBypass; simp

@[simp] theorem updMember_frame (a0 a1 s) : Only.pas s (updMember a0 a1 s) := by
  unfold Only.pas updMember; simp

@[simp] theorem enterMember_frame (a0 a1 a2 a3 s) : Only.pas s (enterMember a0 a1 a2 a3 s) := by
  unfold enterMember; exact updMember_frame _ _ _

@[simp] theorem discoverRoundOp_frame (s) : Only.sent_pas s (discoverRoundOp s) := by
  unfold Only.sent_pas discoverRoundOp; simp

@[simp] theorem runSimplex_frame (s) : Only.red s (runSimplex s) := by
  unfold Only.red runSimplex; simp

@[simp] theorem duplicate_frame (a0 s) : Only.sent_sys_tsk_host_red_pas_ports_log s (duplicate a0 s) := by
  unfold Only.sent_sys_tsk_host_red_pas_ports_log duplicate; simp

@[simp] theorem discoverOp_frame (a0 a1 s) : Only.sent_sys_tsk_host_red_pas_ports_log s (discoverOp a0 a1 s) := by
  unfold Only.sent_sys_tsk_host_red_pas_ports_log discoverOp; simp

@[simp] theorem ageMembers_frame (s) : Only.pas s (ageMembers s) := by
  unfold ageMembers
  and_intros <;> exact foldl_keeps _ _ (fun s a => by simp only [updMember_frame]) _ _

@[simp] theorem ringState_frame (a0 s) : Only.free_pas s (ringState a0 s).2 := by
  unfold Only.free_pas ringState; dsimp only; (repeat' split) <;> simp

@[simp] theorem sendSusp_frame (a0 a1 a2 s) : Only.sent_pas s (sendSusp a0 a1 a2 s) := by
  unfold Only.sent_pas sendSusp; simp

@[simp] theorem sendTopology_frame (a0 a1 s) : Only.free_sent_pas s (sendTopology a0 a1 s) := by
  unfold Only.free_sent_pas sendTopology; simp

@[simp] theorem reportLost_frame (s) : Only.sent_host_pas_log s (reportLost s) := by
  unfold Only.sent_host_pas_log reportLost; simp

@[simp] theorem roundClose_frame (s) : Only.free_sent_host_pas_log s (roundClose s) := by
  unfold Only.free_sent_host_pas_log roundClose; dsimp only; simp; (repeat' split) <;> simp

@[simp] theorem suspendPubs_frame (a0 s) : Only.pas s (suspendPubs a0 s) := by
  unfold Only.pas suspendPubs; simp

@[simp] theorem applyTopology_frame (a0 s) : Only.free_sent_tsk_host_pas_ports_log s (applyTopology a0 s) := by
  unfold Only.free_sent_tsk_host_pas_ports_log applyTopology; simp

@[simp] theorem sendRegion_frame (a0 a1 a2 s) : Only.sent_pas s (sendRegion a0 a1 a2 s) := by
  unfold Only.sent_pas sendRegion; simp

@[simp] theorem takeWrites_frame (s) : Only.pas s (takeWrites s) := by
  unfold Only.pas takeWrites; simp

@[simp] theorem exchangeOp_frame (s) : Only.sent_pas s (exchangeOp s) := by
  unfold Only.sent_pas exchangeOp; simp

@[simp] theorem refuseSub_frame (a0 s) : Only.sent_host_pas_log s (refuseSub a0 s) := by
  unfold Only.sent_host_pas_log refuseSub; simp

@[simp] theorem regionOp_frame (a0 a1 a2 a3 a4 a5 s) : Only.sent_host_pas_log s (regionOp a0 a1 a2 a3 a4 a5 s) := by
  unfold Only.sent_host_pas_log regionOp; simp

@[simp] theorem latchSub_frame (a0 a1 s) : Only.sent_tsk_host_pas_log s (latchSub a0 a1 s) := by
  unfold Only.sent_tsk_host_pas_log latchSub; dsimp only; (repeat' split) <;> simp

@[simp] theorem ringLatch_frame (s) : Only.sent_tsk_host_pas_log s (ringLatch s) := by
  unfold Only.sent_tsk_host_pas_log ringLatch; simp

@[simp] theorem writePub_frame (a0 a1 s) : Only.pas_upd s (writePub a0 a1 s) := by
  unfold Only.pas_upd writePub; simp

@[simp] theorem noteSettings_frame (a0 s) : Only.red s (noteSettings a0 s) := by
  unfold Only.red noteSettings; simp

@[simp] theorem setPub_frame (a0 a1 a2 s) : Only.red_pas_upd s (setPub a0 a1 a2 s) := by
  unfold Only.red_pas_upd setPub; simp

@[simp] theorem writeSub_frame (a0 a1 s) : Only.sent_host_pas_log_upd s (writeSub a0 a1 s) := by
  unfold Only.sent_host_pas_log_upd writeSub; (repeat' split) <;> simp

@[simp] theorem setSub_frame (a0 a1 a2 s) : Only.sent_host_red_pas_log_upd s (setSub a0 a1 a2 s) := by
  unfold Only.sent_host_red_pas_log_upd setSub; simp

@[simp] theorem writePasEvt_frame (a0 a1 s) : Only.pas_upd s (writePasEvt a0 a1 s) := by
  unfold Only.pas_upd writePasEvt; simp

@[simp] theorem setPasEvt_frame (a0 a1 s) : Only.red_pas_upd s (setPasEvt a0 a1 s) := by
  unfold Only.red_pas_upd setPasEvt; simp

@[simp] theorem writeExch_frame (a0 s) : Only.free_sent_pas s (writeExch a0 s) := by
  unfold Only.free_sent_pas writeExch; simp

@[simp] theorem sendEvents_frame (a0 s) : Only.sent_tsk_pas s (sendEvents a0 s) := by
  unfold Only.sent_tsk_pas sendEvents; simp

@[simp] theorem chgAll_frame (a0 a1 s) : Only.tsk s (chgAll a0 a1 s) := by
  unfold Only.tsk chgAll; simp

@[simp] theorem grainChanged_frame (a0 a1 s) : Only.tsk_prog s (grainChanged a0 a1 s) := by
  unfold Only.tsk_prog grainChanged; dsimp only; (repeat' split) <;> simp

@[simp] theorem markBlock_frame (a0 s) : Only.red s (markBlock a0 s) := by
  unfold Only.red markBlock; simp

@[simp] theorem setBit_frame (a0 a1 a2 s) : Only.tsk_prog_red s (setBit a0 a1 a2 s) := by
  unfold Only.tsk_prog_red setBit; simp

@[simp] theorem setWord_frame (a0 a1 a2 s) : Only.tsk_prog_red s (setWord a0 a1 a2 s) := by
  unfold Only.tsk_prog_red setWord; simp

@[simp] theorem noteForeign_frame (a0 s) : Only.sent_tsk_host_pas_log s (noteForeign a0 s) := by
  unfold Only.sent_tsk_host_pas_log noteForeign; simp

@[simp] theorem sendDigest_frame (a0 a1 a2 s) : Only.sent_red s (sendDigest a0 a1 a2 s) := by
  unfold Only.sent_red sendDigest; simp

@[simp] theorem sendLateView_frame (a0 a1 s) : Only.sent s (sendLateView a0 a1 s) := by
  unfold Only.sent sendLateView; simp

@[simp] theorem commitBit_frame (a0 a1 a2 s) : Only.tsk_prog_red s (commitBit a0 a1 a2 s) := by
  unfold Only.tsk_prog_red commitBit; (try dsimp only); (repeat' split) <;> simp

@[simp] theorem commitTask_frame (a0 s) : Only.sent_tsk_prog_host_red_pas_log s.1 (commitTask a0 s).1 := by
  unfold commitTask
  and_intros <;>
  · simp only [updTask_frame, sendLateView_frame, sendDigest_frame]
    refine (foldl_keeps _ _ (fun s e => by (repeat' split) <;> simp) _ _).trans ?_
    refine (foldl_keeps _ _ (fun s e => by (repeat' split) <;> simp) _ _).trans ?_
    simp

@[simp] theorem outputCopy_frame (s) : Only.tsk s (outputCopy s) := by
  unfold Only.tsk outputCopy; simp

@[simp] theorem clearOutputs_frame (s) : Only.tsk_prog_red s (clearOutputs s) := by
  unfold Only.tsk_prog_red clearOutputs; simp

@[simp] theorem hostBit_frame (a0 a1 s) : Only.tsk_prog_red s (hostBit a0 a1 s) := by
  unfold Only.tsk_prog_red hostBit; (try dsimp only); (repeat' split) <;> simp

@[simp] theorem applyWrite_frame (a0 a1 s) : Only.tsk_prog_red s (applyWrite a0 a1 s) := by
  unfold Only.tsk_prog_red applyWrite; simp

@[simp] theorem latchBits_frame (s) : Only.tsk_prog_red s (latchBits s) := by
  unfold Only.tsk_prog_red latchBits; simp

@[simp] theorem latchWords_frame (s) : Only.tsk_prog_red s (latchWords s) := by
  unfold Only.tsk_prog_red latchWords; simp

@[simp] theorem latchInputs_frame (s) : Only.tsk_prog_red s (latchInputs s) := by
  unfold Only.tsk_prog_red latchInputs; simp

@[simp] theorem latchTime_frame (a0 s) : Only.tsk_ports s (latchTime a0 s) := by
  unfold Only.tsk_ports latchTime; simp

@[simp] theorem setWords_frame (a0 a1 s) : Only.tsk_prog_red s (setWords a0 a1 s) := by
  unfold Only.tsk_prog_red setWords; simp

@[simp] theorem applyDirective_frame (a0 s) : Only.tsk_prog_red s (applyDirective a0 s) := by
  unfold Only.tsk_prog_red applyDirective; (repeat' split) <;> simp

@[simp] theorem releaseTask_frame (a0 s) : Only.tsk_scan s (releaseTask a0 s) := by
  unfold Only.tsk_scan releaseTask; simp

@[simp] theorem takeTrigger_frame (a0 s) : Only.tsk_scan s (takeTrigger a0 s) := by
  unfold Only.tsk_scan takeTrigger; simp

@[simp] theorem takePending_frame (a0 s) : Only.tsk_scan s (takePending a0 s) := by
  unfold Only.tsk_scan takePending; simp

@[simp] theorem releaseDue_frame (a0 s) : Only.tsk_scan s (releaseDue a0 s) := by
  unfold Only.tsk_scan releaseDue; dsimp only; (repeat' split) <;> simp

@[simp] theorem overrun_frame (a0 s) : Only.sent_tsk_scan_host_pas_depot_log s (overrun a0 s) := by
  unfold Only.sent_tsk_scan_host_pas_depot_log overrun; simp

@[simp] theorem fullAll_frame (s) : Only.tsk s (fullAll s) := by
  unfold Only.tsk fullAll; simp

@[simp] theorem runMode_frame (s) : Only.tsk s (runMode s) := by
  unfold Only.tsk runMode; simp

@[simp] theorem enterRun_frame (s) : Only.tsk s (enterRun s) := by
  unfold Only.tsk enterRun; simp

@[simp] theorem enterStop_frame (s) : Only.tsk_scan_prog_red_dio_depot s (enterStop s) := by
  unfold Only.tsk_scan_prog_red_dio_depot enterStop; simp

@[simp] theorem disableTask_frame (a0 s) : Only.tsk_scan_depot s (disableTask a0 s) := by
  unfold Only.tsk_scan_depot disableTask; simp

@[simp] theorem enableTask_frame (a0 s) : Only.tsk s (enableTask a0 s) := by
  unfold Only.tsk enableTask; simp

@[simp] theorem restartTask_frame (a0 s) : Only.tsk s (restartTask a0 s) := by
  unfold Only.tsk restartTask; simp

@[simp] theorem applyTaskControl_frame (s) : Only.tsk_scan_depot s (applyTaskControl s) := by
  unfold Only.tsk_scan_depot applyTaskControl; simp

@[simp] theorem releaseSteps_frame (s) : Only.tsk_scan s (releaseSteps s) := by
  unfold Only.tsk_scan releaseSteps; simp

@[simp] theorem roleChange_frame (a0 a1 s) : Only.sent_host_red_pas_log s (roleChange a0 a1 s) := by
  unfold Only.sent_host_red_pas_log roleChange; simp

@[simp] theorem abandonAll_frame (s) : Only.tsk_scan_depot s (abandonAll s) := by
  unfold Only.tsk_scan_depot abandonAll; simp

@[simp] theorem leaveStep_frame (s) : Only.red s (leaveStep s) := by
  unfold Only.red leaveStep; simp

@[simp] theorem toWarm_frame (a0 a1 a2 s) : Only.sent_tsk_scan_host_red_pas_depot_log s (toWarm a0 a1 a2 s) := by
  unfold Only.sent_tsk_scan_host_red_pas_depot_log toWarm; simp

@[simp] theorem dropFromStep_frame (a0 a1 s) : Only.sent_tsk_scan_host_red_pas_depot_log s (dropFromStep a0 a1 s) := by
  unfold Only.sent_tsk_scan_host_red_pas_depot_log dropFromStep; simp

@[simp] theorem breakResync_frame (s) : Only.sent_tsk_scan_host_red_pas_depot_log s (breakResync s) := by
  unfold Only.sent_tsk_scan_host_red_pas_depot_log breakResync; simp

@[simp] theorem sendHbDrop_frame (s) : Only.sent_red s (sendHbDrop s) := by
  unfold Only.sent_red sendHbDrop; simp

@[simp] theorem dropStandby_frame (a0 s) : Only.sent_red s (dropStandby a0 s) := by
  unfold Only.sent_red dropStandby; simp

@[simp] theorem digestMismatch_frame (a0 a1 s) : Only.sent_tsk_scan_host_red_pas_depot_log s (digestMismatch a0 a1 s) := by
  unfold Only.sent_tsk_scan_host_red_pas_depot_log digestMismatch; simp

@[simp] theorem compareDigests_frame (s) : Only.sent_tsk_scan_host_red_pas_depot_log s (compareDigests s) := by
  unfold Only.sent_tsk_scan_host_red_pas_depot_log compareDigests; simp

@[simp] theorem setEpoch_frame (a0 s) : Only.red_depot s (setEpoch a0 s) := by
  unfold Only.red_depot setEpoch; simp

@[simp] theorem driveAct_frame (s) : Only.red s (driveAct s) := by
  unfold Only.red driveAct; simp

@[simp] theorem releaseAct_frame (s) : Only.red s (releaseAct s) := by
  unfold Only.red releaseAct; simp

@[simp] theorem pairBarred_frame (a0 s) : Only.sent_host_pas_log s (pairBarred a0 s) := by
  unfold Only.sent_host_pas_log pairBarred; simp

@[simp] theorem sendHeartbeat_frame (a0 a1 a2 a3 s) : Only.sent s (sendHeartbeat a0 a1 a2 a3 s) := by
  unfold Only.sent sendHeartbeat; simp

@[simp] theorem bothHeartbeats_frame (a0 a1 s) : Only.sent s (bothHeartbeats a0 a1 s) := by
  unfold Only.sent bothHeartbeats; simp

@[simp] theorem sendRecord_frame (a0 s) : Only.sent_red s (sendRecord a0 s) := by
  unfold Only.sent_red sendRecord; simp

@[simp] theorem setActive_frame (a0 s) : Only.prog s (setActive a0 s) := by
  unfold Only.prog setActive; simp

@[simp] theorem setShadow_frame (a0 s) : Only.prog s (setShadow a0 s) := by
  unfold Only.prog setShadow; simp

@[simp] theorem dropShadow_frame (s) : Only.prog s (dropShadow s) := by
  unfold Only.prog dropShadow; simp

@[simp] theorem noteDropped_frame (a0 s) : Only.sent_host_pas_log s (noteDropped a0 s) := by
  unfold Only.sent_host_pas_log noteDropped; simp

@[simp] theorem installProgram_frame (a0 s) : Only.sent_res_cast_tsk_scan_prog_host_red_pas_ports_dio_depot_log_upd s (installProgram a0 s) := by
  unfold Only.sent_res_cast_tsk_scan_prog_host_red_pas_ports_dio_depot_log_upd installProgram; simp

@[simp] theorem loadStored_frame (s) : Only.sent_res_cast_tsk_scan_prog_host_red_pas_ports_dio_depot_log_upd s (loadStored s) := by
  unfold Only.sent_res_cast_tsk_scan_prog_host_red_pas_ports_dio_depot_log_upd loadStored; (repeat' split) <;> simp

@[simp] theorem startStore_frame (s) : Only.prog s (startStore s) := by
  unfold Only.prog startStore; simp

@[simp] theorem loadClose_frame (s) : Only.sent_res_cast_tsk_scan_prog_host_red_pas_ports_dio_depot_log_upd s (loadClose s).2 := by
  unfold Only.sent_res_cast_tsk_scan_prog_host_red_pas_ports_dio_depot_log_upd loadClose; (repeat' split) <;> simp

@[simp] theorem editOpenOp_frame (s) : Only.sent_res_cast_prog_host_pas_ports_log_upd s (editOpenOp s).2.2 := by
  have hf := claimFeature_frame 0x22 0 s
  unfold editOpenOp
  split
  · simp
  · split <;> rename_i h <;> simp [h] at hf <;> simp [hf]

@[simp] theorem editCloseOp_frame (s) : Only.prog_red s (editCloseOp s).2 := by
  unfold Only.prog_red editCloseOp; (repeat' split) <;> simp

@[simp] theorem editAbortOp_frame (s) : Only.res_cast_prog_ports_upd s (editAbortOp s).2 := by
  unfold Only.res_cast_prog_ports_upd editAbortOp; (repeat' split) <;> simp

@[simp] theorem arm_frame (a0 a1 s) : Only.prog s (arm a0 a1 s) := by
  unfold Only.prog arm; simp

@[simp] theorem sendBuilt_frame (a0 s) : Only.sent s (sendBuilt a0 s) := by
  unfold Only.sent sendBuilt; simp

@[simp] theorem buildFailed_frame (a0 a1 s) : Only.sent_prog_host_pas_log s (buildFailed a0 a1 s) := by
  unfold Only.sent_prog_host_pas_log buildFailed; simp

@[simp] theorem buildDone_frame (a0 s) : Only.sent_prog_host_pas_log s (buildDone a0 s) := by
  unfold Only.sent_prog_host_pas_log buildDone; dsimp only; (repeat' split) <;> simp

@[simp] theorem switchBanks_frame (s) : Only.sent_tsk_scan_prog_host_red_pas_log s (switchBanks s) := by
  unfold Only.sent_tsk_scan_prog_host_red_pas_log switchBanks; simp

@[simp] theorem editAt_frame (a0 s) : Only.sent_tsk_scan_prog_host_red_pas_log s (editAt a0 s) := by
  unfold Only.sent_tsk_scan_prog_host_red_pas_log editAt; simp

@[simp] theorem settleRemoved_frame (s) : Only.tsk s (settleRemoved s) := by
  unfold Only.tsk settleRemoved; simp

@[simp] theorem drainEnd_frame (s) : Only.res_cast_tsk_prog_ports_upd s (drainEnd s) := by
  unfold Only.res_cast_tsk_prog_ports_upd drainEnd; simp

@[simp] theorem applyDirectives_frame (a0 s) : Only.tsk_prog_red s (applyDirectives a0 s) := by
  unfold Only.tsk_prog_red applyDirectives; simp

@[simp] theorem joinTask_frame (a0 s) : Only.tsk_red s (joinTask a0 s) := by
  unfold Only.tsk_red joinTask; simp

@[simp] theorem followRelease_frame (a0 s) : Only.tsk_scan_red s (followRelease a0 s) := by
  unfold Only.tsk_scan_red followRelease; simp

@[simp] theorem holdReleases_frame (a0 a1 s) : Only.tsk s (holdReleases a0 a1 s) := by
  unfold Only.tsk holdReleases; simp

@[simp] theorem unholdAll_frame (s) : Only.tsk_red s (unholdAll s) := by
  unfold Only.tsk_red unholdAll; simp

@[simp] theorem settleWaits_frame (a0 s) : Only.free_sent_tsk_scan s (settleWaits a0 s) := by
  unfold Only.free_sent_tsk_scan settleWaits; simp

@[simp] theorem adoptPoints_frame (a0 a1 a2 s) : Only.tsk_prog_red s (adoptPoints a0 a1 a2 s) := by
  unfold Only.tsk_prog_red adoptPoints; simp

@[simp] theorem noteAdopted_frame (a0 s) : Only.sent_host_red_pas_log s (noteAdopted a0 s) := by
  unfold Only.sent_host_red_pas_log noteAdopted; dsimp only; (repeat' split) <;> simp

@[simp] theorem presume_frame (s) : Only.red s (presume s) := by
  unfold Only.red presume; simp

@[simp] theorem presumeSupplement_frame (a0 a1 s) : Only.free_sent_tsk_scan_red s (presumeSupplement a0 a1 s) := by
  unfold Only.free_sent_tsk_scan_red presumeSupplement; simp

@[simp] theorem presumeVerdict_frame (a0 s) : Only.tsk_red s (presumeVerdict a0 s) := by
  unfold Only.tsk_red presumeVerdict; simp

@[simp] theorem noteLag_frame (a0 s) : Only.free_red s (noteLag a0 s) := by
  unfold Only.free_red noteLag; simp

@[simp] theorem sendStates_frame (a0 s) : Only.sent s (sendStates a0 s) := by
  unfold Only.sent sendStates; simp

@[simp] theorem sendMarked_frame (s) : Only.sent_red s (sendMarked s) := by
  unfold Only.sent_red sendMarked; simp

@[simp] theorem finalCopy_frame (s) : Only.sent_red s (finalCopy s) := by
  unfold Only.sent_red finalCopy; simp

@[simp] theorem joinIdle_frame (s) : Only.tsk_red s (joinIdle s) := by
  unfold Only.tsk_red joinIdle; (repeat' split) <;> simp

@[simp] theorem finishJoin_frame (s) : Only.sent_host_red_pas_log s (finishJoin s) := by
  unfold Only.sent_host_red_pas_log finishJoin; (repeat' split) <;> simp

@[simp] theorem askNodes_frame (s) : Only.sent_ports s (askNodes s) := by
  unfold Only.sent_ports askNodes; (try dsimp only); (repeat' split) <;> simp

@[simp] theorem beginOutputs_frame (s) : Only.sent_ports_dio s (beginOutputs s) := by
  unfold Only.sent_ports_dio beginOutputs; simp

@[simp] theorem switchoverNow_frame (s) : Only.sent_tsk_host_red_pas_ports_dio_depot_log s (switchoverNow s) := by
  unfold Only.sent_tsk_host_red_pas_ports_dio_depot_log switchoverNow; simp

@[simp] theorem negotiateBarrier_frame (s) : Only.dio_iod s (negotiateBarrier s) := by
  unfold Only.dio_iod negotiateBarrier; (repeat' split) <;> simp

@[simp] theorem takeDown_frame (a0 s) : Only.iod s (takeDown a0 s) := by
  unfold Only.iod takeDown; simp

@[simp] theorem iodSlot_frame (a0 s) : Only.sent_iod s (iodSlot a0 s) := by
  unfold Only.sent_iod iodSlot; simp

@[simp] theorem sendDown_frame (s) : Only.sent_dio s (sendDown s) := by
  unfold Only.sent_dio sendDown; simp

@[simp] theorem dioEdge_frame (s) : Only.dio s (dioEdge s) := by
  unfold Only.dio dioEdge; (repeat' split) <;> simp

@[simp] theorem reqCommit_frame (a0 s) : Only.dio s (reqCommit a0 s) := by
  unfold Only.dio reqCommit; simp

@[simp] theorem newBits_frame (a0 a1 a2 s) : Only.sent_host_pas_log s (newBits a0 a1 a2 s) := by
  unfold Only.sent_host_pas_log newBits; simp

@[simp] theorem safNews_frame (a0 a1 s) : Only.sent_host_pas_dio_log s (safNews a0 a1 s) := by
  unfold Only.sent_host_pas_dio_log safNews; simp

@[simp] theorem inputEdges_frame (a0 a1 s) : Only.tsk s (inputEdges a0 a1 s) := by
  unfold Only.tsk inputEdges; simp

@[simp] theorem ownInputs_frame (a0 s) : Only.tsk s (ownInputs a0 s) := by
  unfold Only.tsk ownInputs; simp

@[simp] theorem takeUp_frame (a0 s) : Only.sent_tsk_host_pas_dio_iod_log s (takeUp a0 s) := by
  unfold Only.sent_tsk_host_pas_dio_iod_log takeUp; simp

@[simp] theorem barrierLost_frame (s) : Only.sent_tsk_host_pas_dio_log s (barrierLost s) := by
  unfold Only.sent_tsk_host_pas_dio_log barrierLost; simp

@[simp] theorem dioConfigOp_frame (a0 s) : Only.dio_upd s (dioConfigOp a0 s).2 := by
  unfold Only.dio_upd dioConfigOp; dsimp only; (repeat' split) <;> simp

@[simp] theorem verdictFor_frame (a0 s) : Only.sent_host_red_pas_log s (verdictFor a0 s).2 := by
  unfold Only.sent_host_red_pas_log verdictFor; dsimp only; (repeat' split) <;> simp

@[simp] theorem guardOne_frame (a0 s) : Only.sent_tsk_scan_host_red_pas_depot_log s.1 (guardOne a0 s).1 := by
  unfold Only.sent_tsk_scan_host_red_pas_depot_log guardOne; dsimp only; (repeat' split) <;> simp

@[simp] theorem guardAll_frame (s) : Only.sent_tsk_scan_host_red_pas_depot_log s (guardAll s) := by
  unfold Only.sent_tsk_scan_host_red_pas_depot_log guardAll; simp

@[simp] theorem deadlineOne_frame (a0 s) : Only.sent_tsk_scan_prog_host_red_pas_depot_log s.1 (deadlineOne a0 s).1 := by
  unfold Only.sent_tsk_scan_prog_host_red_pas_depot_log deadlineOne; dsimp only; (repeat' split) <;> simp

@[simp] theorem ownReleases_frame (a0 s) : Only.tsk_scan s (ownReleases a0 s) := by
  unfold Only.tsk_scan ownReleases; simp

@[simp] theorem timebaseEdge_frame (s) : Only.sent_tsk_host_pas_ports_log s (timebaseEdge s) := by
  unfold Only.sent_tsk_host_pas_ports_log timebaseEdge; (repeat' split) <;> simp

@[simp] theorem firstStep_frame (s) : Only.sent_tsk_scan_prog_host_red_pas_ports_dio_depot_log s (firstStep s).1 := by
  unfold Only.sent_tsk_scan_prog_host_red_pas_ports_dio_depot_log firstStep; dsimp only; (repeat' split) <;> simp

@[simp] theorem commitPart_frame (a0 s) : Only.sent_tsk_scan_prog_host_red_pas_dio_depot_log s (commitPart a0 s).1 := by
  unfold Only.sent_tsk_scan_prog_host_red_pas_dio_depot_log commitPart; (repeat' split) <;> simp

@[simp] theorem afterCommits_frame (a0 s) : Only.sent_tsk_host_pas_ports_bkd_log s (afterCommits a0 s) := by
  unfold Only.sent_tsk_host_pas_ports_bkd_log afterCommits; simp

@[simp] theorem settleOwed_frame (a0 a1 a2 s) : Only.free_sent_res_cast_tsk_scan_prog_host_red_pas_ports_dio_bkd_depot_log_upd s (settleOwed a0 a1 a2 s) := by
  unfold Only.free_sent_res_cast_tsk_scan_prog_host_red_pas_ports_dio_bkd_depot_log_upd settleOwed; dsimp only; (repeat' split) <;> simp

@[simp] theorem followGpio_frame (a0 s) : Only.tsk_prog_red s (followGpio a0 s) := by
  unfold Only.tsk_prog_red followGpio; simp

@[simp] theorem followInputs_frame (a0 s) : Only.tsk_prog_red s (followInputs a0 s) := by
  unfold Only.tsk_prog_red followInputs; simp

@[simp] theorem presumeRecord_frame (s) : Only.free_sent_res_cast_tsk_scan_prog_host_red_pas_ports_dio_bkd_depot_log_upd s (presumeRecord s) := by
  unfold Only.free_sent_res_cast_tsk_scan_prog_host_red_pas_ports_dio_bkd_depot_log_upd presumeRecord; simp

@[simp] theorem presumeDue_frame (s) : Only.free_sent_res_cast_tsk_scan_prog_host_red_pas_ports_dio_bkd_depot_log_upd s (presumeDue s) := by
  unfold Only.free_sent_res_cast_tsk_scan_prog_host_red_pas_ports_dio_bkd_depot_log_upd presumeDue; simp

@[simp] theorem handOver_frame (s) : Only.sent_tsk_red s (handOver s) := by
  unfold Only.sent_tsk_red handOver; (try dsimp only); (repeat' split) <;> simp

@[simp] theorem noteOwnLatch_frame (s) : Only.red s (noteOwnLatch s) := by
  unfold Only.red noteOwnLatch; (try dsimp only); (repeat' split) <;> simp

@[simp] theorem edgeBody_frame (a0 s) : Only.free_sent_res_cast_tsk_scan_prog_host_red_pas_ports_dio_bkd_depot_log_upd s (edgeBody a0 s) := by
  unfold Only.free_sent_res_cast_tsk_scan_prog_host_red_pas_ports_dio_bkd_depot_log_upd edgeBody; dsimp only; (repeat' split) <;> simp

@[simp] theorem tickEdge_frame (a0 s) : Only.free_sent_sys_res_cast_tsk_scan_prog_host_red_pas_ports_dio_bkd_depot_log_upd s (tickEdge a0 s) := by
  unfold Only.free_sent_sys_res_cast_tsk_scan_prog_host_red_pas_ports_dio_bkd_depot_log_upd tickEdge; simp

@[simp] theorem putNode_frame (a0 s) : Only.ports s (putNode a0 s).2 := by
  unfold Only.ports putNode; dsimp only; (repeat' split) <;> simp

@[simp] theorem putNodes_frame (a0 s) : Only.ports s (putNodes a0 s).2 := by
  have h : Only.ports s (a0.foldl (fun (x : BitVec 16 × State) e =>
      let y := putNode e x.2
      (if x.1 = 0 ∨ (y.1 ≠ 0 ∧ y.1.toNat < x.1.toNat) then y.1 else x.1, y.2)) (0, s)).2 := by
    suffices h : ∀ p : BitVec 16 × State, Only.ports p.2 (a0.foldl _ p).2 from h (0, s)
    induction a0 with
    | nil => intro p; simp
    | cons k l ih => intro p; simp only [Only.ports] at ih; simp only [List.foldl_cons, Only.ports, ih]; simp
  unfold putNodes
  dsimp only
  split
  · simp
  · split
    · simp
    · exact h

@[simp] theorem writeBlock_frame (a0 a1 s) : Only.cast_ports s (writeBlock a0 a1 s).2 := by
  unfold Only.cast_ports writeBlock; dsimp only; (repeat' split) <;> simp

@[simp] theorem applySettings_frame (a0 a1 a2 s) : Only.cast_ports_upd s (applySettings a0 a1 a2 s).2 := by
  unfold Only.cast_ports_upd applySettings; dsimp only; (repeat' split) <;> simp

@[simp] theorem afterEnable_frame (a0 a1 s) : Only.sent_tsk_ports s (afterEnable a0 a1 s) := by
  unfold Only.sent_tsk_ports afterEnable; (repeat' split) <;> simp

@[simp] theorem afterDisable_frame (a0 a1 s) : Only.tsk_ports s (afterDisable a0 a1 s) := by
  unfold Only.tsk_ports afterDisable; (repeat' split) <;> simp

@[simp] theorem enableFeature_frame (a0 a1 s) : Only.sent_res_cast_tsk_host_pas_ports_log_upd s (enableFeature a0 a1 s).1 := by
  unfold Only.sent_res_cast_tsk_host_pas_ports_log_upd enableFeature; dsimp only; (repeat' split) <;> simp

@[simp] theorem disableFeature_frame (a0 a1 s) : Only.res_cast_tsk_ports_upd s (disableFeature a0 a1 s) := by
  unfold Only.res_cast_tsk_ports_upd disableFeature; simp

@[simp] theorem startEnabled_frame (s) : Only.sent_tsk_ports s (startEnabled s) := by
  unfold Only.sent_tsk_ports startEnabled; simp

@[simp] theorem addLost_frame (a0 s) : Only.log s (addLost a0 s) := by
  unfold Only.log addLost; simp

@[simp] theorem flashIn_frame (a0 s) : Only.log s (flashIn a0 s) := by
  unfold Only.log flashIn; simp

@[simp] theorem closeLost_frame (s) : Only.log s (closeLost s) := by
  unfold Only.log closeLost; (repeat' split) <;> simp

@[simp] theorem savePosition_frame (s) : Only.depot_log s (savePosition s) := by
  unfold Only.depot_log savePosition; simp

@[simp] theorem flushOp_frame (s) : Only.depot_log s (flushOp s) := by
  unfold Only.depot_log flushOp; dsimp only; (repeat' split) <;> simp

@[simp] theorem mergeImage_frame (s) : Only.log s (mergeImage s) := by
  unfold Only.log mergeImage; (repeat' split) <;> simp

@[simp] theorem unfreeze_frame (s) : Only.log s (unfreeze s) := by
  unfold Only.log unfreeze; simp

@[simp] theorem endSession_frame (a0 s) : Only.host_depot_log s (endSession a0 s) := by
  unfold Only.host_depot_log endSession; simp

@[simp] theorem patrolOp_frame (a0 a1 s) : Only.free_sent_host_pas_depot_log s (patrolOp a0 a1 s) := by
  unfold Only.free_sent_host_pas_depot_log patrolOp; simp

@[simp] theorem loadStores_frame (a0 s) : Only.sys_cast_host_red_pas_ports_dio_upd s (loadStores a0 s) := by
  unfold Only.sys_cast_host_red_pas_ports_dio_upd loadStores; simp

@[simp] theorem loadWatchdog_frame (a0 s) : Only.bkd s (loadWatchdog a0 s) := by
  unfold Only.bkd loadWatchdog; simp

@[simp] theorem twinStore_frame (a0 a1 s) : Only.free_sent_depot s (twinStore a0 a1 s) := by
  unfold Only.free_sent_depot twinStore; dsimp only; (repeat' split) <;> simp

@[simp] theorem bootParts_frame (a0 a1 s) : Only.upd s (bootParts a0 a1 s) := by
  unfold Only.upd bootParts; simp

@[simp] theorem trialBoot_frame (s) : Only.free_sent_host_pas_depot_log_upd s (trialBoot s) := by
  unfold Only.free_sent_host_pas_depot_log_upd trialBoot; simp

@[simp] theorem loadSup_frame (s) : Only.free_sent_host_pas_depot_log_upd s (loadSup s).2 := by
  unfold Only.free_sent_host_pas_depot_log_upd loadSup; dsimp only; (repeat' split) <;> simp

@[simp] theorem rejectTrial_frame (s) : Only.sent_sys_host_pas_depot_log_upd s (rejectTrial s) := by
  unfold Only.sent_sys_host_pas_depot_log_upd rejectTrial; simp

@[simp] theorem beginStoring_frame (a0 a1 s) : Only.depot_upd s (beginStoring a0 a1 s) := by
  unfold Only.depot_upd beginStoring; (try dsimp only); (repeat' split) <;> simp

@[simp] theorem readSettings_frame (s) : Only.sent_sys_host_pas_depot_log_upd s (readSettings s).2 := by
  unfold Only.sent_sys_host_pas_depot_log_upd readSettings; dsimp only; (repeat' split) <;> simp

@[simp] theorem exchangeBarrier_frame (s) : Only.sent_tsk_host_pas_dio_iod_log s (exchangeBarrier s) := by
  unfold Only.sent_tsk_host_pas_dio_iod_log exchangeBarrier; simp

@[simp] theorem loadProgram_frame (s) : Only.sent_res_cast_tsk_scan_prog_host_red_pas_ports_dio_depot_log_upd s (loadProgram s) := by
  unfold Only.sent_res_cast_tsk_scan_prog_host_red_pas_ports_dio_depot_log_upd loadProgram; simp

@[simp] theorem noteExpiry_frame (s) : Only.sent_host_pas_bkd_log s (noteExpiry s) := by
  unfold Only.sent_host_pas_bkd_log noteExpiry; simp

@[simp] theorem finishStart_frame (s) : Only.sent_sys_res_cast_tsk_host_pas_ports_bkd_log_upd s (finishStart s) := by
  unfold Only.sent_sys_res_cast_tsk_host_pas_ports_bkd_log_upd finishStart; simp

@[simp] theorem endStep6_frame (s) : Only.sent_sys_res_cast_tsk_host_pas_ports_bkd_log_upd s (endStep6 s) := by
  unfold Only.sent_sys_res_cast_tsk_host_pas_ports_bkd_log_upd endStep6; simp

@[simp] theorem roleDecision_frame (s) : Only.sent_sys_res_cast_tsk_host_red_pas_ports_bkd_log_upd s (roleDecision s) := by
  unfold Only.sent_sys_res_cast_tsk_host_red_pas_ports_bkd_log_upd roleDecision; simp

@[simp] theorem trainPass_frame (s) : Only.pas s (trainPass s) := by
  unfold Only.pas trainPass; dsimp only; (repeat' split) <;> simp

@[simp] theorem bootDownload_frame (s) : Only.upd s (bootDownload s) := by
  unfold Only.upd bootDownload; (try dsimp only); (repeat' split) <;> simp

@[simp] theorem startUp_frame (a0 s) : Only.free_sent_sys_res_cast_tsk_scan_prog_host_red_pas_ports_dio_iod_bkd_depot_log_upd s (startUp a0 s) := by
  unfold Only.free_sent_sys_res_cast_tsk_scan_prog_host_red_pas_ports_dio_iod_bkd_depot_log_upd startUp; simp

@[simp] theorem tornPage_frame (a0 a1 a2 s) : Only.free_sent_depot s (tornPage a0 a1 a2 s) := by
  unfold Only.free_sent_depot tornPage; (repeat' split) <;> simp

@[simp] theorem supplyCut_frame (s) : Only.free_sent_depot_log s (supplyCut s) := by
  unfold Only.free_sent_depot_log supplyCut; dsimp only; (repeat' split) <;> simp

@[simp] theorem recordFault_frame (a0 a1 s) : Only.sys_scan s (recordFault a0 a1 s) := by
  unfold Only.sys_scan recordFault; simp

@[simp] theorem retrySegment_frame (a0 a1 s) : Only.tsk_scan s (retrySegment a0 a1 s) := by
  unfold Only.tsk_scan retrySegment; (repeat' split) <;> simp

@[simp] theorem countUncorrectable_frame (a0 s) : Only.sys s (countUncorrectable a0 s) := by
  unfold Only.sys countUncorrectable; simp

@[simp] theorem mapError_frame (a0 a1 s) : Only.sent_tsk_host_pas_log s (mapError a0 a1 s) := by
  unfold Only.sent_tsk_host_pas_log mapError; simp

@[simp] theorem tagsError_frame (s) : Only.sent_tsk_scan_prog_host_pas_log s (tagsError s) := by
  unfold Only.sent_tsk_scan_prog_host_pas_log tagsError; simp

@[simp] theorem peerAlive_frame (s) : Only.sent_tsk_scan_host_red_pas_depot_log s (peerAlive s) := by
  unfold Only.sent_tsk_scan_host_red_pas_depot_log peerAlive; simp

@[simp] theorem requestResync_frame (s) : Only.sent_res_cast_tsk_scan_prog_host_red_pas_ports_depot_log_upd s (requestResync s) := by
  unfold Only.sent_res_cast_tsk_scan_prog_host_red_pas_ports_depot_log_upd requestResync; (repeat' split) <;> simp

@[simp] theorem enterSyncing_frame (s) : Only.sent_res_cast_tsk_scan_prog_host_red_pas_ports_depot_log_upd s (enterSyncing s) := by
  unfold Only.sent_res_cast_tsk_scan_prog_host_red_pas_ports_depot_log_upd enterSyncing; (repeat' split) <;> simp

@[simp] theorem setPath_frame (a0 a1 s) : Only.sent_host_red_pas_log s (setPath a0 a1 s) := by
  unfold Only.sent_host_red_pas_log setPath; simp

@[simp] theorem yieldActive_frame (s) : Only.sent_tsk_scan_host_red_pas_depot_log s (yieldActive s) := by
  unfold Only.sent_tsk_scan_host_red_pas_depot_log yieldActive; simp

@[simp] theorem compareRdv_frame (a0 s) : Only.sent_tsk_scan_host_red_pas_depot_log s (compareRdv a0 s) := by
  unfold Only.sent_tsk_scan_host_red_pas_depot_log compareRdv; simp

@[simp] theorem hearHeartbeat_frame (a0 a1 s) : Only.sent_sys_res_cast_tsk_scan_prog_host_red_pas_ports_bkd_depot_log_upd s (hearHeartbeat a0 a1 s) := by
  unfold Only.sent_sys_res_cast_tsk_scan_prog_host_red_pas_ports_bkd_depot_log_upd hearHeartbeat; simp

@[simp] theorem bothLost_frame (s) : Only.free_sent_tsk_scan_host_red_pas_depot_log s (bothLost s) := by
  unfold Only.free_sent_tsk_scan_host_red_pas_depot_log bothLost; simp

@[simp] theorem reportPartner_frame (s) : Only.sent_host_pas_log s (reportPartner s) := by
  unfold Only.sent_host_pas_log reportPartner; simp

@[simp] theorem takeOver_frame (s) : Only.free_sent_res_cast_tsk_scan_prog_host_red_pas_ports_dio_bkd_depot_log_upd s (takeOver s) := by
  unfold Only.free_sent_res_cast_tsk_scan_prog_host_red_pas_ports_dio_bkd_depot_log_upd takeOver; simp

@[simp] theorem coldTakeOver_frame (s) : Only.sent_res_cast_tsk_scan_prog_host_red_pas_ports_dio_depot_log_upd s (coldTakeOver s) := by
  unfold Only.sent_res_cast_tsk_scan_prog_host_red_pas_ports_dio_depot_log_upd coldTakeOver; simp

@[simp] theorem followEffect_frame (a0 s) : Only.tsk_scan_prog_red_dio_depot s (followEffect a0 s) := by
  unfold Only.tsk_scan_prog_red_dio_depot followEffect; (repeat' split) <;> simp

@[simp] theorem writePortModes_frame (a0 a1 s) : Only.ports s (writePortModes a0 a1 s) := by
  unfold Only.ports writePortModes; (try dsimp only); (repeat' split) <;> simp

@[simp] theorem touchEarly_frame (a0 s) : Only.upd s (touchEarly a0 s) := by
  unfold Only.upd touchEarly; (try dsimp only); (repeat' split) <;> simp

@[simp] theorem writeShared_frame (a0 a1 s) : Only.tsk_pas_ports_upd s (writeShared a0 a1 s) := by
  unfold Only.tsk_pas_ports_upd writeShared; (try dsimp only); (repeat' split) <;> simp

@[simp] theorem followItem_frame (a0 s) : Only.sent_res_cast_tsk_prog_host_red_pas_ports_log_upd s (followItem a0 s) := by
  unfold Only.sent_res_cast_tsk_prog_host_red_pas_ports_log_upd followItem; (repeat' split) <;> simp

@[simp] theorem takeRecord_frame (a0 s) : Only.free_sent_res_cast_tsk_scan_prog_host_red_pas_ports_dio_bkd_depot_log_upd s (takeRecord a0 s) := by
  unfold Only.free_sent_res_cast_tsk_scan_prog_host_red_pas_ports_dio_bkd_depot_log_upd takeRecord; simp

@[simp] theorem takeSupplement_frame (a0 a1 a2 a3 a4 s) : Only.free_sent_tsk_scan_prog_host_red_pas_log s (takeSupplement a0 a1 a2 a3 a4 s) := by
  unfold Only.free_sent_tsk_scan_prog_host_red_pas_log takeSupplement; (repeat' split) <;> simp

@[simp] theorem serveResync_frame (a0 a1 s) : Only.sent_red s (serveResync a0 a1 s) := by
  unfold Only.sent_red serveResync; simp

@[simp] theorem announceJoin_frame (s) : Only.sent_red s (announceJoin s) := by
  unfold Only.sent_red announceJoin; simp

@[simp] theorem updCopied_frame (a0 a1 s) : Only.prog s (updCopied a0 a1 s) := by
  unfold Only.prog updCopied; simp

@[simp] theorem keepEffect_frame (a0 s) : Only.tsk s (keepEffect a0 s) := by
  unfold Only.tsk keepEffect; (try dsimp only); (repeat' split) <;> simp

@[simp] theorem applyState_frame (a0 s) : Only.sent_res_cast_tsk_prog_host_red_pas_ports_depot_log_upd s (applyState a0 s) := by
  unfold Only.sent_res_cast_tsk_prog_host_red_pas_ports_depot_log_upd applyState; (repeat' split) <;> simp

@[simp] theorem takeBanks_frame (s) : Only.prog s (takeBanks s) := by
  unfold Only.prog takeBanks; simp

@[simp] theorem updIdle_frame (a0 a1 s) : Only.upd s (updIdle a0 a1 s) := by
  unfold Only.upd updIdle; simp

@[simp] theorem issueSave_frame (a0 a1 s) : Only.depot s (issueSave a0 a1 s) := by
  unfold Only.depot issueSave; (try dsimp only); (repeat' split) <;> simp

@[simp] theorem saveDownload_frame (a0 a1 s) : Only.depot_upd s (saveDownload a0 a1 s) := by
  unfold Only.depot_upd saveDownload; simp

@[simp] theorem closeDownload_frame (s) : Only.res_cast_ports_upd s (closeDownload s) := by
  unfold Only.res_cast_ports_upd closeDownload; simp

@[simp] theorem updBeginOp_frame (a0 a1 s) : Only.sent_res_cast_host_pas_ports_depot_log_upd s (updBeginOp a0 a1 s).2.2 := by
  unfold Only.sent_res_cast_host_pas_ports_depot_log_upd updBeginOp; dsimp only; (repeat' split) <;> simp

@[simp] theorem updBlockOp_frame (a0 a1 a2 s) : Only.sent_res_cast_host_pas_ports_depot_log_upd s (updBlockOp a0 a1 a2 s).2.2 := by
  unfold Only.sent_res_cast_host_pas_ports_depot_log_upd updBlockOp; dsimp only; (repeat' split) <;> simp

@[simp] theorem supVerified_frame (a0 a1 s) : Only.sys s (supVerified a0 a1 s) := by
  unfold Only.sys supVerified; simp

@[simp] theorem verifyEnd_frame (a0 s) : Only.sys_res_cast_ports_depot_upd s (verifyEnd a0 s).2 := by
  unfold Only.sys_res_cast_ports_depot_upd verifyEnd; simp

@[simp] theorem activate_frame (a0 s) : Only.sent_sys_host_pas_depot_log_upd s (activate a0 s) := by
  unfold Only.sent_sys_host_pas_depot_log_upd activate; simp

@[simp] theorem updActivateOp_frame (a0 s) : Only.sent_sys_host_pas_depot_log_upd s (updActivateOp a0 s).2.2 := by
  unfold Only.sent_sys_host_pas_depot_log_upd updActivateOp; dsimp only; (repeat' split) <;> simp

@[simp] theorem verifyAll_frame (a0 s) : Only.sys_res_cast_ports_depot_upd s (verifyAll a0 s).2 := by
  unfold verifyAll
  suffices h : ∀ p : Bool × State, Only.sys_res_cast_ports_depot_upd p.2 (a0.foldl _ p).2 from h (true, s)
  induction a0 with
  | nil => intro p; simp
  | cons k l ih =>
    intro p
    rw [List.foldl_cons]
    have := ih (if (idleSlot (partOf p.2 k)).st = .complete then (p.1 && (verifyEnd k p.2).1, (verifyEnd k p.2).2) else p)
    split at this <;> simp_all

@[simp] theorem updManifestOp_frame (a0 s) : Only.sent_sys_res_cast_host_pas_ports_depot_log_upd s (updManifestOp a0 s).2.2 := by
  unfold Only.sent_sys_res_cast_host_pas_ports_depot_log_upd updManifestOp; dsimp only; (repeat' split) <;> simp

@[simp] theorem switchSettings_frame (s) : Only.depot s (switchSettings s) := by
  unfold Only.depot switchSettings; simp

@[simp] theorem confirmTrial_frame (s) : Only.sent_host_pas_depot_log_upd s (confirmTrial s) := by
  unfold Only.sent_host_pas_depot_log_upd confirmTrial; simp

@[simp] theorem keyEnrolOp_frame (a0 a1 a2 a3 s) : Only.sent_host_pas_depot_log s (keyEnrolOp a0 a1 a2 a3 s).2.2 := by
  unfold Only.sent_host_pas_depot_log keyEnrolOp; dsimp only; (repeat' split) <;> simp

@[simp] theorem keyRemoveOp_frame (a0 s) : Only.sent_host_pas_depot_log s (keyRemoveOp a0 s).2 := by
  unfold Only.sent_host_pas_depot_log keyRemoveOp; (repeat' split) <;> simp

@[simp] theorem readSys_frame (a0 s) : Only.sys s (readSys a0 s) := by
  unfold Only.sys readSys; (repeat' split) <;> simp

@[simp] theorem readIsl_frame (a0 s) : Only.sys s (readIsl a0 s) := by
  unfold Only.sys readIsl; (try dsimp only); (repeat' split) <;> simp

@[simp] theorem readScn_frame (a0 s) : Only.scan s (readScn a0 s) := by
  unfold Only.scan readScn; (repeat' split) <;> simp

@[simp] theorem readTsk_frame (a0 s) : Only.tsk s (readTsk a0 s) := by
  unfold Only.tsk readTsk; (repeat' split) <;> simp

@[simp] theorem readRed_frame (a0 s) : Only.red s (readRed a0 s) := by
  unfold Only.red readRed; (repeat' split) <;> simp

@[simp] theorem readPas_frame (a0 s) : Only.pas s (readPas a0 s) := by
  unfold Only.pas readPas; (repeat' split) <;> simp

@[simp] theorem readFld_frame (a0 s) : Only.ports s (readFld a0 s) := by
  unfold Only.ports readFld; (repeat' split) <;> simp

@[simp] theorem readSer_frame (a0 s) : Only.ports s (readSer a0 s) := by
  unfold Only.ports readSer; (repeat' split) <;> simp

@[simp] theorem readDio_frame (a0 s) : Only.dio s (readDio a0 s) := by
  unfold Only.dio readDio; (repeat' split) <;> simp

@[simp] theorem readSaf_frame (a0 s) : Only.dio s (readSaf a0 s) := by
  unfold Only.dio readSaf; (repeat' split) <;> simp

@[simp] theorem readRtc_frame (a0 s) : Only.bkd s (readRtc a0 s) := by
  unfold Only.bkd readRtc; (repeat' split) <;> simp

@[simp] theorem readWdt_frame (a0 s) : Only.bkd s (readWdt a0 s) := by
  unfold Only.bkd readWdt; (repeat' split) <;> simp

@[simp] theorem readDep_frame (a0 s) : Only.depot s (readDep a0 s) := by
  unfold Only.depot readDep; (repeat' split) <;> simp

@[simp] theorem readAcc_frame (a0 s) : Only.log s (readAcc a0 s) := by
  unfold Only.log readAcc; (repeat' split) <;> simp

@[simp] theorem readSec_frame (a0 s) : Only.upd s (readSec a0 s) := by
  unfold Only.upd readSec; (repeat' split) <;> simp

@[simp] theorem readEffect_frame (a0 s) : Only.sys_res_cast_tsk_scan_prog_red_pas_ports_dio_bkd_depot_log_upd s (readEffect a0 s) := by
  unfold Only.sys_res_cast_tsk_scan_prog_red_pas_ports_dio_bkd_depot_log_upd readEffect; (repeat' split) <;> simp

@[simp] theorem readReg_frame (a0 s) : Only.free_sys_res_cast_tsk_scan_prog_red_pas_ports_dio_bkd_depot_log_upd s (readReg a0 s).2 := by
  unfold Only.free_sys_res_cast_tsk_scan_prog_red_pas_ports_dio_bkd_depot_log_upd readReg; simp

@[simp] theorem readRegs_frame (a0 a1 s) : Only.free_sys_res_cast_tsk_scan_prog_red_pas_ports_dio_bkd_depot_log_upd s (readRegs a0 a1 s).2 := by
  induction a1 generalizing a0 s with
  | zero => simp [readRegs]
  | succ n ih => simp [readRegs, ih]

@[simp] theorem setEnableBit_frame (a0 a1 s) : Only.sent_res_cast_tsk_host_red_pas_ports_log_upd s (setEnableBit a0 a1 s) := by
  unfold Only.sent_res_cast_tsk_host_red_pas_ports_log_upd setEnableBit; (repeat' split) <;> simp

@[simp] theorem clearEnableBit_frame (a0 a1 s) : Only.res_cast_tsk_red_ports_upd s (clearEnableBit a0 a1 s) := by
  unfold Only.res_cast_tsk_red_ports_upd clearEnableBit; (repeat' split) <;> simp

@[simp] theorem putEnableBit_frame (a0 a1 a2 s) : Only.sent_res_cast_tsk_host_red_pas_ports_log_upd s (putEnableBit a0 a1 a2 s) := by
  unfold Only.sent_res_cast_tsk_host_red_pas_ports_log_upd putEnableBit; simp

@[simp] theorem writeCastCtrl_frame (a0 s) : Only.free_sent_res_cast_tsk_host_red_pas_ports_log_upd s (writeCastCtrl a0 s) := by
  unfold Only.free_sent_res_cast_tsk_host_red_pas_ports_log_upd writeCastCtrl; simp

@[simp] theorem writeRed_frame (a0 a1 s) : Only.sent_res_cast_tsk_host_red_pas_ports_log_upd s (writeRed a0 a1 s) := by
  unfold Only.sent_res_cast_tsk_host_red_pas_ports_log_upd writeRed; (repeat' split) <;> simp

@[simp] theorem writePasCtrl_frame (a0 s) : Only.sent_sys_tsk_host_pas_ports_log s (writePasCtrl a0 s) := by
  unfold Only.sent_sys_tsk_host_pas_ports_log writePasCtrl; simp

@[simp] theorem setShared_frame (a0 a1 s) : Only.tsk_red_pas_ports_upd s (setShared a0 a1 s) := by
  unfold Only.tsk_red_pas_ports_upd setShared; (try dsimp only); (repeat' split) <;> simp

@[simp] theorem writePas_frame (a0 a1 s) : Only.free_sent_sys_tsk_host_red_pas_ports_log_upd s (writePas a0 a1 s) := by
  unfold Only.free_sent_sys_tsk_host_red_pas_ports_log_upd writePas; (repeat' split) <;> simp

@[simp] theorem setFldEvt_frame (a0 a1 s) : Only.red_ports s (setFldEvt a0 a1 s) := by
  unfold Only.red_ports setFldEvt; (try dsimp only); (repeat' split) <;> simp

@[simp] theorem writeFld_frame (a0 a1 s) : Only.sent_res_cast_tsk_host_red_pas_ports_log_upd s (writeFld a0 a1 s) := by
  unfold Only.sent_res_cast_tsk_host_red_pas_ports_log_upd writeFld; (repeat' split) <;> simp

@[simp] theorem crcFields_frame (a0 a1 s) : Only.ports s (crcFields a0 a1 s) := by
  unfold Only.ports crcFields; simp

@[simp] theorem writeCrc_frame (a0 a1 s) : Only.sent_res_cast_tsk_host_red_pas_ports_log_upd s (writeCrc a0 a1 s) := by
  unfold Only.sent_res_cast_tsk_host_red_pas_ports_log_upd writeCrc; (repeat' split) <;> simp

@[simp] theorem askSleep_frame (s) : Only.host_bkd s (askSleep s) := by
  unfold Only.host_bkd askSleep; (try dsimp only); (repeat' split) <;> simp

@[simp] theorem writeRtc_frame (a0 a1 s) : Only.sys_host_bkd s (writeRtc a0 a1 s) := by
  unfold Only.sys_host_bkd writeRtc; (repeat' split) <;> simp

@[simp] theorem writeWdtCtrl_frame (a0 s) : Only.bkd_upd s (writeWdtCtrl a0 s) := by
  unfold Only.bkd_upd writeWdtCtrl; simp

@[simp] theorem writeWdt_frame (a0 a1 s) : Only.free_sent_cast_host_red_pas_bkd_log_upd s (writeWdt a0 a1 s) := by
  unfold Only.free_sent_cast_host_red_pas_bkd_log_upd writeWdt; (repeat' split) <;> simp

@[simp] theorem writeReg_frame (a0 a1 s) : Only.free_sent_sys_res_cast_tsk_scan_host_red_pas_ports_dio_bkd_log_upd s (writeReg a0 a1 s) := by
  unfold Only.free_sent_sys_res_cast_tsk_scan_host_red_pas_ports_dio_bkd_log_upd writeReg; (repeat' split) <;> simp

@[simp] theorem writeRegs_frame (a0 a1 s) : Only.free_sent_sys_res_cast_tsk_scan_host_red_pas_ports_dio_bkd_log_upd s (writeRegs a0 a1 s) := by
  unfold Only.free_sent_sys_res_cast_tsk_scan_host_red_pas_ports_dio_bkd_log_upd; fun_induction writeRegs a0 a1 s <;> simp_all

@[simp] theorem storeSettings_frame (s) : Only.depot_upd s (storeSettings s) := by
  unfold Only.depot_upd storeSettings; simp

@[simp] theorem ok_frame (a0 s) : Only.nothing s (ok a0 s).1 := by
  unfold Only.nothing ok; simp

@[simp] theorem no_frame (a0 s) : Only.nothing s (no a0 s).1 := by
  unfold Only.nothing no; simp

@[simp] theorem later_frame (a0 a1 s) : Only.nothing s (later a0 a1 s).1 := by
  unfold Only.nothing later; simp

@[simp] theorem replyWith_frame (a0 a1 s) : Only.nothing s (replyWith a0 a1 s).1 := by
  unfold Only.nothing replyWith; simp

@[simp] theorem afterWrite_frame (a0 s) : Only.nothing s (afterWrite a0 s).1 := by
  unfold Only.nothing afterWrite; simp

@[simp] theorem authFailed_frame (s) : Only.sent_host_pas_log_upd s (authFailed s) := by
  unfold Only.sent_host_pas_log_upd authFailed; simp

@[simp] theorem cmdAuthChallenge_frame (a0 a1 a2 a3 s) : Only.free_sent_host_pas_log_upd s (cmdAuthChallenge a0 a1 a2 a3 s).1 := by
  unfold Only.free_sent_host_pas_log_upd cmdAuthChallenge; dsimp only; (repeat' split) <;> simp

@[simp] theorem cmdAuthProve_frame (a0 a1 s) : Only.sent_host_pas_log_upd s (cmdAuthProve a0 a1 s).1 := by
  unfold Only.sent_host_pas_log_upd cmdAuthProve; dsimp only; (repeat' split) <;> simp

@[simp] theorem cmdBye_frame (a0 a1 s) : Only.host_depot_log s (cmdBye a0 a1 s).1 := by
  unfold Only.host_depot_log cmdBye; (repeat' split) <;> simp

@[simp] theorem cmdSessionInfo_frame (a0 s) : Only.nothing s (cmdSessionInfo a0 s).1 := by
  unfold Only.nothing cmdSessionInfo; (repeat' split) <;> simp

@[simp] theorem cmdUnitInfo_frame (a0 s) : Only.nothing s (cmdUnitInfo a0 s).1 := by
  unfold Only.nothing cmdUnitInfo; simp

@[simp] theorem cmdUnitStatus_frame (a0 s) : Only.host s (cmdUnitStatus a0 s).1 := by
  unfold Only.host cmdUnitStatus; simp

@[simp] theorem cmdBasinMap_frame (s) : Only.free s (cmdBasinMap s).1 := by
  unfold Only.free cmdBasinMap; simp

@[simp] theorem cmdStartMode_frame (a0 s) : Only.sys_upd s (cmdStartMode a0 s).1 := by
  unfold Only.sys_upd cmdStartMode; (repeat' split) <;> simp

@[simp] theorem cmdReset_frame (a0 s) : Only.host s (cmdReset a0 s).1 := by
  unfold Only.host cmdReset; (repeat' split) <;> simp

@[simp] theorem cmdImgRead_frame (a0 a1 a2 a3 s) : Only.nothing s (cmdImgRead a0 a1 a2 a3 s).1 := by
  unfold Only.nothing cmdImgRead; (repeat' split) <;> simp

@[simp] theorem cmdImgWrite_frame (a0 a1 a2 a3 a4 s) : Only.tsk s (cmdImgWrite a0 a1 a2 a3 a4 s).1 := by
  unfold Only.tsk cmdImgWrite; dsimp only; (repeat' split) <;> simp

@[simp] theorem cmdImgLayout_frame (s) : Only.nothing s (cmdImgLayout s).1 := by
  unfold Only.nothing cmdImgLayout; simp

@[simp] theorem cmdPrgLoadOpen_frame (s) : Only.prog s (cmdPrgLoadOpen s).1 := by
  unfold Only.prog cmdPrgLoadOpen; (repeat' split) <;> simp

@[simp] theorem cmdPrgLoadBlock_frame (a0 a1 s) : Only.prog s (cmdPrgLoadBlock a0 a1 s).1 := by
  unfold Only.prog cmdPrgLoadBlock; dsimp only; (repeat' split) <;> simp

@[simp] theorem cmdPrgLoadClose_frame (s) : Only.sent_res_cast_tsk_scan_prog_host_red_pas_ports_dio_depot_log_upd s (cmdPrgLoadClose s).1 := by
  unfold Only.sent_res_cast_tsk_scan_prog_host_red_pas_ports_dio_depot_log_upd cmdPrgLoadClose; dsimp only; (repeat' split) <;> simp

@[simp] theorem cmdPrgInfo_frame (s) : Only.nothing s (cmdPrgInfo s).1 := by
  unfold Only.nothing cmdPrgInfo; simp

@[simp] theorem cmdPrgRead_frame (a0 a1 a2 a3 s) : Only.nothing s (cmdPrgRead a0 a1 a2 a3 s).1 := by
  unfold Only.nothing cmdPrgRead; dsimp only; (repeat' split) <;> simp

@[simp] theorem forwardEdit_frame (a0 a1 s) : Only.sent s (forwardEdit a0 a1 s) := by
  unfold Only.sent forwardEdit; simp

@[simp] theorem cmdEditOpen_frame (a0 s) : Only.sent_res_cast_prog_host_pas_ports_log_upd s (cmdEditOpen a0 s).1 := by
  unfold Only.sent_res_cast_prog_host_pas_ports_log_upd cmdEditOpen; dsimp only; (repeat' split) <;> simp

@[simp] theorem cmdEditBlock_frame (a0 a1 a2 s) : Only.sent_prog s (cmdEditBlock a0 a1 a2 s).1 := by
  unfold Only.sent_prog cmdEditBlock; dsimp only; (repeat' split) <;> simp

@[simp] theorem cmdEditClose_frame (a0 s) : Only.sent_prog_red s (cmdEditClose a0 s).1 := by
  unfold Only.sent_prog_red cmdEditClose; dsimp only; (repeat' split) <;> simp

@[simp] theorem askShadow_frame (s) : Only.sent_red_pas s (askShadow s) := by
  unfold Only.sent_red_pas askShadow; simp

@[simp] theorem armEdit_frame (a0 a1 a2 s) : Only.sent_prog_red s (armEdit a0 a1 a2 s).1 := by
  unfold Only.sent_prog_red armEdit; (try dsimp only); (repeat' split) <;> simp

@[simp] theorem notBuilt_frame (s) : Only.sent_red_pas s (notBuilt s).1 := by
  unfold Only.sent_red_pas notBuilt; (try dsimp only); (repeat' split) <;> simp

@[simp] theorem cmdEditApply_frame (a0 a1 s) : Only.sent_prog_red_pas s (cmdEditApply a0 a1 s).1 := by
  unfold Only.sent_prog_red_pas cmdEditApply; (repeat' split) <;> simp

@[simp] theorem cmdEditAbort_frame (a0 s) : Only.sent_res_cast_prog_red_ports_upd s (cmdEditAbort a0 s).1 := by
  unfold Only.sent_res_cast_prog_red_ports_upd cmdEditAbort; dsimp only; (repeat' split) <;> simp

@[simp] theorem cmdUndoEdit_frame (a0 a1 s) : Only.sent_prog_red_pas s (cmdUndoEdit a0 a1 s).1 := by
  unfold Only.sent_prog_red_pas cmdUndoEdit; (repeat' split) <;> simp

@[simp] theorem cmdEditStatus_frame (a0 s) : Only.free s (cmdEditStatus a0 s).1 := by
  unfold Only.free cmdEditStatus; simp

@[simp] theorem cmdRun_frame (a0 a1 s) : Only.tsk s (cmdRun a0 a1 s).1 := by
  unfold Only.tsk cmdRun; dsimp only; (repeat' split) <;> simp

@[simp] theorem cmdStop_frame (a0 s) : Only.tsk s (cmdStop a0 s).1 := by
  unfold Only.tsk cmdStop; (repeat' split) <;> simp

@[simp] theorem cmdStep_frame (a0 a1 s) : Only.tsk s (cmdStep a0 a1 s).1 := by
  unfold Only.tsk cmdStep; dsimp only; (repeat' split) <;> simp

@[simp] theorem cmdTaskEnable_frame (a0 a1 s) : Only.tsk s (cmdTaskEnable a0 a1 s).1 := by
  unfold Only.tsk cmdTaskEnable; (repeat' split) <;> simp

@[simp] theorem cmdTaskDisable_frame (a0 a1 s) : Only.tsk s (cmdTaskDisable a0 a1 s).1 := by
  unfold Only.tsk cmdTaskDisable; (repeat' split) <;> simp

@[simp] theorem cmdTaskTrigger_frame (a0 a1 s) : Only.tsk s (cmdTaskTrigger a0 a1 s).1 := by
  unfold Only.tsk cmdTaskTrigger; (repeat' split) <;> simp

@[simp] theorem cmdTaskRestart_frame (a0 a1 s) : Only.tsk s (cmdTaskRestart a0 a1 s).1 := by
  unfold Only.tsk cmdTaskRestart; (repeat' split) <;> simp

@[simp] theorem cmdTaskStatus_frame (a0 a1 s) : Only.nothing s (cmdTaskStatus a0 a1 s).1 := by
  unfold Only.nothing cmdTaskStatus; (repeat' split) <;> simp

@[simp] theorem cmdRunStatus_frame (a0 s) : Only.nothing s (cmdRunStatus a0 s).1 := by
  unfold Only.nothing cmdRunStatus; simp

@[simp] theorem cmdTimeGet_frame (a0 s) : Only.nothing s (cmdTimeGet a0 s).1 := by
  unfold Only.nothing cmdTimeGet; simp

@[simp] theorem cmdTimeSet_frame (a0 s) : Only.bkd s (cmdTimeSet a0 s).1 := by
  unfold Only.bkd cmdTimeSet; (repeat' split) <;> simp

@[simp] theorem cmdWakeSet_frame (a0 s) : Only.free_bkd s (cmdWakeSet a0 s).1 := by
  unfold Only.free_bkd cmdWakeSet; (repeat' split) <;> simp

@[simp] theorem cmdPwronRelease_frame (s) : Only.bkd s (cmdPwronRelease s).1 := by
  unfold Only.bkd cmdPwronRelease; simp

@[simp] theorem depotBusy_frame (s) : Only.depot s (depotBusy s).1 := by
  unfold Only.depot depotBusy; simp

@[simp] theorem cmdDepotRead_frame (a0 a1 s) : Only.free_sent_host_pas_depot_log s (cmdDepotRead a0 a1 s).1 := by
  unfold Only.free_sent_host_pas_depot_log cmdDepotRead; (repeat' split) <;> simp

@[simp] theorem cmdDepotWrite_frame (a0 a1 a2 a3 s) : Only.depot s (cmdDepotWrite a0 a1 a2 a3 s).1 := by
  unfold Only.depot cmdDepotWrite; dsimp only; (repeat' split) <;> simp

@[simp] theorem cmdDepotStatus_frame (s) : Only.depot s (cmdDepotStatus s).1 := by
  unfold Only.depot cmdDepotStatus; (repeat' split) <;> simp

@[simp] theorem cmdLogRead_frame (a0 a1 a2 s) : Only.nothing s (cmdLogRead a0 a1 a2 s).1 := by
  unfold Only.nothing cmdLogRead; (repeat' split) <;> simp

@[simp] theorem cmdLogFreeze_frame (a0 a1 s) : Only.log s (cmdLogFreeze a0 a1 s).1 := by
  unfold Only.log cmdLogFreeze; (repeat' split) <;> simp

@[simp] theorem cmdLogStatus_frame (s) : Only.nothing s (cmdLogStatus s).1 := by
  unfold Only.nothing cmdLogStatus; simp

@[simp] theorem cmdNoticeSubscribe_frame (a0 a1 s) : Only.host s (cmdNoticeSubscribe a0 a1 s).1 := by
  unfold Only.host cmdNoticeSubscribe; (repeat' split) <;> simp

@[simp] theorem answer_fst (r) : (answer r).1 = r.2.2 := rfl

@[simp] theorem cmdUpdBegin_frame (a0 a1 s) : Only.sent_res_cast_host_pas_ports_depot_log_upd s (cmdUpdBegin a0 a1 s).1 := by
  unfold Only.sent_res_cast_host_pas_ports_depot_log_upd cmdUpdBegin; simp

@[simp] theorem cmdUpdBlock_frame (a0 a1 a2 s) : Only.sent_res_cast_host_pas_ports_depot_log_upd s (cmdUpdBlock a0 a1 a2 s).1 := by
  unfold Only.sent_res_cast_host_pas_ports_depot_log_upd cmdUpdBlock; (repeat' split) <;> simp

@[simp] theorem cmdUpdVerify_frame (a0 s) : Only.upd s (cmdUpdVerify a0 s).1 := by
  unfold Only.upd cmdUpdVerify; dsimp only; (repeat' split) <;> simp

@[simp] theorem cmdUpdActivate_frame (a0 s) : Only.sent_sys_host_pas_depot_log_upd s (cmdUpdActivate a0 s).1 := by
  unfold Only.sent_sys_host_pas_depot_log_upd cmdUpdActivate; dsimp only; (repeat' split) <;> simp

@[simp] theorem cmdUpdConfirm_frame (s) : Only.sent_host_pas_depot_log_upd s (cmdUpdConfirm s).1 := by
  unfold Only.sent_host_pas_depot_log_upd cmdUpdConfirm; (repeat' split) <;> simp

@[simp] theorem cmdUpdReject_frame (s) : Only.sent_sys_host_pas_depot_log_upd s (cmdUpdReject s).1 := by
  unfold Only.sent_sys_host_pas_depot_log_upd cmdUpdReject; (repeat' split) <;> simp

@[simp] theorem cmdUpdStatus_frame (s) : Only.nothing s (cmdUpdStatus s).1 := by
  unfold Only.nothing cmdUpdStatus; simp

@[simp] theorem cmdUpdManifest_frame (a0 s) : Only.sent_sys_res_cast_host_pas_ports_depot_log_upd s (cmdUpdManifest a0 s).1 := by
  unfold Only.sent_sys_res_cast_host_pas_ports_depot_log_upd cmdUpdManifest; dsimp only; (repeat' split) <;> simp

@[simp] theorem cmdPairStatus_frame (s) : Only.nothing s (cmdPairStatus s).1 := by
  unfold Only.nothing cmdPairStatus; simp

@[simp] theorem cmdPairSwitchover_frame (a0 s) : Only.sent_red s (cmdPairSwitchover a0 s).1 := by
  unfold Only.sent_red cmdPairSwitchover; (repeat' split) <;> simp

@[simp] theorem cmdPairResync_frame (s) : Only.sent_res_cast_tsk_scan_prog_host_red_pas_ports_depot_log_upd s (cmdPairResync s).1 := by
  unfold Only.sent_res_cast_tsk_scan_prog_host_red_pas_ports_depot_log_upd cmdPairResync; (repeat' split) <;> simp

@[simp] theorem cmdFeatureConfig_frame (a0 a1 a2 s) : Only.cast_red_ports_upd s (cmdFeatureConfig a0 a1 a2 s).1 := by
  unfold Only.cast_red_ports_upd cmdFeatureConfig; dsimp only; (repeat' split) <;> simp

@[simp] theorem cmdFeatureEnable_frame (a0 a1 s) : Only.sent_res_cast_tsk_host_red_pas_ports_log_upd s (cmdFeatureEnable a0 a1 s).1 := by
  unfold Only.sent_res_cast_tsk_host_red_pas_ports_log_upd cmdFeatureEnable; dsimp only; (repeat' split) <;> simp

@[simp] theorem cmdFeatureDisable_frame (a0 a1 s) : Only.res_cast_tsk_red_ports_upd s (cmdFeatureDisable a0 a1 s).1 := by
  unfold Only.res_cast_tsk_red_ports_upd cmdFeatureDisable; (repeat' split) <;> simp

@[simp] theorem cmdFeatureStatus_frame (a0 a1 s) : Only.nothing s (cmdFeatureStatus a0 a1 s).1 := by
  unfold Only.nothing cmdFeatureStatus; (repeat' split) <;> simp

@[simp] theorem cmdResQuery_frame (s) : Only.nothing s (cmdResQuery s).1 := by
  unfold Only.nothing cmdResQuery; simp

@[simp] theorem cmdDioStatus_frame (s) : Only.nothing s (cmdDioStatus s).1 := by
  unfold Only.nothing cmdDioStatus; simp

@[simp] theorem cmdDioConfig_frame (a0 s) : Only.dio_upd s (cmdDioConfig a0 s).1 := by
  unfold Only.dio_upd cmdDioConfig; simp

@[simp] theorem cmdSafStatus_frame (s) : Only.nothing s (cmdSafStatus s).1 := by
  unfold Only.nothing cmdSafStatus; simp

@[simp] theorem cmdCastNow_frame (a0 s) : Only.free_sent_cast_pas s (cmdCastNow a0 s).1 := by
  unfold Only.free_sent_cast_pas cmdCastNow; (repeat' split) <;> simp

@[simp] theorem cmdCastArm_frame (s) : Only.cast s (cmdCastArm s).1 := by
  unfold Only.cast cmdCastArm; simp

@[simp] theorem cmdCastRead_frame (a0 a1 a2 a3 s) : Only.nothing s (cmdCastRead a0 a1 a2 a3 s).1 := by
  unfold Only.nothing cmdCastRead; dsimp only; (repeat' split) <;> simp

@[simp] theorem cmdRegRead_frame (a0 a1 a2 s) : Only.free_sys_res_cast_tsk_scan_prog_red_pas_ports_dio_bkd_depot_log_upd s (cmdRegRead a0 a1 a2 s).1 := by
  unfold Only.free_sys_res_cast_tsk_scan_prog_red_pas_ports_dio_bkd_depot_log_upd cmdRegRead; (repeat' split) <;> simp

@[simp] theorem cmdRegWrite_frame (a0 a1 a2 a3 s) : Only.free_sent_sys_res_cast_tsk_scan_host_red_pas_ports_dio_bkd_log_upd s (cmdRegWrite a0 a1 a2 a3 s).1 := by
  unfold Only.free_sent_sys_res_cast_tsk_scan_host_red_pas_ports_dio_bkd_log_upd cmdRegWrite; (repeat' split) <;> simp

@[simp] theorem cmdIdent_frame (s) : Only.nothing s (cmdIdent s).1 := by
  unfold Only.nothing cmdIdent; simp

@[simp] theorem cmdAttest_frame (a0 s) : Only.free s (cmdAttest a0 s).1 := by
  unfold Only.free cmdAttest; (repeat' split) <;> simp

@[simp] theorem cmdCertRead_frame (a0 a1 s) : Only.nothing s (cmdCertRead a0 a1 s).1 := by
  unfold Only.nothing cmdCertRead; (repeat' split) <;> simp

@[simp] theorem cmdKeyEnrol_frame (a0 a1 a2 a3 s) : Only.sent_host_pas_depot_log s (cmdKeyEnrol a0 a1 a2 a3 s).1 := by
  unfold Only.sent_host_pas_depot_log cmdKeyEnrol; dsimp only; (repeat' split) <;> simp

@[simp] theorem cmdKeyRemove_frame (a0 s) : Only.sent_host_pas_depot_log s (cmdKeyRemove a0 s).1 := by
  unfold Only.sent_host_pas_depot_log cmdKeyRemove; simp

@[simp] theorem cmdKeyList_frame (s) : Only.nothing s (cmdKeyList s).1 := by
  unfold Only.nothing cmdKeyList; simp

theorem runLow_frame (c i s a) (h : runLow c i s = some a) : Only.requests s a.1 := by
  unfold runLow at h
  split at h <;> simp at h <;> subst h <;> simp

@[simp] theorem runHigh_frame (a0 a1 a2 s) : Only.free_sent_sys_res_cast_tsk_scan_prog_host_red_pas_ports_dio_bkd_depot_log_upd s (runHigh a0 a1 a2 s).1 := by
  unfold Only.free_sent_sys_res_cast_tsk_scan_prog_host_red_pas_ports_dio_bkd_depot_log_upd runHigh; (repeat' split) <;> simp

@[simp] theorem runCmd_frame (c q i s) : Only.requests s (runCmd c q i s).1 := by
  unfold runCmd
  cases h : runLow c i s with
  | none => simp
  | some a => simpa using runLow_frame c i s a h

@[simp] theorem sendPieces_frame (a0 a1 a2 a3 s) : Only.sent_pas s (sendPieces a0 a1 a2 a3 s) := by
  unfold Only.sent_pas sendPieces; simp

@[simp] theorem sendForward_frame (a0 a1 a2 a3 a4 s) : Only.sent_pas s (sendForward a0 a1 a2 a3 a4 s) := by
  unfold Only.sent_pas sendForward; simp

@[simp] theorem forward_frame (a0 a1 a2 a3 a4 s) : Only.sent_pas s (forward a0 a1 a2 a3 a4 s).1 := by
  unfold Only.sent_pas forward; simp

@[simp] theorem forwardPartner_frame (a0 a1 a2 s) : Only.sent_pas s (forwardPartner a0 a1 a2 s).1 := by
  unfold Only.sent_pas forwardPartner no; (repeat' split) <;> simp

@[simp] theorem serveAt_frame (a b c d e s) : Only.requests s (serveAt a b c d e s).1 := by
  unfold serveAt no
  (repeat' split) <;> simp

@[simp] theorem addRecord_frame (a0 a1 a2 a3 s) : Only.pas s (addRecord a0 a1 a2 a3 s) := by
  unfold Only.pas addRecord; simp

@[simp] theorem broadcastChild_frame (a b c d e s) : Only.requests s (broadcastChild a b c d e s) := by
  unfold broadcastChild
  dsimp only
  split <;> simp

@[simp] theorem countCmd_frame (s) : Only.sys s (countCmd s) := by
  unfold Only.sys countCmd; simp

@[simp] theorem countAt_frame (a0 a1 a2 s) : Only.sys s (countAt a0 a1 a2 s) := by
  unfold Only.sys countAt; (repeat' split) <;> simp

@[simp] theorem broadcast_frame (a b c d s) : Only.requests s (broadcast a b c d s).1 := by
  unfold broadcast countCmd no ok later
  dsimp only
  split
  · simp
  · split <;> simp

@[simp] theorem serveFrom12_frame (a b c d s) : Only.requests s (serveFrom12 a b c d s).1 := by
  unfold serveFrom12 no
  dsimp only
  (repeat' split) <;> simp

@[simp] theorem serveFrom9_frame (a b c d s) : Only.requests s (serveFrom9 a b c d s).1 := by
  unfold serveFrom9 no
  dsimp only
  (repeat' split) <;> first | simp | exact serveFrom12_frame _ _ _ _ _

@[simp] theorem keepReply_frame (a0 a1 a2 s) : Only.pas s (keepReply a0 a1 a2 s) := by
  unfold Only.pas keepReply; simp

@[simp] theorem sendBack_frame (a0 a1 a2 s) : Only.sent_pas s (sendBack a0 a1 a2 s) := by
  unfold Only.sent_pas sendBack; simp

@[simp] theorem noteReset_frame (a0 a1 s) : Only.host s (noteReset a0 a1 s) := by
  unfold Only.host noteReset; simp

@[simp] theorem answerTo_frame (a0 a1 a2 a3 a4 s) : Only.sent_host_pas_depot_log s (answerTo a0 a1 a2 a3 a4 s) := by
  unfold Only.sent_host_pas_depot_log answerTo; (repeat' split) <;> simp

@[simp] theorem conclude_frame (a b c r) : Only.requests r.1 (conclude a b c r) := by
  unfold conclude
  dsimp only
  (repeat' split) <;> simp

theorem progress_frame (a b s r) (h : progress a b s = some r) : Only.requests s r.1 := by
  unfold progress at h
  dsimp only at h
  (repeat' split at h) <;> simp at h <;> subst h <;> simp

theorem pump_frame (x s t) (h : pump x s = some t) : Only.requests s t := by
  unfold pump at h
  (repeat' split at h) <;> simp at h <;> subst h <;> simp

theorem sessionMoves_frame (x s t) (h : sessionMoves x s = some t) : Only.requests s t := by
  unfold sessionMoves at h
  split at h
  · cases h
  · split at h
    · cases h
    · obtain ⟨r, h1, h2⟩ := Option.map_eq_some_iff.mp h
      have h1 := progress_frame _ _ _ _ h1
      split at h2 <;> subst h2 <;> simp_all

theorem remoteMoves_frame (k s t) (h : remoteMoves k s = some t) : Only.requests s t := by
  unfold remoteMoves at h
  split at h
  · cases h
  · split at h
    · cases h
    · obtain ⟨r, h1, h2⟩ := Option.map_eq_some_iff.mp h
      have h1 := progress_frame _ _ _ _ h1
      split at h2 <;> subst h2 <;> simp_all

theorem firmwareMoves_frame (s t) (h : firmwareMoves s = some t) : Only.requests s t := by
  unfold firmwareMoves at h
  (repeat' split at h) <;> simp at h <;> subst h <;> simp

theorem settleOne_frame (s t) (h : settleOne s = some t) : Only.requests s t := by
  unfold settleOne at h
  simp only [Option.orElse_eq_orElse, Option.orElse_eq_or, Option.or_eq_some_iff] at h
  rcases h with h | ⟨-, h | ⟨-, h | ⟨-, h⟩⟩⟩
  · obtain ⟨x, -, h⟩ := List.exists_of_findSome?_eq_some h
    exact sessionMoves_frame x s t h
  · obtain ⟨k, -, h⟩ := List.exists_of_findSome?_eq_some h
    exact remoteMoves_frame k s t h
  · exact firmwareMoves_frame s t h
  · obtain ⟨x, -, h⟩ := List.exists_of_findSome?_eq_some h
    exact pump_frame x s t h

@[simp] theorem settleN_frame (n s) : Only.requests s (settleN n s) := by
  induction n generalizing s with
  | zero => simp [settleN]
  | succ n ih =>
    unfold settleN
    split
    · simp
    · rename_i t h
      have := settleOne_frame _ _ h
      simp_all

@[simp] theorem dropMessage_frame (a0 a1 s) : Only.host s (dropMessage a0 a1 s) := by
  unfold Only.host dropMessage; simp

@[simp] theorem openSession_frame (a0 a1 a2 a3 s) : Only.sent_sys_host_depot_log s (openSession a0 a1 a2 a3 s) := by
  unfold Only.sent_sys_host_depot_log openSession; simp

@[simp] theorem refuseHello_frame (a0 a1 s) : Only.sent_host s (refuseHello a0 a1 s) := by
  unfold Only.sent_host refuseHello; (repeat' split) <;> simp

@[simp] theorem finishStoring_frame (s) : Only.depot_upd s (finishStoring s) := by
  unfold Only.depot_upd finishStoring; (try dsimp only); (repeat' split) <;> simp

@[simp] theorem saveNext_frame (s) : Only.depot_upd s (saveNext s) := by
  unfold Only.depot_upd saveNext; (try dsimp only); (repeat' split) <;> simp

@[simp] theorem pageDone_frame (s) : Only.free_sent_depot_upd s (pageDone s) := by
  unfold Only.free_sent_depot_upd pageDone; dsimp only; (repeat' split) <;> simp

@[simp] theorem coldState_pending (n s) : (coldState n s).pending = s.pending := rfl
@[simp] theorem heldReset_pending (n s) : (heldReset n s).pending = s.pending := rfl
@[simp] theorem doReset_pending (n s) : (doReset n s).pending = s.pending := by unfold doReset; split <;> simp
@[simp] theorem selfReset_pending (n s) : (selfReset n s).pending = s.pending := by unfold selfReset; simp
@[simp] theorem commandReset_pending (s) : (commandReset s).pending = s.pending := by unfold commandReset; simp
@[simp] theorem actAfterReply_pending (s) : (actAfterReply s).pending = s.pending := by
  unfold actAfterReply
  (repeat' split) <;> simp
@[simp] theorem settle_pending (s) : (settle s).pending = s.pending := by
  unfold settle
  simp

end Sys2Proof.Laws
end

