-- ==== Sys2Proof/Laws/Memory.lean ====
section
/-! SUPPORT. The addressed memories: a write of an image point changes that point and nothing else of the images, and every operation
on the images, the latches, the outputs and the depot keeps their canonical form. -/

namespace Sys2Proof.Laws

open Sys2Proof.Machine Sys2Proof.Safety

/-- What Memory.wf says. -/
theorem memory_wf_iff (s : State) : Memory.wf s = true ↔
    Tab.wf false s.tsk.bits = true ∧ Tab.wf 0 s.tsk.words = true ∧ Tab.wf false s.tsk.inBits = true ∧ Tab.wf 0 s.tsk.inWords = true ∧
    Tab.wf false s.tsk.outBits = true ∧ Tab.wf 0 s.tsk.outWords = true ∧ Tab.wf 0 s.depot.bytes = true := by
  simp only [Memory.wf, Bool.and_eq_true]
  exact ⟨fun ⟨⟨⟨⟨⟨⟨a, b⟩, c⟩, d⟩, e⟩, f⟩, g⟩ => ⟨a, b, c, d, e, f, g⟩, fun ⟨a, b, c, d, e, f, g⟩ => ⟨⟨⟨⟨⟨⟨a, b⟩, c⟩, d⟩, e⟩, f⟩, g⟩⟩

theorem reset_memory_wf : Memory.wf State.reset = true := by decide

/-- The parts of the state that the memories are in. -/
theorem memory_wf_congr {s t : State} (h : Memory.wf s = true) (h1 : t.tsk.bits = s.tsk.bits) (h2 : t.tsk.words = s.tsk.words)
    (h3 : t.tsk.inBits = s.tsk.inBits) (h4 : t.tsk.inWords = s.tsk.inWords) (h5 : t.tsk.outBits = s.tsk.outBits)
    (h6 : t.tsk.outWords = s.tsk.outWords) (h7 : t.depot.bytes = s.depot.bytes) : Memory.wf t = true := by
  unfold Memory.wf at *
  rw [h1, h2, h3, h4, h5, h6, h7]
  exact h

/-- A change of a grain marks the change maps of the tasks and the RE-RUN bits of the shadowing segments; it changes no memory. -/
theorem grainChanged_memory (o : Option Nat) (g : Nat) (s : State) :
    (grainChanged o g s).tsk = { s.tsk with tasks := (grainChanged o g s).tsk.tasks } ∧ (grainChanged o g s).depot = s.depot := by
  have hb : ∀ (b : Bool) (f : Bank → Bank) (t : State), (updBank b f t).tsk = t.tsk ∧ (updBank b f t).depot = t.depot := by
    intro b f t; cases b <;> exact ⟨rfl, rfl⟩
  unfold grainChanged setSegBit
  dsimp only
  split
  · exact ⟨rfl, rfl⟩
  · split
    · exact ⟨rfl, rfl⟩
    · rw [(hb _ _ _).1, (hb _ _ _).2]; exact ⟨rfl, rfl⟩

theorem markBlock_depot (a : Nat) (s : State) : (markBlock a s).depot = s.depot := by
  unfold markBlock; split <;> rfl

/-- A write of a point of the BIT image. -/
theorem setBit_tsk (o : Option Nat) (a : Nat) (v : Bool) (s : State) :
    (setBit o a v s).tsk =
      { s.tsk with tasks := (setBit o a v s).tsk.tasks,
                   bits := if Tab.get false s.tsk.bits a = v then s.tsk.bits else Tab.set false s.tsk.bits a v } := by
  unfold setBit
  split
  · rfl
  · rw [(grainChanged_memory _ _ _).1, markBlock_tsk]

/-- A write of a point of the WORD image or of data memory. -/
theorem setWord_tsk (o : Option Nat) (a : Nat) (v : W24) (s : State) :
    (setWord o a v s).tsk =
      { s.tsk with tasks := (setWord o a v s).tsk.tasks,
                   words := if Tab.get 0 s.tsk.words a = v then s.tsk.words else Tab.set 0 s.tsk.words a v } := by
  unfold setWord
  split
  · rfl
  · split
    · rw [(grainChanged_memory _ _ _).1, markBlock_tsk]
    · rw [markBlock_tsk]

theorem setBit_depot (o : Option Nat) (a : Nat) (v : Bool) (s : State) : (setBit o a v s).depot = s.depot := by
  unfold setBit
  split
  · rfl
  · rw [(grainChanged_memory _ _ _).2, markBlock_depot]

theorem setWord_depot (o : Option Nat) (a : Nat) (v : W24) (s : State) : (setWord o a v s).depot = s.depot := by
  unfold setWord
  split
  · rfl
  · split
    · rw [(grainChanged_memory _ _ _).2, markBlock_depot]
    · rw [markBlock_depot]

/-- Reading a point after a write of a point. -/
theorem setBit_get (o : Option Nat) (a : Nat) (v : Bool) (s : State) (h : Rising s.tsk.bits) (b : Nat) :
    Tab.get false (setBit o a v s).tsk.bits b = if b = a then v else Tab.get false s.tsk.bits b := by
  rw [setBit_tsk]
  dsimp only
  split
  · rename_i hv
    split
    · rename_i e; rw [e, hv]
    · rfl
  · exact tab_get_set _ _ h a b

/-- Reading a word after a write of a word. -/
theorem setWord_get (o : Option Nat) (a : Nat) (v : W24) (s : State) (h : Rising s.tsk.words) (b : Nat) :
    Tab.get 0 (setWord o a v s).tsk.words b = if b = a then v else Tab.get 0 s.tsk.words b := by
  rw [setWord_tsk]
  dsimp only
  split
  · rename_i hv
    split
    · rename_i e; rw [e, hv]
    · rfl
  · exact tab_get_set _ _ h a b

/-! ## Every operation keeps the canonical form -/

theorem foldl_wf {α : Type} {f : State → α → State} {l : List α} {s : State} (hs : Memory.wf s = true)
    (h : ∀ t a, Memory.wf t = true → Memory.wf (f t a) = true) : Memory.wf (l.foldl f s) = true :=
  foldl_inv (fun t => Memory.wf t = true) f h l s hs

theorem setBit_wf (o : Option Nat) (a : Nat) (v : Bool) (s : State) (h : Memory.wf s = true) : Memory.wf (setBit o a v s) = true := by
  have hs := (memory_wf_iff s).mp h
  rw [memory_wf_iff, setBit_tsk, setBit_depot]
  dsimp only
  exact ⟨by split <;> first | exact hs.1 | exact tab_wf_set hs.1 _ _, hs.2⟩

theorem setWord_wf (o : Option Nat) (a : Nat) (v : W24) (s : State) (h : Memory.wf s = true) : Memory.wf (setWord o a v s) = true := by
  have hs := (memory_wf_iff s).mp h
  rw [memory_wf_iff, setWord_tsk, setWord_depot]
  dsimp only
  exact ⟨hs.1, by split <;> first | exact hs.2.1 | exact tab_wf_set hs.2.1 _ _, hs.2.2⟩

theorem setWords_wf (a : Nat) (vs : List W24) (s : State) (h : Memory.wf s = true) : Memory.wf (setWords a vs s) = true := by
  unfold setWords
  refine foldl_wf h fun t v ht => ?_
  exact setWord_wf _ _ _ t ht

theorem applyWrite_wf (i : Bool) (w : HostWrite) (s : State) (h : Memory.wf s = true) : Memory.wf (applyWrite i w s) = true := by
  unfold applyWrite
  refine foldl_wf h fun t v ht => ?_
  dsimp only
  cases w.word
  · simp only [Bool.false_eq_true, if_false]
    split
    · exact ht
    · unfold hostBit; exact setBit_wf _ _ _ _ ht
  · simp only [if_true]
    split
    · exact ht
    · exact setWord_wf _ _ _ t ht

theorem applyDirective_wf (d : Directive) (s : State) (h : Memory.wf s = true) : Memory.wf (applyDirective d s) = true := by
  unfold applyDirective
  split
  · exact setWords_wf _ _ s h
  · refine foldl_wf h fun t v ht => ?_
    exact setBit_wf _ _ _ t ht
  · exact setWords_wf _ _ s h

theorem latchBits_wf (s : State) (h : Memory.wf s = true) : Memory.wf (latchBits s) = true := by
  unfold latchBits
  refine foldl_wf (foldl_wf h fun t e ht => ?_) fun t e ht => ?_
  · exact setBit_wf _ _ _ t ht
  · exact setBit_wf _ _ _ t ht

theorem latchWords_wf (s : State) (h : Memory.wf s = true) : Memory.wf (latchWords s) = true := by
  unfold latchWords
  refine foldl_wf (foldl_wf h fun t e ht => ?_) fun t e ht => ?_
  · exact setWord_wf _ _ _ t ht
  · exact setWord_wf _ _ _ t ht

theorem tab_wf_filter {α : Type} [DecidableEq α] {d : α} (p : Nat × α → Bool) {t : Tab α} (h : Tab.wf d t = true) :
    Tab.wf d (t.filter p) = true := by
  obtain ⟨h1, h2⟩ := (tab_wf_iff d t).mp h
  exact (tab_wf_iff d _).mpr ⟨List.Pairwise.filter _ h1, fun e he => h2 e (List.mem_filter.mp he).1⟩

theorem outputCopy_wf (s : State) (h : Memory.wf s = true) : Memory.wf (outputCopy s) = true := by
  have hs := (memory_wf_iff s).mp h
  exact (memory_wf_iff _).mpr ⟨hs.1, hs.2.1, hs.2.2.1, hs.2.2.2.1, tab_wf_filter _ hs.1, tab_wf_filter _ hs.2.1, hs.2.2.2.2.2.2⟩

theorem putRaw_wf (a : Nat) (vs : List Bool) (s : State) (h : Memory.wf s = true) : Memory.wf (putRaw a vs s) = true := by
  have hs := (memory_wf_iff s).mp h
  exact (memory_wf_iff _).mpr ⟨hs.1, hs.2.1, tab_wf_setRange hs.2.2.1 _ _, hs.2.2.2⟩

theorem putWords_wf (a : Nat) (vs : List W24) (s : State) (h : Memory.wf s = true) : Memory.wf (putWords a vs s) = true := by
  have hs := (memory_wf_iff s).mp h
  exact (memory_wf_iff _).mpr ⟨hs.1, hs.2.1, hs.2.2.1, tab_wf_setRange hs.2.2.2.1 _ _, hs.2.2.2.2⟩

theorem putBit_wf (a : Nat) (v : Bool) (s : State) (h : Memory.wf s = true) : Memory.wf (putBit a v s) = true := by
  have hs := (memory_wf_iff s).mp h
  unfold putBit
  split
  · exact h
  · refine foldl_wf ((memory_wf_iff _).mpr ⟨hs.1, hs.2.1, tab_wf_set hs.2.2.1 a v, hs.2.2.2⟩) fun t e ht => ?_
    refine memory_wf_congr ht ?_ ?_ ?_ ?_ ?_ ?_ ?_ <;> (unfold raiseTrigger; split <;> rfl)

theorem putBits_wf (a : Nat) (vs : List Bool) (s : State) (h : Memory.wf s = true) : Memory.wf (putBits a vs s) = true := by
  unfold putBits
  refine foldl_wf h fun t e ht => ?_
  exact putBit_wf _ _ t ht

theorem emit_wf (x : Sent) (s : State) (h : Memory.wf s = true) : Memory.wf (emit x s) = true :=
  memory_wf_congr h rfl rfl rfl rfl rfl rfl rfl

theorem sendState_wf (d : ResyncData) (s : State) (h : Memory.wf s = true) : Memory.wf (sendState d s) = true := by
  refine memory_wf_congr h ?_ ?_ ?_ ?_ ?_ ?_ ?_ <;> simp

/-- The contents of a finished page write. -/
theorem storeContents_wf (w : DepWrite) (s : State) (h : Memory.wf s = true) : Memory.wf (storeContents w s) = true := by
  have hs := (memory_wf_iff s).mp h
  unfold storeContents
  dsimp only
  split
  · exact h
  · split
    · exact h
    · have hw : Memory.wf { s with depot.bytes := Tab.setRange 0 s.depot.bytes (256 * w.page) (padTo 256 w.data) } = true :=
        (memory_wf_iff _).mpr ⟨hs.1, hs.2.1, hs.2.2.1, hs.2.2.2.1, hs.2.2.2.2.1, hs.2.2.2.2.2.1, tab_wf_setRange hs.2.2.2.2.2.2 _ _⟩
      split
      · exact sendState_wf _ _ hw
      · exact hw

theorem putBytes_wf (w : DepWrite) (b : List Byte) (s : State) (h : Memory.wf s = true) : Memory.wf (putBytes w b s) = true := by
  have hs := (memory_wf_iff s).mp h
  unfold putBytes
  split
  · exact h
  · split
    · exact storeContents_wf _ _ (memory_wf_congr h rfl rfl rfl rfl rfl rfl rfl)
    · split
      · exact memory_wf_congr h rfl rfl rfl rfl rfl rfl rfl
      · exact (memory_wf_iff _).mpr ⟨hs.1, hs.2.1, hs.2.2.1, hs.2.2.2.1, hs.2.2.2.2.1, hs.2.2.2.2.2.1, tab_wf_setRange hs.2.2.2.2.2.2 _ _⟩

/-- A worn page gets free contents. -/
theorem wornPage_wf (p : Nat) (s : State) (h : Memory.wf s = true) : Memory.wf (wornPage p s) = true := by
  have hs := (memory_wf_iff s).mp h
  unfold wornPage
  dsimp only
  split
  · exact h
  · split
    · exact memory_wf_congr h rfl rfl rfl rfl rfl rfl rfl
    · exact (memory_wf_iff _).mpr ⟨hs.1, hs.2.1, hs.2.2.1, hs.2.2.2.1, hs.2.2.2.2.1, hs.2.2.2.2.2.1, tab_wf_setRange hs.2.2.2.2.2.2 _ _⟩

/-- The end of a page write, of a host page or a program page. -/
theorem storePage_wf (w : DepWrite) (s : State) (h : Memory.wf s = true) : Memory.wf (storePage w s) = true := by
  unfold storePage
  dsimp only
  split
  · exact wornPage_wf _ _ (memory_wf_congr h rfl rfl rfl rfl rfl rfl rfl)
  · split
    · exact memory_wf_congr h rfl rfl rfl rfl rfl rfl rfl
    · exact storeContents_wf _ _ (memory_wf_congr h rfl rfl rfl rfl rfl rfl rfl)

end Sys2Proof.Laws
end

