-- ==== Sys2Proof/Tests/Slice0.lean ====
section
/-! SUPPORT. The model's own tests: an ill-formed command for each check of `wellFormed`, single steps on small states against values
of the manual, and for each statement states and operands that meet the hypotheses of its clauses. -/

namespace Sys2Proof.Tests

set_option Elab.async false

open Sys2Proof Sys2Proof.Machine Sys2Proof.Safety

/-- The module in its factory state, alone, at the end of start-up. -/
def booted : State :=
  { State.reset with
    sys.boot := .ready, dio.up := true, dio.supplyOk := true, dio.downSeq := 4, dio.lastUp := some 2, dio.safStatus := 0x40000202, dio.safSwitch := 0x0303,
    iod.lastDown := some 4, iod.upSeq := 2, iod.testing := false, iod.selfDone := true, iod.ch1.demand := true, iod.ch2.demand := true,
    iod.sdi1 := { demand := true, offA := 11, offB := 11, bothOff := 11 }, iod.sdi2 := { demand := true, offA := 11, offB := 11, bothOff := 11 },
    res.claims := State.reset.res.claims ++ [(35, { code := 0x20 }), (60, { code := 0x20 }), (61, { code := 0x20 })],
    res.enabled := State.reset.res.enabled ++ [(0x20, 0)] }

/-! ## WellFormed -/

/-- A request on USB at version 3.2. -/
def rq : Req :=
  { ep := .usb, major := 3, minor := 2, seq := 1, hops := [], ext := false, bcast := false, auth := false }

theorem test_wf_core : wellFormed (.nop 9) = false ∧ wellFormed (.nop 8) = true ∧ wellFormed (.coreFault 9 .ecc) = false := by decide
theorem test_wf_hello : wellFormed (.hello rq 2 512 []) = false := by decide
theorem test_wf_challenge : wellFormed (.authChallenge rq 0 [] []) = false := by decide
theorem test_wf_proof : wellFormed (.authProve rq []) = false := by decide
theorem test_wf_block : wellFormed (.prgLoadBlock rq 0 []) = false ∧ wellFormed (.editBlock rq 0 []) = false ∧
    wellFormed (.updBlock rq 0 0 []) = false := by decide
theorem test_wf_time : wellFormed (.timeSet rq (.other 1)) = false ∧ wellFormed (.timeSet rq (.other 2)) = true := by decide
theorem test_wf_depot : wellFormed (.depotWrite rq 384 []) = false := by decide
theorem test_wf_settings : wellFormed (.featureConfig rq 0x11 0 (.plGroups [])) = false ∧
    wellFormed (.featureConfig rq 0x11 0 (.plKind 2)) = false := by decide
theorem test_wf_dio : wellFormed (.dioConfig rq []) = false := by decide
theorem test_wf_regs : wellFormed (.regWrite rq 0 1 []) = false := by decide
theorem test_wf_attest : wellFormed (.attest rq []) = false := by decide
theorem test_wf_key : wellFormed (.keyEnrol rq 0 1 [] []) = false := by decide
theorem test_wf_enable : wellFormed (.enableBitWrite 0x11 0) = false ∧ wellFormed (.enableBitClear 0x20 0) = false := by decide
theorem test_wf_edit : wellFormed (.edit default 0x0301 []) = false := by decide

/-! ## SWM instructions

Each word is written out bit by bit from R184 to R188: the opcode, the modes of A, B and C, and E; then the extension parcels. -/

/-- Core 0 runs task 0 on the program ps, with scratch registers rs. -/
def swm (rs ps : List W24) (direct : Bool) : State :=
  let r : Run := { regs := Tab.setRange 0 [] 0 rs, direct := direct }
  let s := booted
  { s with scan.cores := [(0, { run := some r })], prog.bank0.parcels := Tab.setRange 0 [] 0 ps }

/-- The run on core 0 after a command. -/
def runOf (o : Host.Outcome State Fault Refusal) : Run :=
  match o with
  | .next t => ((Machine.core t 0).run).getD {}
  | _ => {}

/-- Scratch register n of it. -/
def regOf (o : Host.Outcome State Fault Refusal) (n : Nat) : W24 := Tab.get 0 (runOf o).regs n

/-- ADD S2, S0, S1 on 0x7FFFFF and 1 wraps and raises OVF (R209, R210); the PC moves past the one parcel. -/
theorem test_add :
    let o := exec (.add 0) (swm [0x7FFFFF, 1] [0b00100001_10010_10000_10001_0] false)
    regOf o 2 = 0x800000 ∧ (runOf o).tsw = 0x10 ∧ (runOf o).pc = 1 := by decide +kernel
/-- A row of another opcode leaves that instruction alone. -/
theorem test_other_row :
    let s := swm [5, 1] [0b00100001_10010_10000_10001_0] false
    (match exec (.sub 0) s with | .next t => decide (t = s) | _ => false) = true := by decide +kernel
/-- ORB S2, S0, S1: any non-zero register is a true BIT, and a true result writes 1 (R191, R207). -/
theorem test_orb : regOf (exec (.orb 0) (swm [0, 6] [0b00001101_10010_10000_10001_0] false)) 2 = 1 := by decide +kernel
/-- RISE S2, S0, S1: A is 1 on the rising B, and C takes B (R208). -/
theorem test_rise :
    let o := exec (.rise 0) (swm [1, 0] [0b00010100_10010_10000_10001_0] false)
    regOf o 2 = 1 ∧ regOf o 1 = 1 := by decide +kernel
/-- DIV by 0 gives the greatest number for a positive B and raises DIVZ (R210). -/
theorem test_div_zero :
    let o := exec (.div 0) (swm [7, 0] [0b00101010_10010_10000_10001_0] false)
    regOf o 2 = 0x7FFFFF ∧ (runOf o).tsw = 8 := by decide +kernel
/-- CMPLT is signed, CMPLTU is not (R211). -/
theorem test_compare :
    regOf (exec (.cmplt 0) (swm [0xFFFFFF, 1] [0b01000010_10010_10000_10001_0] false)) 2 = 1 ∧
    regOf (exec (.cmpltu 0) (swm [0xFFFFFF, 1] [0b01000110_10010_10000_10001_0] false)) 2 = 0 := by decide +kernel
/-- ADDL S4, S0, S2 carries from the low word of the pairs into the high one (R178, R212). -/
theorem test_addl :
    let o := exec (.addl 0) (swm [0, 0xFFFFFF, 0, 1] [0b01010001_10100_10000_10010_0] false)
    regOf o 4 = 1 ∧ regOf o 5 = 0 := by decide +kernel
/-- ADDF S4, S0, S2: 1.0 + 1.0 = 2.0 (R172, R214). -/
theorem test_addf :
    let o := exec (.addf 0) (swm [0x3FF000, 0, 0x3FF000, 0] [0b01100001_10100_10000_10010_0] false)
    regOf o 4 = 0x400000 ∧ regOf o 5 = 0 ∧ (runOf o).tsw = 0 := by decide +kernel
/-- CVTFW rounds 2.5 to even, TRNFW cuts −2.5 to −2 (R216). -/
theorem test_convert :
    regOf (exec (.cvtfw 0) (swm [0x400400, 0] [0b10100011_10100_10000_00000_0] false)) 4 = 2 ∧
    regOf (exec (.trnfw 0) (swm [0xC00400, 0] [0b10100101_10100_10000_00000_0] false)) 4 = 0xFFFFFE := by decide +kernel
/-- MOV with an immediate of one parcel and an absolute address: the store lies in the journal, the PC moves past three parcels. -/
theorem test_mov_memory :
    let o := exec (.mov 0) (swm [] [0b00100000_00011_00001_00000_0, 0x000123, 0xABCDEF] false)
    (runOf o).journal = [.word 0x123 0xABCDEF] ∧ (runOf o).pc = 3 := by decide +kernel
/-- CALL to an immediate address keeps the address after it; RET takes it back, and RET with nothing to take ends the segment
(R228). -/
theorem test_call_ret :
    let o := exec (.call 0) (swm [] [0b10000011_00001_00000_00000_0, 0x000040] false)
    (runOf o).pc = 0x40 ∧ (runOf o).stack = [2] ∧ (runOf (exec (.ret 0) (swm [] [0b10000100_00000_00000_00000_0] false))).ended = true := by
  decide +kernel
/-- TON starts on IN = 1: RUN is set, Q is not (R230, R231). -/
theorem test_ton :
    (runOf (exec (.ton 0) (swm [1, 0, 5] [0b10010000_00011_10000_10001_0, 0x100] false))).journal.head? = some (.word 0x102 0) := by
  decide +kernel
/-- MOVBLK of two words onto itself, one word on (R219). -/
theorem test_movblk :
    let s := swm [2] [0b01110000_00011_00011_10000_0, 0x101, 0x100] false
    let s := { s with tsk.tasks := [(0, { snapWords := [(0x100, 7), (0x101, 8)] })] }
    (runOf (exec (.movblk 0) s)).journal = [.word 0x102 8, .word 0x101 7] := by decide +kernel
/-- TRAP 5 without a handler stops the run with code 0x105 (R227, R236). -/
theorem test_trap :
    (runOf (exec (.trap 0) (swm [] [0b00000101_00001_00000_00000_0, 5] false))).trap = some (0x105, 0) := by decide +kernel
/-- REPI with a count of 3 sets REPC and stands before the repeated instruction (R202). -/
theorem test_repi :
    let o := exec (.repi 0) (swm [3, 9] [0b00000001_10000_00000_00000_0, 0b00100000_10010_10001_00000_0] false)
    (runOf o).repc = 3 ∧ (runOf o).pc = 1 ∧ (runOf o).rep.isSome = true := by decide +kernel
/-- A serial instruction stalls a run that is not in direct mode (R137). -/
theorem test_cast_stalls :
    (runOf (exec (.cast 0) (swm [] [0b00000100_00000_00000_00000_0] false))).stalled = true := by decide +kernel

/-! ### States at which the instructions stand -/

/-- Core 0 stands at an instruction of opcode op without operands. -/
def atOp (op : Nat) (direct : Bool) : State := swm [] [BitVec.ofNat 24 (op * 65536)] direct

/-- The instruction at its PC. -/
def insOf (op : Nat) (direct : Bool) : Ins := decodeIns (rowEnv (atOp op direct) 0 { direct := direct }).fetch 0

theorem at_op : ∀ op < 256, ∀ d : Bool, (Machine.core (atOp op d) 0).run = some { direct := d } ∧ (insOf op d).op = op := by
  decide +kernel

/-- BitLogicResults, WordResults, WordCompares, LongResults, RealRows, ConversionRows, BlockRows, FlowRows, TimerRows, SerialRows,
SpeculationTouchesOneCore: an instruction of every opcode stands at a core, in direct mode and outside it. -/
theorem witness_Executes (op : Nat) (h : op < 256) (d : Bool) :
    AtIns (atOp op d) 0 { direct := d } (insOf op d) ∧ (insOf op d).op = op :=
  ⟨⟨(at_op op h d).1, by cases d <;> rfl, rfl⟩, (at_op op h d).2⟩
theorem witness_speculativeRows : ∀ e ∈ speculativeRows, e.2 < 256 := by decide

/-- Core 0 waits at the head of the supervisor's queue with a reserved opcode. -/
def passed : State :=
  let s := atOp 0x1F false
  { s with scan.cores := [(0, { run := some { supWait := true } })], scan.supQueue := [0] }

/-- PassedOpcodes. What the SUP firmware emulates is a free value, so either value of it has its clause; both kinds of firmware meet
the other hypotheses. -/
theorem witness_PassedOpcodes :
    passedToSup (rowEnv (atOp 0x1F false) 0 {}) (insOf 0x1F false).op = true ∧
    (let s := { atOp 0xE3 false with prog.bank0.decs := [(3, 0x80000000)] }
     ((rowEnv s 0 {}).dec (0xE3 - 0xE0)).getLsbD 31 = true ∧ (Machine.core s 0).run = some {} ∧
     (decodeIns (rowEnv s 0 {}).fetch 0).op = 0xE3) ∧
    passed.scan.supQueue = [0] ∧ (Machine.core passed 0).run = some { supWait := true } ∧
    serialOp (decodeIns (rowEnv { passed with scan.supQueue := [] } 0 {}).fetch 0).op = false ∧
    passed.prog.emulSeen.contains 0x1F = false ∧ booted.scan.supQueue = [] := by decide +kernel

/-- An environment for statements about operands. -/
def env0 : Env := rowEnv (atOp 0 false) 0 {}
/-- A run's instruction in progress. -/
def x0 : X := startIns env0 (insOf 0 false) {}

/-- TrapsAndRepeats: a trap with a handler, without one, with a full call stack and for CALL_DEPTH; an end of an iteration. -/
theorem witness_TrapsAndRepeats :
    trapOf 0 { x0 with trap := some 0x105 } = some 0x105 ∧ ({ env0 with handler := some 7 } : Env).handler = some 7 ∧
    (0x105 : BitVec 16) ≠ 0x012 ∧ x0.run.stack.length < 32 ∧ env0.handler = none ∧
    trapOf 0 { x0 with trap := some 0x012 } = some 0x012 ∧
    32 ≤ ({ x0 with run.stack := List.replicate 32 0 } : X).run.stack.length ∧
    trapOf 0x400 { x0 with raised := 16 } = some 0x001 ∧ trapOf 0 { x0 with raised := 31 } = none ∧ trapOf 0 x0 = none ∧
    Rising x0.run.regs := by unfold Rising; decide +kernel

/-- WritesLand: a speculative write, one entry too many, a write in direct mode, a write that the quota has no room for. -/
theorem witness_WritesLand :
    x0.outs = [] ∧ ({} : Run).direct = false ∧ x0.run.journal.length ≤ 4096 ∧
    4096 < ({ x0 with run.journal := List.replicate 4097 (.bit 0 true) } : X).run.journal.length ∧
    ({ direct := true } : Run).direct = true ∧ slotsFit (atOp 0 true) 0 x0.run.journal = true ∧
    slotsFit { atOp 0 true with tsk.tasks := [(0, { slots := List.range 4097 })] } 0 [.word 0x1FFFFF 0] = false := by decide +kernel

theorem witness_SerialRows_effects :
    ({ direct := true } : Run).direct = true ∧ slotsFit booted 0 [] = true ∧ ([] : List Out).any (mustWait booted 0) = false ∧
    (let s : State := { booted with depot.queue := (List.range 8).map fun k => { page := 512 + k, data := [], srcs := [.program 0] } }
     [Out.depWrite 600 []].any (mustWait s 0) = true) ∧ booted.cast.held = false ∧
    ({ booted with cast.held := true } : State).cast.held = true ∧
    (pageRead booted 600).2 = 0 ∧ Tab.get 0 booted.depot.wear 600 ≤ 1000000 ∧ booted.depot.pfail = false ∧ replaces booted 600 = false ∧
    ({ booted with depot.pfail := true } : State).depot.pfail = true ∧ takesMessages booted 0 = false ∧ messageFits 0 [1, 3] = true ∧
    takesMessages { booted with res.enabled := [(0x12, 0)], ports.ser := [(0, { rs485 := some { (default : Rs485Cfg) with master := true } })] } 0 = true := by decide +kernel

/-- ReadMapAndMisses: a pure run with no miss yet, a point that its journal does not hold. -/
theorem witness_ReadMapAndMisses :
    ({ env0 with pureRun := true } : Env).pureRun = true ∧ x0.run.miss = none ∧ jWord 5 x0.run.journal = none ∧
    jBit 5 x0.run.journal = none := by decide +kernel

/-- AluFrame: a word, a bit and a register that a store to word 5 leaves alone. -/
theorem witness_AluFrame :
    storesWord .word (.word 5 6) 6 = false ∧ storesBit (.word 5 6) 5 = false ∧ storesReg .word (.word 5 6) 3 = false ∧
    stepsReg ⟨0x03, 5, 0⟩ 3 = false := by decide

/-- RealRounded and RealSpecialResults: values of each class. -/
theorem witness_Real :
    realVal 0x3FF000000000 = .fin false 68719476736 (-36) ∧ realVal 0x7FF800000000 = .nan ∧ realVal 0x7FF000000000 = .inf false ∧
    realVal 0 = .fin false 0 0 ∧ realVal 0x800000000000 = .fin true 0 0 ∧ realVal 0xBFF000000000 = .fin true 68719476736 (-36) ∧ (1 : Nat) ≠ 0 := by decide +kernel
/-- ConversionRows: a NaN, and an integer of a non-negative exponent. -/
theorem witness_ConversionRows :
    realVal 0x7FF800000000 = .nan ∧ realVal 0x424000000000 = .fin false 68719476736 1 ∧ (0 : Int) ≤ 1 ∧
    realVal 0x3FF800000000 = .fin false 103079215104 (-36) ∧ (-36 : Int) < 0 ∧ (5 : L48).toInt.natAbs < 2 ^ 37 := by decide +kernel
/-- 1 / 3 and the root of 2 round up or down once, and 2.5 and 3.5 to the even neighbour (R173, R216). -/
theorem test_real_rounding :
    (realDiv 0x3FF000000000 0x400800000000, realSqrt 0x400000000000) = ((0x3FD555555555, 0), (0x3FF6A09E667F, 0)) ∧
    (realToInt false 24 0x400400000000, realToInt false 24 0x400C00000000) = ((2, 0), (4, 0)) := by decide +kernel
/-- BlockCopyAndSearch: counts of blocks and tables. -/
theorem witness_BlockCopyAndSearch : (256 : Nat) ≤ 256 ∧ (0 : Nat) = 0 ∧ (4096 : Nat) ≤ 4096 ∧ 0 < (256 : Nat) := by decide

/-! ## Requests -/

/-- The context of a request at this module. -/
def ctxOf (r : Req) (op : BitVec 16) (s : State) : Ctx :=
  match placeRequest r op.toNat s with
  | .unit kind idx u => { whom := .session r.ep, kind := kind, idx := idx, unit := u, basin := inBasin s && decide (r.ep ≠ .usb) }
  | _ => { whom := .session r.ep, kind := 1, idx := 0, unit := none, basin := inBasin s && decide (r.ep ≠ .usb) }

/-- Quiet, as a test. -/
def quietB (s : State) (x : Session) (r : Req) (op : BitVec 16) (i : Instr) (c : Ctx) : Bool :=
  portAnswers s r.ep && decide (s.sys.boot = .ready) && decide (sessionOf s r.ep = some x) &&
  (!guardedSession x || (r.auth && inWindow x r.seq)) && !seqPasses x r.seq && decide (x.cache.find? (·.seq = r.seq) = none) && decide (x.cache.length < 64) &&
  decide (x.mgmt = false ∧ r.major = x.major ∧ r.minor = x.minor) &&
  (if x.proved then permitted x.role.toNat op.toNat else decide (x.ep = .usb) || freeSet op.toNat) && !r.bcast &&
  decide (placeRequest r op.toNat s = .unit c.kind c.idx c.unit) &&
  decide (c.whom = .session r.ep ∧ c.basin = (inBasin s && decide (r.ep ≠ .usb))) && known r op.toNat c.kind &&
  decide (sendsOn c.kind r i s = none) && s.host.sessions.all (fun y => y.waiting.isNone && y.queue.isEmpty) &&
  decide (s.host.remote = [] ∧ s.depot.waiters = [])

theorem quiet_of_test {s x r op i c} (h : quietB s x r op i c = true) : Quiet s x r op i c := by
  simp only [quietB, Bool.and_eq_true, decide_eq_true_eq] at h
  obtain ⟨⟨⟨⟨⟨⟨⟨⟨⟨⟨⟨⟨⟨⟨⟨h1, h2⟩, h3⟩, h4⟩, hq⟩, h5⟩, h6⟩, h7⟩, h8⟩, h9⟩, h10⟩, h11⟩, h12⟩, h13⟩, h14⟩, h15⟩ := h
  refine ⟨h1, h2, h3, ?_, by simpa using hq, h5, h6, h7, ⟨?_, ?_⟩, by simpa using h9, h10, h11, h12, h13, h14, h15⟩
  · intro hg; simpa [hg] using h4
  · intro hp; simpa [hp] using h8
  · intro hp; simpa [hp] using h8

/-- Command i is a request whose session is quiet in s, and P holds of the state in which it acts. -/
def met (i : Instr) (s : State) (P : Ctx → State → Bool) : Bool :=
  match requestOf i with
  | none => false
  | some (r, op) =>
    match sessionOf s r.ep with
    | none => false
    | some x => quietB s x r op i (ctxOf r op s) && P (ctxOf r op s) (taken r op i x s)

/-- What `met` says: every hypothesis of `Serves i P f` together. -/
theorem met_iff (i : Instr) (s : State) (P : Ctx → State → Bool) (h : met i s P = true) :
    ∃ x r op c, requestOf i = some (r, op) ∧ Quiet s x r op i c ∧ P c (taken r op i x s) = true := by
  unfold met at h
  split at h
  · simp at h
  · rename_i r op hr
    split at h
    · simp at h
    · rename_i x hx
      rw [Bool.and_eq_true] at h
      exact ⟨x, r, op, ctxOf r op s, hr, quiet_of_test h.1, h.2⟩

/-- The open session on USB. -/
def x0s : Session := { ep := .usb, idx := 4, major := 3, minor := 2, maxPkt := 8192 }
/-- A module with one quiet session on USB. -/
def q : State :=
  let s := booted
  { s with sys.usbVbus := true, host.sessions := [x0s] }
/-- The hypotheses of a clause without one of its own. -/
def any (_ : Ctx) (_ : State) : Bool := true

/-- RequestServed, AnswerGoesOut. -/
theorem witness_RequestServed :
    met (.runStatus rq) q any = true ∧ sessionOf q .usb = some x0s ∧ rq.ep = .usb ∧ x0s.ending = false ∧
    (.usb : Endpoint) ≠ .spi ∧ (let s := { q with host.sessions := [{ x0s with ep := .spi }] }
      (sessionOf s .spi).isSome = true ∧ ({ rq with ep := .spi } : Req).ep = .spi) := by decide +kernel
/-- HelloOpensSession: no session yet, a session whose cache does not hold the SEQ. -/
theorem witness_HelloOpensSession :
    portAnswers { q with host.sessions := [] } .usb = true ∧ rq.hops = [] ∧ rq.ext = false ∧ rq.bcast = false ∧
    (1 : Byte).toNat = [((3, 0, 2) : VerRange)].length ∧ 512 ≤ (512 : BitVec 16).toNat ∧
    negotiate protocolRanges [(3, 0, 2)] = some (3, 2) ∧ freeIndex .usb { q with host.sessions := [] } = some 4 ∧
    sessionOf { q with host.sessions := [] } .usb = none ∧ freeIndex (.eth 1) q = some 0 ∧ x0s.cache.find? (·.seq = 1) = none := by
  decide +kernel

/-- AnswerGoesOut of an ending session; HelloOpensSession by the module's own path in a pair, without a common version, refused for its
list, its limit and a fifth session. -/
theorem witness_sessions :
    (sessionOf { q with host.sessions := [{ x0s with ending := true }] } .usb).map (·.ending) = some true ∧
    portAnswers { q with red.pairEn := true, host.sessions := [] } .usb = true ∧
    placeRequest { rq with hops := [0] } 1 { q with red.pairEn := true, host.sessions := [] } = .unit 1 0 none ∧
    negotiate protocolRanges [(9, 0, 0)] = none ∧
    freeIndex (.eth 9) { q with host.sessions := [0, 1, 2, 3].map fun k => { x0s with ep := .eth k, idx := k.setWidth 8 } } = none ∧
    (1 : Byte).toNat ≠ ([] : List VerRange).length ∧ (511 : BitVec 16).toNat < 512 := by decide +kernel

/-- A module with an enrolled key in slot 0: index 7, role 2, both public keys zeros, and the CRC of the slot. -/
def keyed : State :=
  { q with depot.bytes := [(0x10001, 7), (0x10002, 2), (0x10003, 1), (0x100FC, 0xAE), (0x100FD, 0x7F), (0x100FE, 0x84), (0x100FF, 0x51)] }

/-- The CRC-32C register moves over 128 zero bytes. -/
def crcZeros128 (r : Nat) : Nat := (List.replicate 128 (0 : Byte)).foldl (crcByte ⟨32, 0x1EDC6F41, 0xFFFFFFFF, true, true, 0xFFFFFFFF⟩) r
theorem crc_zeros_split (f : Nat → Byte → Nat) (r n : Nat) :
    (List.replicate (128 + n) (0 : Byte)).foldl f r = (List.replicate n (0 : Byte)).foldl f ((List.replicate 128 (0 : Byte)).foldl f r) := by
  rw [← List.replicate_append_replicate, List.foldl_append]
theorem crc_zeros_0 : crcZeros128 1036411496 = 701790501 := by decide +kernel
theorem crc_zeros_1 : crcZeros128 701790501 = 3840596883 := by decide +kernel
theorem crc_zeros_2 : crcZeros128 3840596883 = 2020701125 := by decide +kernel
theorem crc_zeros_3 : crcZeros128 2020701125 = 1619602799 := by decide +kernel
theorem crc_zeros_4 : crcZeros128 1619602799 = 3712545283 := by decide +kernel
theorem crc_zeros_5 : crcZeros128 3712545283 = 122787703 := by decide +kernel
theorem crc_zeros_6 : crcZeros128 122787703 = 248929534 := by decide +kernel
theorem crc_zeros_7 : crcZeros128 248929534 = 183848737 := by decide +kernel
theorem crc_zeros_8 : crcZeros128 183848737 = 4209319448 := by decide +kernel
theorem crc_zeros_9 : crcZeros128 4209319448 = 1143831444 := by decide +kernel
theorem crc_zeros_10 : crcZeros128 1143831444 = 197531258 := by decide +kernel
theorem crc_zeros_11 : crcZeros128 197531258 = 1577121535 := by decide +kernel
theorem crc_zeros_12 : crcZeros128 1577121535 = 1190951001 := by decide +kernel
theorem crc_zeros_13 : crcZeros128 1190951001 = 191792806 := by decide +kernel
theorem crc_zeros_14 : crcZeros128 191792806 = 1224749929 := by decide +kernel

/-- The check of the slot's bytes, in chunks of 128. -/
theorem crc_slot : crc32c ([0, 7, 2, 1] ++ List.replicate 2044 0) = 2927592529 := by
  have z := fun r n => crc_zeros_split (crcByte ⟨32, 0x1EDC6F41, 0xFFFFFFFF, true, true, 0xFFFFFFFF⟩) r n
  have h0 : ([0, 7, 2, 1] : List Byte).foldl (crcByte ⟨32, 0x1EDC6F41, 0xFFFFFFFF, true, true, 0xFFFFFFFF⟩) 0xFFFFFFFF = 1036411496 := by
    decide +kernel
  unfold crc32c crcOf
  rw [List.foldl_append, h0]
  rw [show 2044 = 128 + 1916 from rfl, z, show List.foldl _ 1036411496 _ = 701790501 from crc_zeros_0]
  rw [show 1916 = 128 + 1788 from rfl, z, show List.foldl _ 701790501 _ = 3840596883 from crc_zeros_1]
  rw [show 1788 = 128 + 1660 from rfl, z, show List.foldl _ 3840596883 _ = 2020701125 from crc_zeros_2]
  rw [show 1660 = 128 + 1532 from rfl, z, show List.foldl _ 2020701125 _ = 1619602799 from crc_zeros_3]
  rw [show 1532 = 128 + 1404 from rfl, z, show List.foldl _ 1619602799 _ = 3712545283 from crc_zeros_4]
  rw [show 1404 = 128 + 1276 from rfl, z, show List.foldl _ 3712545283 _ = 122787703 from crc_zeros_5]
  rw [show 1276 = 128 + 1148 from rfl, z, show List.foldl _ 122787703 _ = 248929534 from crc_zeros_6]
  rw [show 1148 = 128 + 1020 from rfl, z, show List.foldl _ 248929534 _ = 183848737 from crc_zeros_7]
  rw [show 1020 = 128 + 892 from rfl, z, show List.foldl _ 183848737 _ = 4209319448 from crc_zeros_8]
  rw [show 892 = 128 + 764 from rfl, z, show List.foldl _ 4209319448 _ = 1143831444 from crc_zeros_9]
  rw [show 764 = 128 + 636 from rfl, z, show List.foldl _ 1143831444 _ = 197531258 from crc_zeros_10]
  rw [show 636 = 128 + 508 from rfl, z, show List.foldl _ 197531258 _ = 1577121535 from crc_zeros_11]
  rw [show 508 = 128 + 380 from rfl, z, show List.foldl _ 1577121535 _ = 1190951001 from crc_zeros_12]
  rw [show 380 = 128 + 252 from rfl, z, show List.foldl _ 1190951001 _ = 191792806 from crc_zeros_13]
  rw [show 252 = 128 + 124 from rfl, z, show List.foldl _ 191792806 _ = 1224749929 from crc_zeros_14]
  decide +kernel
theorem keyed_byte (a : Nat) (h : 0x10100 ≤ a) : depotByte keyed a = 0 := by
  have hq : queuedData keyed (a / 256) = none := rfl
  have hb : Tab.get 0 keyed.depot.bad (a / 256) = 0 := rfl
  have ht : Tab.get 0 keyed.depot.bytes a = 0 := by
    refine if_neg ?_ |>.trans (if_neg ?_ |>.trans (if_neg ?_ |>.trans (if_neg ?_ |>.trans (if_neg ?_ |>.trans (if_neg ?_ |>.trans
      (if_neg ?_ |>.trans rfl)))))) <;> omega
  unfold depotByte
  rw [hq]
  simp only [hb, ht]
  split <;> rfl
theorem keyed_zeros (a n : Nat) (h : 0x10100 ≤ a) : depotBytes keyed a n = List.replicate n 0 := by
  induction n generalizing a with
  | zero => rfl
  | succ n ih => rw [depotBytes, keyed_byte a h, ih (a + 1) (by omega), List.replicate_succ]
theorem keyed_bytes :
    depotBytes keyed (slotBase 0) 252 ++ [0, 0, 0, 0] ++ depotBytes keyed (slotBase 0 + 256) 1792 = [0, 7, 2, 1] ++ List.replicate 2044 0 := by
  rw [keyed_zeros (slotBase 0 + 256) 1792 (by decide), show depotBytes keyed (slotBase 0) 252 = [0, 7, 2, 1] ++ List.replicate 248 0 by decide +kernel,
    show [(0 : Byte), 0, 0, 0] = List.replicate 4 0 from rfl, List.append_assoc, List.append_assoc, List.replicate_append_replicate,
    List.replicate_append_replicate]
theorem keyed_slot : slotInUse keyed 0 = true := by
  unfold slotInUse
  rw [keyed_bytes, crc_slot]
  decide +kernel
theorem keyed_slotOf : slotOf keyed 7 = some 0 := by
  have h : decide ((slotKey keyed 0).1 = 7) = true := by decide +kernel
  unfold slotOf
  rw [List.range_succ_eq_map]
  exact List.find?_cons_of_pos (by rw [keyed_slot, h]; rfl)

/-- What the enrolment slots hold depends on the depot alone. -/
theorem slotOf_congr {s t : State} (h : t.depot = s.depot) (n : Nat) : slotOf t n = slotOf s n := by
  have hb : ∀ a, depotByte t a = depotByte s a := by intro a; unfold depotByte queuedData; rw [h]
  have hs : ∀ k a, depotBytes t a k = depotBytes s a k := by
    intro k
    induction k with
    | zero => intro a; rfl
    | succ k ih => intro a; rw [depotBytes, depotBytes, hb, ih]
  have hu : slotInUse t = slotInUse s := by funext i; unfold slotInUse; rw [hb, hs, hs, hs]
  have hk : slotKey t = slotKey s := by funext i; unfold slotKey; rw [hb, hs]
  unfold slotOf
  rw [hu, hk]
theorem taken_depot (r : Req) (op : BitVec 16) (i : Instr) (x : Session) (s : State) : (taken r op i x s).depot = s.depot := rfl
/-- The key of slot 0 is found in the state in which a request acts. -/
theorem keyed_taken (r : Req) (op : BitVec 16) (i : Instr) (x : Session) : slotOf (taken r op i x keyed) 7 = some 0 :=
  (slotOf_congr (taken_depot r op i x keyed) 7).trans keyed_slotOf

/-- A session with a challenge for a key that no slot holds. -/
def challenged : State :=
  { q with host.sessions := [{ x0s with chal := some { key := 5, nonce := [], th1 := [], sig := [], secret := [] } }] }
/-- SessionCommands. The slot of the first clause and of the case of a valid proof: `keyed_taken`. The module's secret is a free value, and
a signature that verifies is too long to write here: the first clause and the case of a valid proof have them as their only
hypotheses beside these. -/
theorem witness_SessionCommands :
    met (.authChallenge rq 7 (List.replicate 32 9) (List.replicate 1184 9)) keyed (fun _ t =>
      decide ((sessionOf t .usb).isSome = true ∧ ((sessionOf t .usb).map (·.proved)) = some false ∧ t.upd.lockout = false)) = true ∧
    (List.replicate 32 (9 : Byte)).length = 32 ∧ (List.replicate 1184 (9 : Byte)).length = 1184 ∧
    met (.authProve rq (List.replicate 3373 0)) challenged (fun _ t =>
      ((sessionOf t .usb).bind (·.chal)).isSome && (slotOf t 5).isNone) = true ∧ (List.replicate 3373 (0 : Byte)).length = 3373 ∧
    met (.bye rq 0xFF) q (fun _ t => (sessionOf t .usb).isSome) = true ∧
    met (.bye rq 4) q (fun _ t => ((sessionOf t .usb).map (·.idx)) == some 4) = true ∧
    met (.bye rq 1) { q with host.sessions := [x0s, { x0s with ep := .spi, idx := 1 }] } (fun _ t =>
      decide ((1 : Byte) ≠ 0xFF ∧ (1 : Byte) ≠ x0s.idx) && (t.host.sessions.find? (·.idx = 1)).isSome) = true ∧
    met (.sessionInfo rq) q (fun _ t => (sessionOf t .usb).isSome) = true := by decide +kernel

/-- A request to internal unit 1. -/
def rq1 : Req := { rq with hops := [1] }
theorem witness_UnitCommands :
    met (.unitInfo rq) q any = true ∧ met (.unitStatus rq) q (fun c _ => c.unit.isNone) = true ∧
    met (.unitStatus rq1) q (fun c _ => decide (c.unit = some 1)) = true ∧ met (.basinMap rq) q any = true ∧
    met (.startMode rq 1) q any = true ∧ (1 : Byte).toNat ≤ 1 ∧ met (.startMode rq 0xFF) q any = true ∧
    met (.reset rq 0) q any = true ∧ met (.reset rq 1) q any = true ∧ (1 : Byte) ≠ 0 := by decide +kernel
theorem witness_ImageCommands :
    met (.imgRead rq 0 0 65488) q any = true ∧ met (.imgRead rq 1 0 2728) q any = true ∧
    met (.imgWrite rq 0 5 9 [1, 1]) q any = true ∧ ([1, 1] : List Byte).length = ((9 : BitVec 16).toNat + 7) / 8 ∧
    met (.imgWrite rq 1 5 1 [1, 2, 3]) q any = true ∧ ([1, 2, 3] : List Byte).length = 3 * (1 : BitVec 16).toNat ∧
    1 ≤ (65488 : BitVec 16).toNat ∧ (65488 : BitVec 16).toNat ≤ 65488 ∧ 1 ≤ (2728 : BitVec 16).toNat ∧ (2728 : BitVec 16).toNat ≤ 2728 ∧
    met (.imgLayout rq) q any = true := by decide +kernel

/-- A module with an INPUT, an OUTPUT and a MARKER grain of bits, an input that is on, and host writes that wait for the tick edge. -/
def edging : State := { booted with
  prog.bitReg := [{ start := 0, count := 1, cls := 1, owner := 0 }, { start := 1, count := 1, cls := 2, owner := 3 }],
  tsk.bits := [(65, true), (130, true)], tsk.inBits := [(2, true), (3, true)],
  tsk.writes := [{ word := false, addr := 0xC00003, vals := [0, 1] }, { word := false, addr := 64, vals := [1, 0] },
    { word := true, addr := 0x1FFFFF, vals := [4, 8] }] }
theorem witness_ImageCommands_edge : EdgeQuiet edging ∧ (∀ w ∈ edging.tsk.writes, w.vals.length ≤ 2 ^ 21) :=
  ⟨⟨by decide, by decide, by decide, fun _ => rfl, by decide +kernel, by decide, by decide +kernel⟩, by decide +kernel⟩
theorem witness_TickRows_edge :
    EdgeQuiet { edging with tsk.writes := [] } ∧ (∀ p < 6, enabled edging 0x25 p = false ∧ (ser edging p).closing = [] ∧
      (ser edging p).rs485 = none ∧ (ser edging p).can = none) ∧ edging.ports.fld.nodes = [] ∧ inBasin edging = false ∧ edging.pas.freshEn = false :=
  ⟨⟨by decide, by decide, by decide, fun _ => rfl, by decide +kernel, by decide, by decide +kernel⟩, by decide +kernel⟩
/-- A host write stands over the latch and over what was committed, wraps, and goes to the output buffer of an OUTPUT point (R87, R90). -/
theorem test_hostWrites :
    let t := tickEdge { mfp := 0, srcTime := 0 } edging
    t.tsk.bits = [(2, true), (4, true), (64, true), (130, true)] ∧ t.tsk.words = [(0, 8), (0x1FFFFF, 4)] ∧
    t.tsk.outBits = [(64, true)] ∧ t.tsk.writes = [] := by decide +kernel

/-- The bytes of a framed image without records (R251). -/
def framed (magic gen digest : Nat) : List Byte :=
  let m := beBytes 2 magic ++ beBytes 2 0x0100 ++ beBytes 4 gen ++ beBytes 8 digest ++ beBytes 4 0 ++ beBytes 4 28
  m ++ beBytes 4 (crc32c m)
def goodLoad : State := { q with prog.loadOpen := true, prog.loadBuf := Tab.setRange none [] 0 ((framed 0x5E7D 0 0).map some) }
theorem witness_ProgramCommands :
    met (.prgLoadOpen rq) q (fun _ t => t.tsk.mode == .stop) = true ∧
    met (.prgLoadOpen rq) { q with tsk.mode := .run } (fun _ t => t.tsk.mode != .stop) = true ∧
    met (.prgLoadBlock rq 8388096 (List.replicate 512 0)) goodLoad (fun _ t => t.prog.loadOpen) = true ∧
    (8388096 : W32).toNat + (List.replicate 512 (0 : Byte)).length ≤ 8388608 ∧
    met (.prgLoadClose rq) goodLoad (fun _ t => decide (t.tsk.mode = .stop ∧ t.prog.loadOpen = true) &&
      match takeFramed true 0x5E7D 8388608 t.prog.loadBuf with
      | .inr f => match loadImage (decide (t.red.role = 0)) f.recs with | .inr _ => true | .inl _ => false
      | .inl _ => false) = true ∧
    met (.prgInfo rq) q any = true ∧ met (.prgRead rq 0 1 0 1) q any = true ∧ met (.prgRead rq 1 1 0 1) { q with prog.held := true }
      (fun _ t => t.prog.held) = true ∧
    (1 : Byte).toNat ≤ 5 ∧ (1 : BitVec 16) ≠ 0 ∧ (0 : W24).toNat + (1 : BitVec 16).toNat ≤ (partShape 1).1 ∧
    (1 : BitVec 16).toNat * (partShape 1).2 ≤ 8192 := by decide +kernel
def opened : State := { q with prog.edit := .opened }
/-- Not a single partner of a running pair. -/
def freeB (c : Ctx) (t : State) : Bool := decide (¬ (c.kind = 1 ∧ t.red.role ≠ 0 ∧ pairRuns t = true))
theorem freeB_iff (c : Ctx) (t : State) : freeB c t = true ↔ PartnerFree c t := decide_eq_true_iff
theorem witness_EditCommands :
    met (.editOpen rq) q (fun c t => decide ((t.prog.edit = .none ∨ t.prog.edit = .failed) ∧ t.red.role = 0) && freeB c t &&
      (claimFeature 0x22 0 t).2.isNone) = true ∧
    met (.editBlock rq 2096640 (List.replicate 512 0)) opened (fun c t => decide (t.prog.edit = .opened ∧ t.red.role = 0) && freeB c t) = true ∧
    (2096640 : W32).toNat + (List.replicate 512 (0 : Byte)).length ≤ 2097152 ∧
    met (.editClose rq) { opened with prog.editBuf := Tab.setRange none [] 0 ((framed 0x5E7C 0 0).map some) }
      (fun c t => decide (t.prog.edit = .opened ∧ t.red.role = 0) && freeB c t &&
        match takeFramed false 0x5E7C 2097152 t.prog.editBuf with
        | .inr f => decide (f.gen = t.prog.gen.toNat ∧ f.digest = (bankOf t t.prog.active).digest.toNat)
        | .inl _ => false) = true ∧
    met (.editApply rq 100) { q with prog.edit := .built } (fun c t => decide (t.prog.edit = .built ∧ t.red.role = 0 ∧
      ownTick c t 100 ≠ 0 ∧ 100 ≤ (ownTick c t 100 - t.tsk.tick).toNat ∧ (ownTick c t 100 - t.tsk.tick).toNat ≤ 16777215)) = true ∧
    met (.undoEdit rq 0) { q with prog.undoAvail := true } (fun _ t => decide (t.prog.edit = .none ∧ t.prog.undoAvail = true ∧ t.red.role = 0)) = true ∧
    met (.editAbort rq) { q with prog.edit := .armed } (fun _ t => decide (t.prog.edit = .armed ∧ t.prog.armUndo = false ∧ t.red.role = 0)) = true ∧
    met (.editAbort rq) opened (fun _ t => decide (t.prog.edit = .opened ∧ t.red.role = 0)) = true ∧
    met (.editAbort rq) { q with prog.edit := .draining } (fun _ t => decide (t.prog.edit = .draining ∧ t.red.role = 0)) = true ∧
    met (.editStatus rq) q any = true := by decide +kernel

/-- Task 3 is present and event-released, task 4 faulted. -/
def tasked : State :=
  { q with tsk.tasks := [(3, { st := .idle }), (4, { st := .faulted })], tsk.mode := .run,
           prog.bank0.tasks := [(3, { cfg := 0x20000000 })] }
def thereB (n : Byte) (t : State) : Bool := decide (n.toNat < 32 ∧ (task t n.toNat).st ≠ .absent)
theorem witness_RunCommands :
    met (.run rq 0) q freeB = true ∧
    met (.run rq 16777215) q (fun c t => freeB c t && decide (1 ≤ (ownTick c t 16777215 - t.tsk.tick).toNat ∧
      (ownTick c t 16777215 - t.tsk.tick).toNat ≤ 16777215)) = true ∧ (16777215 : Tick) ≠ 0 ∧
    met (.stop rq) q freeB = true ∧
    met (.step rq 3) { tasked with tsk.mode := .stop } (fun _ t => thereB 3 t && decide ((task t 3).st ≠ .disabled ∧ (task t 3).st ≠ .faulted ∧
      t.tsk.steps.contains 3 = false ∧ ¬(released (task t 3) = true ∧ (task t 3).stepped = true) ∧ t.tsk.mode ≠ .run ∧ t.red.role = 0)) = true ∧
    met (.taskEnable rq 3) tasked (fun c t => thereB 3 t && freeB c t) = true ∧
    met (.taskDisable rq 3) tasked (fun c t => thereB 3 t && freeB c t) = true ∧
    met (.taskTrigger rq 3) tasked (fun c t => thereB 3 t && freeB c t && decide (kindOf (taskDef t 3) = 1 ∧ t.tsk.mode = .run)) = true ∧
    met (.taskRestart rq 4) tasked (fun c t => thereB 4 t && freeB c t && decide ((task t 4).st = .faulted)) = true ∧
    met (.taskStatus rq 3) tasked (fun _ t => thereB 3 t) = true ∧ met (.runStatus rq) q any = true := by decide +kernel
theorem witness_TimeCommands :
    met (.timeGet rq) q any = true ∧ met (.timeSet rq (.binary 5 0x7FFF)) q any = true ∧ (0x7FFF : BitVec 16).getLsbD 15 = false ∧
    met (.timeSet rq (.calendar 2000 2 29 23 59 59)) q any = true ∧ dateOk 2000 2 29 23 59 59 = true ∧ dateOk 2001 2 29 23 59 59 = false ∧
    met (.timeSet rq (.calendar 2001 2 29 23 59 59)) q any = true ∧ met (.wakeSet rq 1) q any = true ∧ (1 : W24) ≠ 0 ∧
    met (.wakeSet rq 0) q any = true ∧ met (.pwronRelease rq) q any = true := by decide +kernel
theorem witness_DepotAndLogCommands :
    met (.depotRead rq 993 31) q (fun _ t => !t.depot.scan) = true ∧ (993 : BitVec 16).toNat + (31 : Byte).toNat ≤ 1024 ∧
    met (.depotWrite rq 511 (List.replicate 256 0)) q (fun c t => decide (t.depot.scan = false ∧ t.depot.pfail = false) &&
      depotRoom t 511 (.host c.whom 1)) = true ∧
    met (.depotWrite rq 384 (List.replicate 256 0)) { q with depot.queue := (List.range 32).map fun k => { page := 385 + k, data := [], srcs := [.host (.session .usb) 9] } }
      (fun c t => decide (t.depot.scan = false ∧ t.depot.pfail = false) && !depotRoom t 384 (.host c.whom 1)) = true ∧
    met (.depotStatus rq) q (fun _ t => !t.depot.scan) = true ∧ met (.logRead rq 0 127 0) q any = true ∧
    met (.logFreeze rq 1) q any = true ∧ met (.logFreeze rq 0) q any = true ∧ met (.logStatus rq) q any = true ∧
    met (.noticeSubscribe rq 7) q any = true ∧ (7 : Byte).toNat ≤ 7 ∧ met (.noticeSubscribe rq 0xFF) q any = true := by decide +kernel

/-- Five firmware parts with images of 4,096 bytes and headers without rules; the other slot of each is in state st. -/
def parts (st : SlotSt) (n : Nat) : State :=
  { q with upd.parts := (List.range 5).map fun k => (k, { a := { st := .running, length := 4096 }, b := { st := st, length := n } }) }
/-- Part 1 runs its slot B on trial, as the boot selector says; the boot ROM has counted one start. -/
def onTrialB : State :=
  { q with upd.parts := [(1, { runB := true, a := { st := .valid }, b := { st := .trial } })],
           depot.twins := [(0, { a := { seq := 1, val := some (.boot 2 2 0 0 false false) } }), (1, { a := { seq := 1, val := some (.trial 1) } })] }
/-- A manifest whose five entries carry the digest d (R562). -/
def manifest (d : List Byte) : List Byte :=
  [0x1A, 0x6F, 0x01, 0x00, 0, 0, 0, 0] ++ ([0, 0, 0, 0] ++ d) ++ ([1, 0, 0, 0] ++ d) ++ ([2, 0, 0, 0] ++ d) ++ ([3, 0, 0, 0] ++ d) ++
    ([4, 0, 0, 0] ++ d) ++ List.replicate 3373 0
/-- SHA-512 of the empty message, from FIPS 180-4's example values. -/
def emptyDigest : List Byte :=
  [0xcf, 0x83, 0xe1, 0x35, 0x7e, 0xef, 0xb8, 0xbd, 0xf1, 0x54, 0x28, 0x50, 0xd6, 0x6d, 0x80, 0x07, 0xd6, 0x20, 0xe4, 0x05, 0x0b, 0x57, 0x15, 0xdc,
   0x83, 0xf4, 0xa9, 0x21, 0xd3, 0x6c, 0xe9, 0xce, 0x47, 0xd0, 0xd1, 0x3c, 0x5d, 0x85, 0xf2, 0xb0, 0xff, 0x83, 0x18, 0xd2, 0x87, 0x7e, 0xec, 0x2f,
   0x63, 0xb9, 0x31, 0xbd, 0x47, 0x41, 0x7a, 0x81, 0xa5, 0x38, 0x32, 0x7a, 0xf9, 0x27, 0xda, 0x3e]
theorem test_sha512_empty : sha512 [] = emptyDigest := by rw [sha512_eq]; decide +kernel
/-- SHA-512 of one byte 7. -/
def sevenDigest : List Byte := 
  [0x36, 0x5d, 0x11, 0xa1, 0xdf, 0xe6, 0x10, 0xb6, 0x0e, 0xfa, 0x99, 0x61, 0x36, 0xd3, 0x7a, 0xb8, 0xaf, 0xd2, 0x71, 0x5b, 0x8c, 0x6b, 0xc2, 0x85,
   0x0d, 0xc5, 0xe6, 0x00, 0x5b, 0x70, 0x2b, 0xb9, 0xf5, 0x9b, 0x0f, 0x30, 0x6e, 0xcb, 0x2c, 0x43, 0xee, 0x44, 0xc4, 0x29, 0x96, 0x7d, 0x45, 0x84,
   0x35, 0x24, 0xeb, 0x2f, 0x7c, 0x16, 0xaa, 0xb9, 0xbd, 0xe1, 0x42, 0xee, 0x26, 0x8b, 0x51, 0xc6]
theorem test_sha512_seven : sha512 [7] = sevenDigest := by rw [sha512_eq]; decide +kernel
/-- Five running images with empty headers, and a VALID image of part 2 whose header is one byte. -/
def mixed : State :=
  { q with upd.parts := (List.range 5).map fun k =>
      (k, { a := { st := .running, length := 4096 }, b := { st := .valid, length := 4096, header := if k = 2 then [7] else [] } }) }
/-- A manifest that names the running images but for part 2. -/
def mixedManifest : List Byte :=
  let e := emptyDigest
  [0x1A, 0x6F, 0x01, 0x00, 0, 0, 0, 0] ++ ([0, 0, 0, 0] ++ e) ++ ([1, 0, 0, 0] ++ e) ++ ([2, 0, 0, 0] ++ sevenDigest) ++ ([3, 0, 0, 0] ++ e) ++
    ([4, 0, 0, 0] ++ e) ++ List.replicate 3373 0
/-- The headers and digests of `mixed` against its manifest: part 2 alone changes. -/
theorem witness_UpdateCommands_digests :
    (∀ k < 5, k ≠ 2 → sha512 (runHeader mixed k) = ((mixedManifest.drop (8 + 68 * k)).take 68).drop 4) ∧
    sha512 (runHeader mixed 2) ≠ ((mixedManifest.drop (8 + 68 * 2)).take 68).drop 4 ∧
    sha512 (idleHeader mixed 2) = ((mixedManifest.drop (8 + 68 * 2)).take 68).drop 4 ∧
    (∀ k < 5, sha512 (runHeader (parts .valid 4096) k) = (((manifest emptyDigest).drop (8 + 68 * k)).take 68).drop 4) := by
  have hm : ∀ k < 5, runHeader mixed k = [] := by decide +kernel
  have hp : ∀ k < 5, runHeader (parts .valid 4096) k = [] := by decide +kernel
  have hi : idleHeader mixed 2 = [7] := by decide +kernel
  refine ⟨fun k hk h2 => ?_, ?_, ?_, fun k hk => ?_⟩
  · rw [hm k hk, test_sha512_empty]; revert k; decide +kernel
  · rw [hm 2 (by omega), test_sha512_empty]; decide +kernel
  · rw [hi, test_sha512_seven]; decide +kernel
  · rw [hp k hk, test_sha512_empty]; revert k; decide +kernel
theorem witness_UpdateCommands_manifest :
    met (.updManifest rq mixedManifest) mixed (fun _ t => !inTrial t && decide (¬ (t.red.role = 1 ∧ t.red.peerRole = 3)) &&
      decide ((idleSlot (partOf t 2)).st = .valid ∧ brokenRule (switchedSet t [2]) = none)) = true ∧
    mixedManifest.length = 3721 ∧ bytesNat mixedManifest 0 2 = 0x1A6F ∧ bytesNat mixedManifest 2 2 = 0x0100 ∧
    (∀ k < 5, bytesNat ((mixedManifest.drop (8 + 68 * k)).take 68) 0 1 = k) := by decide +kernel

/-- UpdateCommands. Of a manifest, whether its signature verifies is a free value. -/
theorem witness_UpdateCommands :
    met (.updBegin rq 0 3886) q (fun _ t => t.upd.openPart.isNone && !inTrial t && !returnsTo t 0 && (claimFeature 0x23 0 t).2.isNone) = true ∧
    3886 ≤ (3886 : W32).toNat ∧ (3886 : W32).toNat ≤ slotSize 0 ∧
    met (.updBlock rq 0 512 (List.replicate 512 0)) { parts .receiving 1024 with upd.openPart := some 0 } (fun _ t =>
      decide (t.upd.openPart = some 0 ∧ (idleSlot (partOf t 0)).st = .receiving ∧ 512 + 512 ≤ (idleSlot (partOf t 0)).length)) = true ∧
    (512 : W32).toNat % 512 = 0 ∧ 0 < (512 : W32).toNat ∧ (List.replicate 512 (0 : Byte)).length % 512 = 0 ∧
    met (.updVerify rq 4) (parts .complete 4096) (fun _ t => decide ((idleSlot (partOf t 4)).st = .complete)) = true ∧
    met (.updActivate rq 0) (parts .valid 4096) (fun _ t => !inTrial t && decide (¬ (t.red.role = 1 ∧ t.red.peerRole = 3) ∧
      ((idleSlot (partOf t 0)).st = .valid ∨ (idleSlot (partOf t 0)).st = .rejected) ∧ brokenRule (switchedSet t [0]) = none)) = true ∧
    met (.updActivate rq 4) { parts .rejected 4096 with dio.safStatus := 0x10000000 } (fun _ t => !inTrial t &&
      decide (brokenRule (switchedSet t [4]) = none) && t.dio.safStatus.getLsbD 28) = true ∧
    met (.updConfirm rq) onTrialB (fun _ t => canConfirm t) = true ∧ met (.updConfirm rq) q (fun _ t => !canConfirm t) = true ∧
    met (.updReject rq) onTrialB (fun _ t => inTrial t && decide ((selectorOf t).trial ≠ 0)) = true ∧
    met (.updReject rq) q (fun _ t => !inTrial t) = true ∧
    met (.updStatus rq) q any = true ∧
    met (.updManifest rq (manifest emptyDigest)) (parts .valid 4096) (fun _ t => !inTrial t &&
      decide (¬ (t.red.role = 1 ∧ t.red.peerRole = 3) ∧ t.sys.actPending = false ∧ brokenRule (switchedSet t []) = none)) = true ∧
    (manifest emptyDigest).length = 3721 ∧ bytesNat (manifest emptyDigest) 0 2 = 0x1A6F ∧
    bytesNat (manifest emptyDigest) 2 2 = 0x0100 ∧
    (∀ k < 5, bytesNat (((manifest emptyDigest).drop (8 + 68 * k)).take 68) 0 1 = k) ∧
    (manifest emptyDigest).length = 3721 := by decide +kernel

/-- A running pair: this module is the active partner, the other its standby in step. -/
def inStep : State := { q with red.pairEn := true, red.role := 1, red.peerRole := 3 }
theorem witness_PairCommands :
    met (.pairStatus rq) q (fun _ t => !t.sys.partner) = true ∧ met (.pairStatus rq) { q with sys.partner := true } (fun _ t => t.sys.partner) = true ∧
    met (.pairSwitchover { rq with hops := [0] }) inStep (fun _ t => decide (t.red.role = 1 ∧ t.red.peerRole = 3)) = true ∧
    met (.pairSwitchover rq) q (fun _ t => decide (¬ (t.red.role = 1 ∧ t.red.peerRole = 3))) = true ∧
    met (.pairResync { rq with hops := [0] }) { inStep with red.role := 4, red.syncUp := true } (fun _ t =>
      standby t && decide (t.red.role ≠ 2) && syncReady t) = true ∧
    met (.pairResync { rq with hops := [0] }) { inStep with red.role := 3 } (fun _ t => standby t && decide (t.red.role ≠ 2 ∧ t.red.role ≠ 4)) = true ∧
    met (.pairResync { rq with hops := [0] }) { inStep with red.role := 4 } (fun _ t => decide (t.red.role = 4) && !syncReady t) = true ∧
    met (.pairResync { rq with hops := [0] }) { inStep with red.role := 2 } (fun _ t => decide (t.red.role = 2)) = true := by decide +kernel

/-- FeatureAndIoCommands: settings that are taken, a block that does not fit, an enable that claims and one that meets a claim. -/
theorem witness_FeatureAndIoCommands :
    met (.featureConfig rq 0x11 0 .plClear) q (fun _ t => let r := applySettings 0x11 0 .plClear t;
      decide (r.1 = 0 ∧ ¬ (r.2.red.role = 1 ∧ r.2.red.peerRole = 3) ∧ t.red.role = 0)) = true ∧
    met (.featureConfig rq 0x25 5 .empty) q (fun _ t => decide ((applySettings 0x25 5 .empty t).1 = 1)) = true ∧
    (5 : Byte).toNat < featureCount 0x25 ∧ featureFree 0x25 = true ∧ (7 : Byte).toNat < featureCount 0x10 ∧ featureFree 0x10 = true ∧
    met (.featureEnable rq 0x10 7) q (fun _ t => decide ((enableFeature 0x10 7 t).2 = none)) = true ∧
    met (.featureEnable rq 0x25 0) q (fun _ t => decide ((enableFeature 0x25 0 t).2 = some 60)) = true ∧
    met (.featureDisable rq 0x25 5) q any = true ∧ met (.featureStatus rq 0x25 5) q any = true ∧ met (.resQuery rq) q any = true ∧
    met (.dioStatus rq) q any = true ∧ met (.dioConfig rq (List.replicate 28 0)) q any = true ∧ met (.safStatus rq) q any = true := by
  decide +kernel

/-- A cast is held. -/
def castHeld : State := { q with cast.held := true }
/-- CastAndRegisterCommands. Whether a trigger meets the SUP edge of the held cast within its tick is a free value: in the first state
the tick is the cast's own, in the second it is a later one. -/
theorem witness_CastAndRegisterCommands :
    met (.castNow rq 0) castHeld (fun _ t => t.cast.held && decide (t.cast.trigAt = t.tsk.tick)) = true ∧
    met (.castNow rq 0) { castHeld with tsk.tick := 7 } (fun _ t => t.cast.held && !sameSupEdge 0 t) = true ∧ met (.castNow rq 0) q (fun _ t => !t.cast.held) = true ∧
    met (.castNow rq 1) q (fun _ t => !inBasin t) = true ∧ met (.castArm rq) castHeld any = true ∧
    met (.castRead rq 0x160000 0x7FC 1) castHeld (fun c t => decide (c.unit = none ∧ t.cast.held = true)) = true ∧
    blockBase (0x160000 : W32).toNat = true ∧ (0x7FC : BitVec 16).toNat % 4 = 0 ∧ (0x7FC : BitVec 16).toNat + 4 * 1 ≤ 0x800 ∧
    met (.regRead rq1 0x50000 512) q (fun c _ => decide (c.unit = some 1) && unitReaches c.unit 0x50000 512) = true ∧
    met (.regRead rq 0 2048) q (fun c _ => unitReaches c.unit 0 2048) = true ∧
    met (.regWrite rq 0x110010 1 [7]) q (fun c _ => unitReaches c.unit 0x110010 1) = true ∧ ([7] : List W32).length = (1 : BitVec 16).toNat := by
  decide +kernel

/-- IdentityCommands. The slot of KEY_REMOVE for a key that a slot holds: `keyed_taken`. -/
theorem witness_IdentityCommands :
    met (.ident rq) q any = true ∧ met (.attest rq (List.replicate 32 5)) q any = true ∧ (List.replicate 32 (5 : Byte)).length = 32 ∧
    met (.certRead rq 1 2) q any = true ∧ met (.certRead rq 0 0) q any = true ∧
    met (.keyEnrol rq 7 3 (List.replicate 32 0) (List.replicate 1952 0)) q (fun _ t =>
      decide (((slotOf t 7).orElse fun _ => (List.range 16).find? fun j => !slotInUse t j) = some 0)) = true ∧
    (List.replicate 1952 (0 : Byte)).length = 1952 ∧ met (.keyRemove rq 7) q (fun _ t => decide (slotOf t 7 = none)) = true ∧
    met (.keyRemove rq 7) keyed any = true ∧ met (.keyList rq) q any = true := by decide +kernel

/-- RefusalsChangeNothing: a path to a unit that does not exist, an opcode that the unit does not implement, parameters of no command. -/
theorem witness_RefusalsChangeNothing :
    rq.bcast = false ∧ q.sys.boot = .ready ∧ placeRequest { rq with hops := [9] } 0x0101 q = .nowhere 0x101 ∧
    placeRequest rq 0x7777 q = .unit 1 0xFF none ∧ known rq 0x7777 1 = false ∧
    placeRequest rq 0x0401 q = .unit 1 0xFF none ∧ known rq 0x0401 1 = true ∧ bodyCmd rq 0x0401 (.inl []) = none := by decide +kernel

/-! ## Resets, power, the backup domain and the watchdog -/

/-- The write of the boot selector is queued. -/
def selector : State :=
  { booted with depot.queue := [{ page := 0, data := [], twin := some (0, {}), srcs := [] }] }
theorem witness_ResetsRestart :
    booted.sys.boot ≠ .off ∧ 10 ≤ 10 ∧ 9 < 10 ∧ ({ booted with bkd.rstDue := true } : State).bkd.rstDue = true ∧
    booted.bkd.rstDue = false ∧ ({ booted with sys.actPending := true } : State).sys.actPending = true ∧
    booted.depot.queue.all (fun w => w.twin.all (·.1 ≠ 0)) = true ∧ Tab.get none booted.depot.twinNext 0 = none ∧
    (∃ w ∈ selector.depot.queue, ∃ c, w.twin = some (0, c)) ∧ booted.sys.pfail = false ∧ booted.sys.vinGood = true ∧
    booted.sys.boot ≠ .reset ∧ ({ booted with sys.pfail := true } : State).sys.boot ≠ .off ∧
    ({ booted with sys.boot := .roleWait } : State).sys.boot = .roleWait ∧ booted.red.pairEn = false ∧
    ({ booted with sys.boot := .roleWait, red.pairEn := true } : State).red.pairEn = true ∧ booted.sys.boot ≠ .roleWait :=
  ⟨by decide, by decide, by decide, rfl, rfl, rfl, rfl, rfl, ⟨_, List.mem_cons_self, _, rfl⟩, rfl, rfl, by decide, by decide, rfl, rfl, rfl, by decide⟩
theorem witness_ResetsRestart_busy :
    (let s : State := { booted with sys.pfail := true, depot.busy := true }; s.sys.pfail = true ∧ s.depot.busy = true) ∧
    booted.depot.busy = false := by decide
/-- The module is in the boot ROM: the ports other than USB do not answer. -/
def inRom : State := { booted with sys.boot := .rom }
theorem witness_DepotLogRows_worn : Tab.get 0 booted.depot.wear booted.depot.patrol.toNat ≤ 1000000 ∧ inRom.sys.boot = .rom ∧
    inRom.sys.pfail = false ∧ inRom.sys.vinGood = true ∧ booted.sys.boot ≠ .rom := by decide
theorem witness_TickRows_startup :
    State.reset.sys.boot = .step3 ∧ ({ State.reset with sys.boot := .step4 } : State).sys.boot = .step4 ∧
    ({ State.reset with sys.boot := .step5 } : State).sys.boot = .step5 ∧ ({ State.reset with sys.boot := .step7 } : State).sys.boot = .step7 ∧
    booted.sys.boot = .ready ∧ fromStep6 booted = true ∧ fromStep6 State.reset = false := by decide
/-- While the self-test runs, the SAF block reads no outcome and no setting in force (R469); after it, both channels show the demand that
de-energised inputs make and SAF_DEMAND_COUNT counts, and the switches stand (R462). -/
theorem test_startup_saf :
    let a := startGoesOn State.reset
    let b := startGoesOn a
    (peek a 0x10004, peek a 0x100000, peek a 0x100004) = (0x44000000, 0, 0x0300) ∧
    (peek b 0x100000, peek b 0x100004, peek b 0x10000C) = (0x40000202, 0x0303, 2) := by decide +kernel
theorem witness_BackupDomainRows :
    ({ booted with bkd.wakeN := 1 } : State).bkd.wakeN ≠ 0 ∧ booted.bkd.wakeN = 0 ∧ booted.bkd.running = true ∧
    ({ booted with bkd.trim := 0xFF } : State).bkd.trim.toInt < 0 ∧ 0 ≤ booted.bkd.trim.toInt := by decide
/-- The counter stands before WOPEN. -/
def early : State := { booted with bkd.wopenNow := 5 }
theorem witness_WatchdogRows :
    booted.bkd.wdtEn = true ∧ ({ booted with bkd.wdtEn := false } : State).bkd.wdtEn = false ∧ booted.bkd.cStop = false ∧
    ({ booted with bkd.c := 1 } : State).bkd.wopenNow.toNat ≤ ({ booted with bkd.c := 1 } : State).bkd.c.toNat ∧
    booted.bkd.slotAct = false ∧ early.bkd.c.toNat < early.bkd.wopenNow.toNat ∧ early.bkd.wdtEn = true ∧ early.bkd.cStop = false ∧
    booted.bkd.vin = true ∧ booted.bkd.keyPend = false ∧ ({ booted with bkd.keyPend := true } : State).bkd.wdtLock = false ∧
    ({ booted with bkd.wdtLock := true } : State).bkd.wdtLock = true ∧ (0 : BitVec 16) ≠ 0x6A17 ∧ (0 : BitVec 16) ≠ 0x95E8 := by decide
/-- The window is open, slots 2 and 5 are armed, and slot 2 alone has checked in; a miss expires the watchdog. -/
def missing : State :=
  { booted with
    bkd.c := booted.bkd.wopenNow, bkd.slotAct := true, bkd.armed := 0x24, bkd.seen := 0x04, bkd.rstEn := false,
    res.enabled := (2, 0) :: booted.res.enabled }
theorem witness_WatchdogRows_slots :
    missing.bkd.wdtEn = true ∧ missing.bkd.cStop = false ∧ missing.bkd.wopenNow.toNat ≤ missing.bkd.c.toNat ∧ Rising missing.bkd.missCnt ∧
    missing.bkd.slotAct = true ∧ enabled missing 0x02 0 = true ∧ missedSlots missing = [5] := by unfold Rising; decide +kernel
/-- The miss is counted and makes one expiry with cause SLOT, whose evidence takes the maps of the window just evaluated (R492). -/
theorem test_slotMiss :
    let t := serviceOp missing
    t.bkd.missedMap = 0x20 ∧ Tab.get 0 t.bkd.missCnt 5 = 1 ∧ Tab.get 0 t.bkd.missCnt 2 = 0 ∧ t.bkd.evCause = 3 ∧ t.bkd.evArmed = 0x24 ∧
    t.bkd.evSeen = 0x04 ∧ t.bkd.expCount = 1 ∧ t.red.actDrv = false := by decide +kernel

/-! ## Tasks, segments, faults and edits -/

/-- Task 3 has a release in progress on core 0; it is present, cyclic, with a region of its own. -/
def running : State :=
  let r : Run := { task := 3, ended := true, journal := [.word 8 5] }
  { booted with
    tsk.mode := .run, tsk.tasks := [(3, { st := .running, queue := [(0, .onCore 0)], ownWords := [(8, some 5)], due := 3 })],
    prog.bank0.tasks := [(3, { cfg := 0x80000000, period := 100, quota := 16 })],
    scan.served := some 3, scan.cores := [(0, { run := some r }), (8, { active := false })] }
/-- The run of core 0 is as r. -/
def runningAs (r : Run) : State := { running with scan.cores := [(0, { run := some r }), (8, { active := false })] }
theorem witness_TickRows :
    booted.sys.asleep = false ∧ booted.sys.boot ≠ .off ∧ booted.sys.boot ≠ .reset ∧
    ({ booted with sys.asleep := true } : State).sys.asleep = true ∧
    Rising running.tsk.tasks ∧ Rising running.tsk.bits ∧ Rising running.tsk.words ∧ Rising (task running 3).ownBits ∧
    Rising (task running 3).ownWords ∧ released (task running 3) = true ∧ field (relDef running 3).cfg.toNat 23 16 = 0 ∧
    (relDef running 3).cfg.getLsbD 27 = false ∧ (task running 3).ext = false ∧ kindOf (relDef running 3) = 0 ∧
    stopsAt (running.tsk.tick + 1) running = false ∧ running.tsk.disables = [] ∧ running.red.role = 0 ∧ (task running 3).guarded = false ∧
    (task running 3).due = addTicks (running.tsk.tick + 1).toNat 2 ∧ kindOf (relDef running 3) ≠ 2 ∧
    (∀ k < 32, k ≠ 3 → ¬ released (task running k) = true) ∧ (task running 3).st ≠ .done ∧
    (task { running with tsk.tasks := [(3, { st := .done, due := 3 })] } 3).st = .done ∧
    (relDef { running with prog.bank0.tasks := [(3, { cfg := 0x88000000 })] } 3).cfg.getLsbD 27 = true := by
  unfold Rising; decide +kernel
theorem witness_SegmentRows :
    Rising running.tsk.tasks ∧ Rising running.scan.cores ∧ Rising (runningAs { task := 3, stalled := true }).scan.cores ∧ (Machine.core running 0).run = some { task := 3, ended := true, journal := [.word 8 5] } ∧
    isOldest running 0 = true ∧ slotsFit running 3 [.word 8 5] = true ∧ released (task running 3) = true ∧
    (let s := { running with tsk.tasks := [(3, { st := .running, queue := [(0, .onCore 1)] })] }
     (Machine.core s 0).run = some { task := 3, ended := true, journal := [.word 8 5] } ∧ isOldest s 0 = false) ∧
    isOldest (runningAs { task := 3, trap := some (0x002, 0) }) 0 = true ∧
    (Machine.core (runningAs { task := 3, stalled := true }) 0).run = some { task := 3, stalled := true } ∧
    isOldest (runningAs { task := 3, stalled := true }) 0 = true ∧ slotsFit (runningAs { task := 3, stalled := true }) 3 [] = true ∧
    (Machine.core (runningAs { task := 3, suspend := true, rep := some ⟨0, 1, true⟩ }) 0).run =
      some { task := 3, suspend := true, rep := some ⟨0, 1, true⟩ } ∧
    slotsFit { running with prog.bank0.tasks := [(3, { cfg := 0x80000000 })] } 3 [.word 8 5] = false ∧
    (Machine.core (runningAs { task := 3, trap := some (0x002, 0) }) 0).run = some { task := 3, trap := some (0x002, 0) } := by
  unfold Rising; decide +kernel
/-- One active core is left. -/
def lastCore : State := { booted with scan.cores := (List.range 9).map fun c => (c, { active := decide (c = 0), retired := decide (c ≠ 0) }) }
/-- Segment 4 is pure, segment 7 is not. -/
def pureSegs : State := { booted with prog.bank0.segs := [(4, 0x84000000), (7, 0x04000000)] }
theorem witness_FaultRows :
    booted.sys.asleep = false ∧ booted.sys.boot ≠ .off ∧ booted.sys.boot ≠ .reset ∧
    (Machine.core booted 0).retired = false ∧ (∃ d < 9, d ≠ 0 ∧ (Machine.core booted d).active = true) ∧
    (Machine.core lastCore 0).retired = false ∧
    (∀ d < 9, d ≠ 0 → (Machine.core lastCore d).active = false ∧ (Machine.core lastCore d).retired = true) ∧
    (Machine.core lastCore 1).retired = true ∧ ({ booted with prog.edit := .building } : State).prog.edit = .building ∧
    ({ booted with prog.edit := .building, prog.shadowEcc := true } : State).prog.shadowEcc = true ∧
    booted.prog.edit ≠ .building ∧ (∀ c, SramPlace.tags ≠ .coreRam c) ∧
    Rising (activeBank pureSegs).segs ∧ segPure (segEntry (activeBank pureSegs) 4) = true ∧ segPresent (segEntry (activeBank pureSegs) 4) = true ∧
    segPure (segEntry (activeBank pureSegs) 7) = false := by
  refine ⟨by decide, by decide, by decide, by decide +kernel, by decide +kernel, by decide +kernel, by decide +kernel, by decide +kernel,
    by decide, by decide, by decide, fun _ => by simp, by unfold Rising; decide +kernel, by decide +kernel, by decide +kernel, by decide +kernel⟩
/-- A write-tag error makes the pure segment run again and leaves the other (R156). -/
theorem test_tagsError :
    let t := sramUncorrectableOp .tags pureSegs
    segEntry (activeBank t) 4 = 0x8C000000 ∧ segEntry (activeBank t) 7 = 0x04000000 := by decide +kernel
/-- An edit is armed for the next tick. -/
def armed : State := { running with prog.edit := .armed, prog.armTick := 1 }
theorem witness_EditRows :
    ({ running with prog.edit := .building } : State).prog.edit = .building ∧ running.prog.edit ≠ .building ∧ armed.prog.edit = .armed ∧
    armed.prog.armTick = armed.tsk.tick + 1 ∧ running.prog.edit ≠ .armed ∧
    ({ running with prog.edit := .draining } : State).tsk.tasks.all (fun e => !released e.2 || e.2.bank == running.prog.active) = true ∧
    (∃ e ∈ ({ running with prog.edit := .draining, prog.active := true } : State).tsk.tasks, released e.2 = true ∧ e.2.bank ≠ true) ∧
    ({ running with prog.storing := true } : State).prog.storing = true ∧ running.prog.storing = false ∧
    ({ running with upd.dirty := true } : State).upd.dirty = true ∧ inTrial running = false ∧ running.sys.boot = .ready ∧
    ({ running with sys.boot := .rom } : State).sys.boot ≠ .ready ∧ storedSlot running = none ∧ running.upd.dirty = false ∧
    running.upd.storing = none ∧ running.depot.pfail = false ∧ twinEnded 4 running = true ∧
    (let s := { running with upd.storing := some (true, default) }
     s.upd.storing = some (true, default) ∧ ∀ i < 96, firmwareWaits s (generationPage true + i) = false) := by decide +kernel

/-! ## Events of the firmware -/

/-- The page write w is in progress. -/
def writing (w : DepWrite) : State := { booted with depot.busy := true, depot.queue := [w] }
/-- Part 4 is being verified. -/
def verifying : State := { parts .valid 4096 with upd.parts := [(4, { a := { st := .running }, b := { st := .verifying } })] }
theorem witness_FirmwareEvents :
    booted.log.buf.length < 2048 ∧ booted.pas.head = false ∧ ({ booted with log.frozen := true } : State).log.frozen = true ∧
    flushes booted = true ∧ booted.sys.pfail = false ∧ booted.log.frozen = false ∧ booted.log.image = none ∧
    booted.log.pending = none ∧ booted.log.closed = none ∧ booted.log.flash.length < 1048576 ∧
    ({ booted with log.buf := [default] } : State).log.buf = [default] ∧
    (let s := writing { page := 256, data := [1], srcs := [] }
     s.depot.busy = true ∧ s.depot.queue = [{ page := 256, data := [1], srcs := [] }] ∧ s.red.role = 0 ∧ Rising s.depot.bytes ∧
       Rising s.depot.bad ∧ ([] : List DepSrc) ≠ [.refresh] ∧ s.upd.storing = none ∧ s.upd.saveDue = none ∧ s.depot.due = []) ∧
    (let s := writing { page := 1, data := [], twin := some (0, { seq := 2 }), srcs := [] }
     s.depot.busy = true ∧ s.depot.queue = [{ page := 1, data := [], twin := some (0, { seq := 2 }), srcs := [] }] ∧
       Tab.get none s.depot.twinNext 0 = none ∧ Rising s.depot.twins) ∧
    booted.depot.busy = false ∧
    ({ booted with depot.waiters := [.refresh, .host (.session .usb) 5] } : State).depot.waiters = [.refresh] ++ .host (.session .usb) 5 :: [] ∧
    (∀ w ∈ [DepSrc.refresh], ∀ whom p, w ≠ .host whom p) ∧ booted.depot.queue = [] ∧
    Tab.get 0 booted.depot.bad booted.depot.patrol.toNat = 0 ∧ booted.depot.pfail = false ∧
    Tab.get 0 booted.depot.soft booted.depot.patrol.toNat = 0 ∧ booted.depot.due = [] ∧ (1 ||| 0 : BitVec 32) ≠ 0 ∧
    verifyingPart verifying = some 4 ∧ Rising verifying.upd.parts ∧ verifyingPart booted = none ∧
    canConfirm onTrialB = true ∧ onTrialB.upd.mode = false ∧ canConfirm booted = false ∧
    inTrial onTrialB = true ∧ onTrialB.sys.actPending = false ∧ supRuns onTrialB = true ∧ inTrial booted = false := by
  unfold Rising
  refine ⟨by decide, by decide, by decide, by decide, by decide, by decide, by decide, by decide, by decide, by decide, by decide,
    by decide +kernel, by decide +kernel, by decide, by decide, ?_, by decide, by decide +kernel, by decide, by decide, by decide, by decide,
    by decide +kernel, by decide +kernel, by decide +kernel, by decide +kernel, by decide, by decide +kernel, by decide +kernel, by decide,
    by decide, by decide +kernel⟩
  intro w hw whom p h
  rw [List.mem_singleton] at hw
  rw [hw] at h
  exact DepSrc.noConfusion h

/-! ## Register events, transports, barrier and safety -/

/-- Both classes of regions that rows of the registers ask for: INPUT bits over the whole bit image. -/
def mapped : State :=
  { booted with prog.bitReg := [⟨0, 0x10000, 1, 31⟩], ports.ser := [(4, { can := some { (default : CanCfg) with rx := [{ (default : CanRxObj) with count := 8 }] } })] }
/-- USER_CRC 1 runs from word 8 over n words. -/
def crcRun (n : BitVec 21) : State :=
  { booted with res.enabled := [(0x26, 1)], ports.crc := [(1, { busy := true, count := n, addr := 8 })] }
theorem witness_RegisterEvents :
    featureKnown 0x10 3 = true ∧ enabled booted 0x10 3 = false ∧ contested booted 0x10 (featureRes booted 0x10 3) = none ∧
    (let s := { booted with res.claims := [(12, { code := 0x25 })] }
     enabled s 0x10 3 = false ∧ contested s 0x10 (featureRes s 0x10 3) = some 12) ∧
    enabled { booted with res.enabled := [(0x10, 3)] } 0x10 3 = true ∧ booted.cast.held = false ∧
    castHeld.cast.trigAt = castHeld.tsk.tick ∧ ({ castHeld with tsk.tick := 7 } : State).cast.trigAt ≠ 7 ∧ castHeld.cast.held = true ∧
    ({ booted with red.role := 1 } : State).red.role = 1 ∧ booted.tsk.activeSrc = 0 ∧
    ({ booted with tsk.activeSrc := 2 } : State).tsk.activeSrc ≠ 0 ∧ (1000 : BitVec 24).toInt.natAbs ≤ 1000 ∧
    1000 < (1001 : BitVec 24).toInt.natAbs ∧ 10000 < (10001 : BitVec 24).toInt.natAbs ∧ (10000 : BitVec 24).toInt.natAbs ≤ 10000 ∧
    pickSource booted = 0 ∧ 2 ≠ pickSource booted ∧
    (let u := { booted with tsk.tbCtrl := 0x00000200, ports.tinUp := true }
     pickSource u = 2 ∧ pickSource { u with tsk.activeSrc := 2 } = 2 ∧ 2 ≠ u.tsk.activeSrc) ∧
    enabled { booted with res.enabled := [(0x21, 0)] } 0x21 0 = true ∧ enabled booted 0x21 0 = false ∧
    crcOpen booted 3 = true ∧ crcPreset (field (0x0500 : W32).toNat 15 8) = some ⟨64, 0x42F0E1EBA9EA3693, 0xFFFFFFFFFFFFFFFF, true, true, 0xFFFFFFFFFFFFFFFF⟩ ∧
    Rising booted.ports.crc ∧ crcOpen { booted with res.claims := [(48, { code := 0x11 })] } 0 = false ∧
    (let s := crcRun 5000; (crcCh s 1).busy = true ∧ enabled s 0x26 1 = true ∧ (crcCh s 1).done ≤ (crcCh s 1).count.toNat ∧
      4096 < (crcCh s 1).count.toNat - (crcCh s 1).done) ∧
    (let s := crcRun 4; (crcCh s 1).busy = true ∧ enabled s 0x26 1 = true ∧ (crcCh s 1).done ≤ (crcCh s 1).count.toNat ∧
      (crcCh s 1).count.toNat - (crcCh s 1).done ≤ 4096 ∧ (crcCh s 1).mode = 0 ∧ Rising s.ports.crc) ∧ (crcCh booted 1).busy = false ∧
    (0x80000000 : W32).getLsbD 31 = true ∧ bitsIn booted 1 0 4096 = false ∧ bitsIn mapped 1 0 4096 = true ∧ Rising mapped.tsk.inBits ∧
    bitsIn mapped 1 7 1 = true ∧ mappedInput mapped 7 = true ∧ Rising mapped.ports.fld.evts ∧ booted.pas.head = false ∧
    Tab.get none booted.pas.known 5 = none ∧
    enabled booted 0x20 0 = true ∧ booted.ports.tinPin ≠ 0xFF ∧ true ≠ booted.ports.tbFlags.getLsbD 0 ∧
    booted.tsk.locked = false ∧ ({ booted with tsk.locked := true } : State).tsk.locked = true ∧
    100000 < (100001 : BitVec 32).toInt.natAbs ∧ (100000 : BitVec 32).toInt.natAbs ≤ 100000 ∧
    ({ booted with ports.tinPin := 0xFF } : State).ports.tinPin = 0xFF := by
  unfold Rising; decide +kernel
theorem witness_RegisterEvents_pps :
    10 * (booted.sys.upTicks + 1 - booted.ports.ppsAt) < booted.ports.ppsWidth.toNat ∧
    (let s : State := { booted with ports.ppsWidth := 10 }; s.ports.ppsWidth.toNat ≤ 10 * (s.sys.upTicks + 1 - s.ports.ppsAt)) := by decide

/-- A packet of RUN_STATUS at version 3.2 with SEQ 1. -/
def pktRun : List Byte := [0xC7, 0x3C, 0x32, 0, 0, 0, 0, 1, 0, 0, 0, 0, 0, 0, 0x04, 0x09, 0, 0, 0, 0]
/-- The checks of a packet that `fragment` makes. -/
def pktGood (b : List Byte) : Bool := decide (20 ≤ b.length) && decide (b.getD 0 0 = 0xC7) && !(b.getD 3 0).getLsbD 7
theorem witness_TransportRows :
    ~~~Config.mac ≠ Config.mac ∧ (1 : BitVec 16) ≠ booted.host.udpPort ∧ portAnswers inRom (.eth 1) = false ∧
    portAnswers q .usb = true ∧ pktGood pktRun = true ∧ 8192 < (packetOf .usb none [0xC7, 0x3C, 0x32, 0, 0, 0, 0, 1, 0, 0, 0, 0, 0, 0, 4, 9, 0xFF, 0xFF, 0, 0]).plen ∧
    (packetOf .usb none pktRun).plen ≤ 8192 ∧ declaredLength pktRun ≤ pktRun.length ∧ (packetOf .usb none pktRun).op ≠ 1 ∧
    pktRun.length - 1 < declaredLength pktRun ∧
    sessionOf booted .usb = none ∧ sessionOf q .usb = some x0s ∧ guardedSession x0s = false ∧
    x0s.cache.find? (·.seq = (packetOf .usb none pktRun).req.seq) = none ∧ x0s.cache.length < 64 ∧ (packetOf .usb none pktRun).more = false ∧
    (packetOf .usb none pktRun).frag = 0 ∧ declaredLength (pktRun ++ beBytes 4 (crc32c pktRun)) = pktRun.length ∧
    declaredLength (pktRun ++ [0, 0, 0, 0]) = pktRun.length ∧ beBytes 4 (crc32c pktRun) ≠ [0, 0, 0, 0] ∧
    supRuns booted = true ∧ supRuns inRom = false ∧ (1 : BitVec 128) ≠ booted.host.hostAddr ∧
    spiServed booted = true ∧ 4 ≤ ({ booted with host.spiIn := [[], [], [], []] } : State).host.spiIn.length ∧
    spiServed inRom = false ∧ booted.host.spiIn = [] ∧ booted.host.spiIn.length < 4 ∧ portAnswers booted .spi = true ∧
    (pktRun.take 19).length < declaredLength (pktRun.take 19) ∧
    (let b := pktRun.set 17 9 ++ List.replicate 8 0; b.length < declaredLength b) ∧
    (let s := { booted with host.spiOut := [[7]] }; spiServed s = true ∧ s.host.spiOut = [7] :: [] ∧ 2 + [(7 : Byte)].length ≤ 3 ∧
      2 < 2 + [(7 : Byte)].length) ∧ spiServed { booted with sys.asleep := true } = false ∧
    (let m : Reassembly := { req := rq, opcode := 0x0401, frags := [] }
     let s := { q with host.sessions := [{ x0s with reasm := [m] }] }
     s.sys.asleep = false ∧ sessionOf s .usb = some { x0s with reasm := [m] } ∧ ({ x0s with reasm := [m] } : Session).reasm.find? (fun m => m.req.seq = 1) = some m) ∧
    booted.sys.hostLink = false ∧ ({ booted with sys.hostLink := true } : State).sys.hostLink = true ∧
    booted.sys.asleep = false ∧ ({ booted with sys.asleep := true } : State).sys.asleep = true := by
  refine ⟨fun h => ?_, by decide +kernel⟩
  have := congrArg (fun v => v.getLsbD 0) h
  simp at this

/-- The next good frames of both directions. -/
def goodDown : List Byte := downBytes { (default : DownFrame) with type := 0x51, ver := 0x11, seq := 5, cfg := List.replicate 20 0 }
def oldDown : List Byte := downBytes { (default : DownFrame) with type := 0x51, ver := 0x11, seq := 4, cfg := List.replicate 20 0 }
def goodUp : List Byte := upBytes { (default : UpFrame) with type := 0x52, ver := 0x11, seq := 3 }
/-- The I/O die has no supply. -/
def unpowered : State := { booted with iod.powered := false }
theorem witness_BarrierRows :
    (List.replicate 20 (0 : Byte)).length = 20 ∧ barrierCrcOk (goodDown.set 4 1) = false ∧
    barrierRuns booted = true ∧ booted.tsk.tick.toNat % 5 = 0 ∧ ({ booted with tsk.tick := 1 } : State).tsk.tick.toNat % 5 ≠ 0 ∧
    barrierRuns inRom = false ∧ booted.iod.powered = true ∧ downGood booted oldDown = false ∧
    downGood booted goodDown = true ∧ upGood booted (goodUp.set 6 1) = false ∧ upGood booted goodUp = true ∧
    Rising booted.tsk.inBits ∧ ({ booted with dio.cfg.flags := 1 } : State).dio.cfg.flags.getLsbD 0 = true ∧
    standby booted = false ∧ booted.dio.cfg.flags.getLsbD 0 = false ∧ booted.dio.up = true ∧
    ({ booted with dio.up := false } : State).dio.up = false ∧ unpowered.iod.powered = false ∧
    ({ booted with iod.out := 1 } : State).iod.out.getLsbD 0 = true ∧ booted.iod.out.getLsbD 0 = false := by
  unfold Rising; decide +kernel
/-- Channel 1 of the safety monitor is on. -/
def safOn : State := { booted with iod.ch1.on := true }
theorem witness_SafetyRows :
    booted.iod.powered = true ∧ booted.sys.boot ≠ .off ∧ ({ booted with sys.boot := .off } : State).sys.boot = .off ∧
    (14 : BitVec 4).getLsbD 0 = false ∧ (13 : BitVec 4).getLsbD 1 = false ∧ (11 : BitVec 4).getLsbD 2 = false ∧
    (7 : BitVec 4).getLsbD 3 = false ∧ filterMs booted.iod.inForce ≤ ({ booted with iod.sdi1.offA := 100 } : State).iod.sdi1.offA ∧
    ({ booted with iod.ch1.fault := true } : State).iod.ch1.fault = true ∧
    safOn.iod.powered = true ∧ (if false then safOn.iod.ch2.on else safOn.iod.ch1.on) = true ∧
    (if true then safOn.iod.ch2.on else safOn.iod.ch1.on) = false ∧ ((0x43 : Byte) ^^^ booted.iod.inForce) &&& 0xBF#8 = 0 ∧
    ((0x13 : Byte) ^^^ booted.iod.inForce) &&& 0xBF#8 ≠ 0 ∧ unpowered.iod.powered = false := by decide +kernel

/-! ## Field and serial ports -/

/-- PLAINLINE and field port 2 enabled; node 5 as given, its entry with both images from 0. -/
def entry5 : PlNode :=
  { (default : PlNode) with node := 5, port := 2, outBits := 1, inBits := 8, inWords := 1, poll := 100, resp := 50, lossLimit := 3 }
/-- The state with node 5 as x. -/
def noded (x : Node) : State :=
  { booted with res.enabled := [(0x10, 2), (0x11, 0)], ports.fld.nodes := [(5, x)], tsk.tick := 100 }
/-- Node 5 is RUNNING with a send point t ticks ago open. -/
def awaited5 (k : Nat) : Node := { entry := some entry5, st := .running, sentAt := some k, await := true, win := true, miss := 2 }
/-- A frame of node 5 of a type, with its check value. -/
def frame5 (type : Nat) : PlFrame :=
  let f := { (default : PlFrame) with port := 2, fcsOk := true, ver := 0x10, node := 5, map := if type = 2 then inMap entry5 else 0,
                                      data := if type = 2 then [0xA5, 0, 0, 7] else [] }
  { f with e2e := BitVec.ofNat 32 (crc32c (plFields type f)) }
/-- The same as recovery kept it, sequence number 9. -/
def copy5 : PlFrame := { frame5 2 with rtag := some (0, 0, 9) }
/-- Field port 2 as f, enabled with its partner of the pair. -/
def ported (f : FPort) : State := { booted with res.enabled := [(0x10, 2), (0x10, 3)], ports.fld.ports := [(2, f)] }
theorem witness_FieldRows_ethernet :
    mdioDriven booted = true ∧ mdioDriven { booted with sys.asleep := true } = false ∧
    Rising booted.ports.fld.ports ∧ enabled booted 0x10 2 = false ∧ enabled (ported {}) 0x10 2 = true ∧
    (default : FieldFrame).fcsOk = false ∧ accepts (ported {}) 2 { (default : FieldFrame) with fcsOk := true } = false ∧
    1522 < ({ (default : FieldFrame) with fcsOk := true, len := 1523 } : FieldFrame).len ∧
    accepts (ported {}) 2 ⟨true, 64, 0x0180C200000E, 0, 0x88F7, none⟩ = true ∧
    (let s := ported { frer := true, streams := [{ dst := 7, vid := 3, last := 9, seen := [9], fill := 1 }] }
     let f (d : BitVec 48) : FieldFrame := ⟨true, 64, d, 3, 0xF1C1, some 9⟩
     accepts s 2 (f 7) = true ∧ enabled s 0x10 2 = true ∧
       (fport s 2).streams.find? (fun y => decide (y.dst = (f 7).dst ∧ y.vid = (f 7).vid)) =
         some { dst := 7, vid := 3, last := 9, seen := [9], fill := 1 } ∧ ((9 : BitVec 16) - 9).toNat < 32 ∧ [(9 : BitVec 16)].contains 9 = true ∧
       accepts s 2 (f 8) = true ∧ (fport s 2).streams.find? (fun y => decide (y.dst = (f 8).dst ∧ y.vid = (f 8).vid)) = none) ∧
    Rising (ported {}).ports.fld.ports ∧ (fport (ported { link := true }) 2).link = true ∧ supRuns (ported {}) = true ∧
    pickSource (ported {}) = (ported {}).tsk.activeSrc ∧
    (fport (ported { gatesNext := some ([(0xFF, 1)], 20000, 1) }) 2).gatesNext = some ([(0xFF, 1)], 20000, 1) ∧
    cycleStart (1 : Tick).toNat 20000 0 = true ∧ cycleStart (1 : Tick).toNat 20000 1 = true ∧ cycleStart (1 : Tick).toNat 20000 3 = true ∧
    cycleStart (9 : Tick).toNat 20000 (ported {}).tsk.tick.toNat = false ∧ cycleStart (1 : Tick).toNat 40000 3 = false ∧
    Rising (ported { gatesNext := some ([(0xFF, 1)], 20000, 1) }).ports.fld.ports ∧
    (fport (ported {}) 2).gatesNext = none := by unfold Rising; decide +kernel
theorem witness_FieldRows_plainline :
    (node booted 5).entry = none ∧
    (let s := noded (awaited5 99); (node s 5).entry = some entry5 ∧ pollDue (node s 5) entry5 100 = false) ∧
    (let s := noded { awaited5 0 with await := false }
     (node s 5).entry = some entry5 ∧ pollDue (node s 5) entry5 s.tsk.tick.toNat = true ∧ (node s 5).st = .running ∧ (node s 5).await = false ∧
       plRuns s entry5 = true ∧ mayTransmit s = true ∧ entry5.flags.getLsbD 1 = false) ∧
    plGood 2 { frame5 2 with data := [0xA5, 0, 0, 8] } = false ∧ plGood 2 { frame5 2 with fcsOk := false } = false ∧ plGood 2 (frame5 2) = true ∧
    (frame5 2).rtag = none ∧ plGood 3 (frame5 3) = true ∧ plGood 4 (frame5 4) = true ∧
    (let s := ported { frer := true, kept := [(0, 0, 9)] }
     plGood 2 copy5 = true ∧ copy5.rtag = some (0, 0, 9) ∧ frerOn s (copy5.port.toNat - copy5.port.toNat % 2) = true ∧
       (fport s (copy5.port.toNat - copy5.port.toNat % 2)).kept.contains (0, 0, 9) = true ∧
       (fport (ported { frer := true }) 2).kept.contains (0, 0, 9) = false) ∧
    (let s := noded (awaited5 60); (node s 5).entry = some entry5 ∧ fromNode entry5 (frame5 2) = true ∧
      fromNode entry5 (frame5 3) = true ∧ fromNode entry5 (frame5 4) = true ∧
      field (frame5 2).map.toNat 31 24 = entry5.layoutRev.toNat ∧
      (frame5 2).cycle = (node s 5).cycle ∧ (node s 5).sentAt = some 60 ∧ (node s 5).win = true ∧ ticksSince 60 s.tsk.tick.toNat < entry5.resp.toNat ∧
      plRuns s entry5 = true ∧ s.red.role ≠ 2 ∧ s.red.role ≠ 4 ∧ (node s 5).st ≠ .lost ∧ Rising s.tsk.inBits ∧ Rising s.tsk.inWords) ∧
    (let s := noded (awaited5 51); (node s 5).entry = some entry5 ∧ (node s 5).sentAt = some 51 ∧ (node s 5).win = true ∧
      entry5.resp.toNat ≤ ticksSince 51 (addTicks s.tsk.tick.toNat 1) ∧ (node s 5).await = true) ∧
    (node (noded { awaited5 51 with await := false }) 5).await = false ∧
    (let s := noded (awaited5 51); enabled s 0x11 0 = true ∧ mayTransmit s = true ∧ nextDiag s = some 5) ∧
    enabled booted 0x11 0 = false := by unfold Rising; decide +kernel

/-- Modbus transactions of port 0: a read of one word from slave 7, and a write at each commit. -/
def tx7 : ModbusTx := { (default : ModbusTx) with slave := 7, fn := 3, count := 1 }
def master : Rs485Cfg := { (default : Rs485Cfg) with master := true, retries := 2, txs := [tx7, { tx7 with fn := 6, onCommit := true }] }
/-- Serial-class port p (0 and 1 RS-485, 2 and 3 M-Bus, 4 and 5 CAN FD) as x, all features of those ports enabled. -/
def serial (p : Nat) (x : Ser) : State :=
  { booted with res.enabled := [(0x12, 0), (0x12, 1), (0x13, 0), (0x13, 1), (0x14, 0), (0x14, 1)], ports.ser := [(p, x)] }
/-- Meter 9 at M-Bus port 0 with a status word at 4. -/
def meter9 : MbusMeter := { (default : MbusMeter) with index := 9, primary := 9, status := some 4 }
def metered (x : Ser) : State := { serial 2 x with ports.meters := [(9, some meter9)] }
/-- CAN FD port 0: a receive object of one word and two transmit objects. -/
def canRx1 : CanRxObj := { (default : CanRxObj) with word := true, count := 1 }
def canTx1 : CanTxObj := { (default : CanTxObj) with dlc := 1 }
def canTx2 : CanTxObj := { (default : CanTxObj) with onCommit := true }
def canCfg : CanCfg := { (default : CanCfg) with rx := [canRx1], tx := [canTx1, canTx2] }
theorem witness_SerialEvents_modbus :
    txOf booted 0 0 = none ∧
    (let s := serial 0 { rs485 := some master }
     txOf s 0 0 = some tx7 ∧ tx7.onCommit = false ∧ tx7.slave ≠ 0 ∧ serSends s 0 = true ∧ (ser s 0).job = none ∧ PortIdle s 0 ∧
       txOf s 0 1 = some { tx7 with fn := 6, onCommit := true }) ∧
    (let s := serial 0 { rs485 := some master, job := some (.modbus 0 [7, 3] 0) }
     (ser s 0).job = some (.modbus 0 [7, 3] 0) ∧ modbusBody [1, 2, 3, 4] = none ∧
       modbusBody (modbusFrame [7, 3, 2, 0, 9]) = some [7, 3, 2, 0, 9] ∧ txOf s 0 0 = some tx7 ∧
       (txResponse tx7 [7, 3, 2, 0, 9] s).isSome = true ∧ PortIdle s 0 ∧ (ser s 0).rs485 = some master ∧ 0 < master.retries.toNat ∧
       mayTransmit s = true ∧ mayTransmit { s with red.role := 4 } = false) ∧
    (let s := serial 0 { rs485 := some master, job := some (.modbus 0 [7, 3] 2) }
     (ser s 0).job = some (.modbus 0 [7, 3] 2) ∧ txOf s 0 0 = some tx7 ∧ (ser s 0).rs485 = some master ∧ master.retries.toNat ≤ 2 ∧ PortIdle s 0) ∧
    (let s := serial 0 { rs485 := some { master with mbox := some 5 }, job := some (.message ⟨1, [7, 6]⟩) }
     (ser s 0).job = some (.message ⟨1, [7, 6]⟩) ∧ mboxOf (ser s 0) = some 5 ∧ PortIdle s 0 ∧ Rising s.tsk.inWords ∧
       standby s = false ∧ standby { s with red.role := 4 } = true) ∧
    (let s := serial 0 { rs485 := some { master with master := false, unitAddr := 7 } }
     (ser s 0).rs485 = some { master with master := false, unitAddr := 7 } ∧ serEnabled s 0 = true ∧ mayTransmit s = true ∧
       modbusBody (modbusFrame [7, 3, 0, 0, 0, 1]) = some [7, 3, 0, 0, 0, 1] ∧ modbusBody (modbusFrame [8, 3, 0, 0]) = some [8, 3, 0, 0] ∧
       modbusBody (modbusFrame [0, 6, 0, 0]) = some [0, 6, 0, 0]) := by
  unfold Rising PortIdle; decide +kernel
theorem witness_SerialEvents_messages :
    serEnabled booted 0 = false ∧ serSends booted 0 = false ∧ standby booted = false ∧
    standby { booted with red.role := 2 } = true ∧
    (let s := serial 0 { queue := [⟨1, [7, 6]⟩] }
     (ser s 0).job = none ∧ serSends s 0 = true ∧ (ser s 0).queue = ⟨1, [7, 6]⟩ :: []) ∧
    (let s := serial 4 { queue := [⟨1, [7, 6]⟩] }; (ser s 4).job = none ∧ serSends s 4 = true ∧ (ser s 4).queue = ⟨1, [7, 6]⟩ :: []) := by
  decide +kernel
theorem witness_SerialEvents_mbus :
    (let s := metered {}; meterOf s 9 = some meter9 ∧ meter9.port = false ∧ serSends s 2 = true ∧ (ser s 2).job = none ∧ PortIdle s 2) ∧
    serSends { metered {} with res.enabled := [] } 2 = false ∧
    (let s := metered { job := some (.meter 9 0 true []) }; (ser s 2).job = some (.meter 9 0 true []) ∧ meterOf s 9 = some meter9) ∧
    (let s := metered { job := some (.meter 9 2 false []) }
     (ser s 2).job = some (.meter 9 2 false []) ∧ meterOf s 9 = some meter9 ∧ meter9.ft3 = false ∧
       ft12Body [0x68, 3, 3, 0x68, 8, 9, 0x10, 0x21, 0x16] = some [8, 9, 0x10] ∧ mbusDecode [8, 9, 0x10] = none ∧ meter9.status = some 4 ∧
       PortIdle s 2 ∧ mayTransmit s = true ∧ Rising s.tsk.inWords) ∧ serEnabled (metered {}) 2 = true ∧
    mayTransmit { metered {} with red.role := 4 } = false ∧ standby (metered {}) = false ∧
    mboxOf { ({} : Ser) with mbus := some { (default : MbusCfg) with mbox := some 5 }, job := some (.message ⟨1, [7]⟩) } = some 5 := by
  unfold Rising PortIdle; decide +kernel
theorem witness_SerialEvents_can :
    serEnabled booted 4 = false ∧
    (let s := serial 4 { can := some canCfg }
     (ser s 4).can = some canCfg ∧ serEnabled s 4 = true ∧ (ser s 4).busOff = false ∧ Rising s.tsk.inWords ∧
       canCfg.rx.find? (fun o => decide (o.ext = false) && decide ((5 : BitVec 29) &&& o.mask = o.ident &&& o.mask)) =
         some canRx1 ∧ 3 * (1 : BitVec 10).toNat ≤ [(1 : Byte), 2, 3].length ∧
       [(1 : Byte), 2].length < 3 * (1 : BitVec 10).toNat ∧ canCfg.tx[(0 : BitVec 5).toNat]? = some canTx1 ∧
       canCfg.tx[(1 : BitVec 5).toNat]? = some canTx2 ∧ canCfg.listen = false ∧ serSends s 4 = true ∧
       (ser s 4).job = none ∧ PortIdle s 4 ∧ canCfg.manual = false) ∧
    (let s := serial 4 { can := some canCfg, job := some (.canTx 0) }; (ser s 4).job = some (.canTx 0) ∧ PortIdle s 4) ∧
    (ser (serial 4 { can := some canCfg, busOff := true }) 4).busOff = true ∧ ({ canCfg with manual := true } : CanCfg).manual = true := by
  unfold Rising PortIdle; decide +kernel

/-! ## The pass ring and the pair -/

/-- HeardRing, as a test. -/
def heardRing (type : Nat) (ack : Bool) (payload : List Byte) (h : RingHdr) (s : State) : Bool :=
  !s.pas.bypass && linkCarries s h type ack payload && h.crcOk && !ownFrame s h && h.other.isNone && !s.pas.seen.contains (srcByte h, type, h.seq) && forMe s h
theorem heardRing_iff {type : Nat} {ack : Bool} {payload : List Byte} {h : RingHdr} {s : State}
    (k : heardRing type ack payload h s = true) : HeardRing type ack payload h s := by
  simp only [heardRing, Bool.and_eq_true, Bool.not_eq_true'] at k
  exact ⟨k.1.1.1.1.1.1, k.1.1.1.1.1.2, k.1.1.1.1.2, k.1.1.1.2, by simpa using k.1.1.2, k.1.2, k.2⟩
/-- WholeRing, as a test. -/
def wholeRing (s : State) : Bool := !s.pas.bypass && (s.pas.eUp && !s.pas.eMgmt) && (s.pas.wUp && !s.pas.wMgmt)
theorem wholeRing_iff {s : State} (k : wholeRing s = true) : WholeRing s := by
  simp only [wholeRing, Bool.and_eq_true, Bool.not_eq_true'] at k
  exact ⟨k.1.1, k.1.2, k.2⟩
/-- HeardSync, as a test. -/
def heardSync (mgmt : Bool) (h : SyncHdr) (s : State) : Bool :=
  s.red.pairEn && supRuns s && s.red.syncUp && h.crcOk && decide (h.src ≠ s.sys.partner) && (!s.red.syncMgmt || mgmt) && !s.red.presuming
theorem heardSync_iff {mgmt : Bool} {h : SyncHdr} {s : State} (k : heardSync mgmt h s = true) : HeardSync mgmt h s := by
  simp only [heardSync, Bool.and_eq_true, decide_eq_true_eq, Bool.not_eq_true', Bool.or_eq_true] at k
  refine ⟨k.1.1.1.1.1.1, k.1.1.1.1.1.2, k.1.1.1.1.2, k.1.1.1.2, k.1.1.2, fun hm => ?_, k.2⟩
  have h2 := k.1.2
  rw [hm] at h2
  simpa using h2

/-- HeardHb, as a test. -/
def heardHb (h : SyncHdr) (s : State) : Bool :=
  s.red.pairEn && supRuns s && fromStep6 s && h.crcOk && decide (h.src ≠ s.sys.partner) && !s.red.presuming
theorem heardHb_iff {h : SyncHdr} {s : State} (k : heardHb h s = true) : HeardHb h s := by
  simp only [heardHb, Bool.and_eq_true, decide_eq_true_eq, Bool.not_eq_true'] at k
  exact ⟨k.1.1.1.1.1, k.1.1.1.1.2, k.1.1.1.2, k.1.1.2, k.1.2, k.2⟩

/-- Member 5 speaks from the west; this module is member 0 of a ring whose links are up. -/
def from5 : RingHdr := { (default : RingHdr) with crcOk := true, src := 5, dst := 0xFF, hops := 1 }
def ringed : State := { booted with pas.bypass := false, pas.eUp := true, pas.wUp := true, pas.ring := 2, pas.basin := 1, pas.members := 0x21, pas.headId := 5 }
theorem witness_RingRows_links :
    booted.pas.eUp = false ∧ booted.pas.wUp = false ∧ ringed.pas.eUp = true ∧ ringed.pas.wUp = true ∧
    ({ booted with pas.eUp := true } : State).pas.eUp = true ∧ ({ booted with pas.eUp := true } : State).pas.wUp = (!true) ∧
    ({ booted with pas.dupId := true } : State).pas.dupId = true ∧ ({ booted with pas.ringEn := false } : State).pas.ringEn = false ∧
    inRom.sys.boot = .rom ∧ booted.sys.boot = .ready ∧
    booted.pas.ringEn = true ∧ booted.pas.dupId = false ∧ negotiate ringRanges [(1, 0, 1)] = some (1, 1) ∧
    negotiate ringRanges [] = none ∧ booted.pas.ring = 0 ∧ booted.pas.bypass = true ∧ ringed.pas.ring ≠ 0 ∧
    ringed.pas.bypass = false ∧
    (let s := { ringed with tsk.tick := 1000 }; wholeRing s = true ∧ basinTick s % 1000 = 0 ∧ s.sys.asleep = false ∧ s.pas.sentRound ≠ some (basinTick s)) := by decide +kernel
/-- DISCOVER with the own RING_ID and another serial number. -/
theorem witness_RingRows_duplicate (d : Discover) :
    foreignSelf { from5 with src := 0 } { d with serial := ~~~Config.serial } ringed = true := by
  have h : decide (~~~Config.serial ≠ Config.serial) = true := by
    rw [decide_eq_true_eq]
    intro h
    have := congrArg (fun v => v.getLsbD 0) h
    simp at this
  have k : ((unlisted { from5 with src := 0 }).isNone && !ringed.pas.bypass && portPasses ringed (!from5.east) true && from5.crcOk && ownFrame ringed { from5 with src := 0 }) = true := by
    decide +kernel
  unfold foreignSelf
  simp only [Bool.and_eq_true] at k ⊢
  exact ⟨k, h⟩
/-- A DISCOVER of member 5, and the state in whose round it comes; the record of its partner index 0 is x. -/
def disc5 : Discover := { (default : Discover) with serial := 7 }
def inRound (x : RingModule) : State :=
  { ringed with pas.round := some 1000, tsk.tick := 1050, pas.memb := [(5, { p0 := x })] }
theorem witness_RingRows_rounds :
    (let h := { from5 with tick := 1000 }
     heardRing 1 false (discoverBytes disc5) h (inRound {}) = true ∧ h.src ≠ ringed.sys.ringId ∧ h.hops ≠ 0 ∧ (inRound {}).pas.ring ≠ 1 ∧
       (inRound {}).pas.round = some h.tick.toNat ∧ reached (addTicks h.tick.toNat 100) (basinTick (inRound {})) = false ∧
       clash true (ringModule (inRound {}) 5 h.srcPart) disc5 = false ∧ clash false (ringModule (inRound {}) 5 (!h.srcPart)) disc5 = false ∧
       clash true (ringModule (inRound { up := true, serial := 3 }) 5 h.srcPart) disc5 = true ∧
       (ringModule (inRound { up := true, serial := 3 }) 5 h.srcPart).serial.toNat < disc5.serial.toNat) ∧
    heardRing 1 false (discoverBytes disc5) { from5 with hops := 0 } ringed = true ∧ disc5.paired = false ∧ ringed.pas.round = none ∧
    (let s := { ringed with pas.round := some 1000, tsk.tick := 1099 }; s.pas.ring ≠ 0 ∧ s.pas.round = some 1000 ∧ Rising s.pas.memb ∧
      reached (addTicks 1000 100) (addTicks (basinTick s) 1) = true) ∧
    (let s := { ringed with pas.round := some 1000, tsk.tick := 1098 }; reached (addTicks 1000 100) (addTicks (basinTick s) 1) = false) ∧
    (let k := { (default : Topology) with head := 5, basin := 1 }
     heardRing 2 false (topologyBytes k) from5 ringed = true ∧ k.epoch = ringed.pas.topoEpoch ∧ k.head = ringed.pas.headId ∧
       k.basin = ringed.pas.basin ∧ (noted 2 false (topologyBytes k) from5 ringed).pas.ring ≠ 1) ∧
    (let k := { (default : Topology) with epoch := 1 }
     heardRing 2 false (topologyBytes k) from5 ringed = true ∧ ringed.pas.topoNext = none ∧ k.epoch ≠ ringed.pas.topoEpoch) ∧
    topologyDue ringed = none ∧
    topologyDue { ringed with pas.topoNext := some (0, default) } = some default ∧ ringed.sys.boot ≠ .forming ∧ ringed.pas.exNext = none := by
  unfold Rising; decide +kernel
theorem witness_RingRows_time :
    (let s := { ringed with pas.head := true }; wholeRing s = true ∧ s.pas.head = true ∧ inBasin s = true ∧ basinTick s % 100 = 0 ∧
      heardRing 3 false (tickSyncBytes 9 4) from5 s = true ∧ from5.src = s.pas.headId ∧
      heardRing 3 false (tickSyncBytes 9 4) { from5 with src := 6 } s = true ∧ (6 : BitVec 6) ≠ s.pas.headId) ∧
    ringed.pas.head = false ∧ heardRing 3 false (tickSyncBytes 9 4) from5 ringed = true ∧
    heardRing 3 false (tickSyncBytes 9 4) from5 { ringed with pas.ring := 1 } = true ∧
    from5.src = ringed.pas.headId ∧ ringed.pas.ring ≠ 1 ∧ ringed.tsk.activeSrc ≠ 4 ∧ ringed.red.role ≠ 3 ∧
    heardRing 3 false (tickSyncBytes 9 4) from5 { ringed with tsk.activeSrc := 4 } = true ∧
    basinTick { ringed with tsk.tick := 1 } % ringed.pas.px.toNat ≠ 0 ∧ basinTick ringed % ringed.pas.px.toNat = 0 ∧
    ringed.pas.lastX ≠ some (basinTick ringed) ∧ Rising ringed.pas.pubs ∧ Rising ringed.pas.pubNext ∧
    (let p : Pub := { valid := true, word := true, count := 1 }
     let s := { ringed with pas.pubs := [(7, p)] }
     wholeRing s = true ∧ basinTick s % s.pas.px.toNat = 0 ∧ s.pas.lastX ≠ some (basinTick s) ∧ s.pas.startAt ≠ some (basinTick s) ∧ ringSpeaker s = true ∧ s.pas.pubNext = [] ∧
       s.pas.pubs = [(7, p)] ∧ p.valid = true ∧ p.susp = false ∧ 0 < (snapshot p s).length ∧ (snapshot p s).length ≤ 1024) := by
  unfold Rising; decide +kernel
theorem witness_RingRows_frames :
    heardRing 0x10 false (regionPayload 63 0 [0, 0, 9]) from5 ringed = true ∧ (63 : Byte).toNat < 64 ∧
    (let s := { ringed with prog.wordReg := [⟨0, 8, 1, 31⟩], pas.subs := [(127, { valid := true, member := 5, region := 63 })] }
     (Tab.get {} s.pas.subs 127).valid = true ∧ (Tab.get {} s.pas.subs 127).member = from5.src ∧
       heardRing 0x10 false (regionPayload 63 0 [0, 0, 9]) from5 s = true ∧ Rising s.pas.known ∧ Rising s.pas.subs ∧
       (Tab.get {} s.pas.subs 127).region.toNat = (63 : Byte).toNat ∧ subFits s true (Tab.get {} s.pas.subs 127).base.toNat (8 : BitVec 17).toNat = true ∧
       reached (addTicks from5.tick.toNat s.pas.d.toNat) (basinTick s) = false) ∧
    heardRing 0x11 false (eventBytes 9) from5 ringed = true ∧ ringed.pas.minor ≠ 0 ∧ (Tab.get {} ringed.pas.evts 9).own = false ∧
    (let s := { ringed with pas.evts := [(9, { (default : PasEvt) with own := true })] }
     heardRing 0x11 false (eventBytes 9) from5 s = true ∧ s.pas.minor ≠ 0 ∧ (Tab.get {} s.pas.evts 9).own = true ∧ from5.src ≠ s.sys.ringId) ∧
    supRuns ringed = true ∧ heardRing 0x20 false (commandBytes 77 5 0 [1, 2]) { from5 with more := true } ringed = true ∧
    heardRing 0x20 false (commandBytes 77 5 0 [1, 2]) from5 ringed = true ∧
    piecesOf ringed 5 77 = [] ∧ ([1, 2] : List Byte).length < 20 ∧ heardRing 0x20 true (commandBytes 77 5 0 []) from5 ringed = true ∧
    2 ≤ ringed.pas.minor.toNat ∧ heardRing 0x30 false (castBytes 5 1) from5 ringed = true ∧
    (let s := { ringed with pas.minor := 1 }; heardRing 0x30 false (castBytes 5 1) from5 s = true ∧ s.pas.minor.toNat < 2 ∧ s.cast.held = false) ∧
    (let s := { ringed with pas.castAt := [1, 2] }; 1 ∈ s.pas.castAt ∧ reached 1 (addTicks (basinTick s) 1) = true ∧ s.cast.held = false) ∧
    (∀ k ∈ ({ ringed with pas.castAt := [2] } : State).pas.castAt, reached k (addTicks (basinTick ringed) 1) = false) ∧
    heardRing 0x40 false (reportBytes default) from5 ringed = true ∧ ringed.pas.head = false ∧
    (let s := { ringed with pas.head := true }; heardRing 0x40 false (reportBytes default) from5 s = true ∧ s.pas.head = true ∧ s.pas.origins = []) ∧
    (∀ o ∈ ({ ringed with pas.origins := [default] } : State).pas.origins,
      reached (addTicks o.t0 101000) (addTicks (basinTick ringed) 1) = false) ∧
    (let s := { ringed with pas.origins := [default], tsk.tick := 100999 }
     s.sys.asleep = false ∧ s.pas.origins.find? (fun o => reached (addTicks o.t0 101000) (addTicks (basinTick s) 1)) = some default) := by unfold Rising; decide +kernel

/-- A partner of a pair, index 1, in a role; both paths and the sync link are up. -/
def partnered (role : BitVec 3) : State :=
  { booted with
    sys.partner := true, red.pairEn := true, red.role := role, red.pathSync := true, red.pathHb := true, red.syncUp := true,
    res.enabled := [(3, 0)], tsk.tick := 500 }
/-- A frame of partner 0 of tick 500. -/
def sync0 : SyncHdr := { (default : SyncHdr) with crcOk := true, tick := 500 }
theorem witness_PairPaths_roles :
    booted.red.role = 0 ∧ (partnered 3).red.role ≠ 0 ∧ supRuns (partnered 3) = true ∧ (partnered 3).red.hbDrop = [] ∧
    (let s := { partnered 3 with red.hbDrop := [2, 4], tsk.tick := 505 }; s.red.hbDrop ≠ [] ∧ s.red.hbDrop.length ≤ 1024 ∧ inSlot s = true) ∧
    (partnered 3).red.pairEn = true ∧
    ({ sync0 with crcOk := false } : SyncHdr).crcOk = false ∧ heardSync true sync0 (partnered 3) = true ∧ heardHb sync0 (partnered 3) = true ∧
    (partnered 3).sys.boot ≠ .roleWait ∧ (partnered 3).red.role ≠ 1 ∧
    heardSync true sync0 (partnered 1) = true ∧ heardHb sync0 (partnered 1) = true ∧ (partnered 1).sys.boot ≠ .roleWait ∧
    (partnered 1).red.role = 1 ∧ epochHigher 1 (partnered 1).red.epoch = true ∧
    (0 : BitVec 16) = (partnered 1).red.epoch ∧ (partnered 1).sys.partner = true ∧ booted.red.pairEn = false ∧
    (partnered 3).red.pathSync = true ∧ (partnered 3).red.pathHb = true ∧ (partnered 3).red.role = 3 ∧
    ({ partnered 3 with red.pathHb := false } : State).red.pathHb = false ∧ pathsLost (partnered 3) = false ∧
    (partnered 3).red.relinquish = false ∧ pathsLost { partnered 3 with red.pathHb := false, red.pathSync := false } = true ∧
    ({ partnered 4 with red.relinquish := true, red.warmTake := true } : State).red.relinquish = true ∧ (partnered 2).red.role = 2 := by
  decide +kernel
theorem witness_PairPaths_rdv :
    ({ (default : Heartbeat) with rdv := ownRdv (partnered 3) } : Heartbeat).rdv = ownRdv (partnered 3) := rfl
theorem witness_PairPaths_links :
    (partnered 3).red.role ≠ 4 ∧
    (let s := { partnered 4 with red.autoPend := true, red.autoResync := true }; s.red.role = 4 ∧ s.red.autoPend = true ∧
      s.red.autoResync = true ∧ syncReady s = true ∧ barred s = none ∧ barred { s with red.rdvMis := true } = some 2) ∧
    enabled booted 3 0 = false ∧ enabled (partnered 3) 3 0 = true ∧ ({ partnered 3 with red.syncUp := false } : State).red.syncUp = false ∧
    (partnered 3).red.syncUp = true ∧ negotiate syncRanges [(1, 0, 0)] = some (1, 0) ∧ negotiate syncRanges [] = none ∧
    (partnered 3).red.role ≠ 2 ∧ (partnered 2).red.role = 2 ∧ barred (partnered 2) = none ∧ heardSync false sync0 (partnered 3) = true ∧
    (let s := { partnered 3 with red.switchAt := some 500 }; s.red.switchAt = some 500 ∧ reached 500 s.tsk.tick.toNat = true ∧ s.red.role = 3) ∧
    (let s := { partnered 1 with red.switchAt := some 500 }; s.red.switchAt = some 500 ∧ reached 500 s.tsk.tick.toNat = true ∧ s.red.role = 1) ∧
    reached 501 (partnered 3).tsk.tick.toNat = false ∧ (partnered 2).red.warmTake = false ∧
    (partnered 3).red.switchAt = none ∧ (partnered 1).red.role = 1 ∧ heardSync true sync0 (partnered 4) = true ∧
    sync0.hb = false ∧ heardHb { sync0 with hb := true } (partnered 3) = true ∧
    20 ≤ (List.replicate 20 (0 : Byte)).length ∧ ((List.replicate 20 (0 : Byte)).getD 3 0).getLsbD 7 = false ∧
    ((List.replicate 20 (0x80 : Byte)).getD 3 0).getLsbD 7 = true ∧ mgmtGroup ((List.replicate 20 (0 : Byte)).getD 14 0).toNat = true ∧
    mgmtGroup ((List.replicate 20 (0x80 : Byte)).getD 14 0).toNat = false ∧
    (partnered 3).pas.executed.find? (fun e => e.1 = 0xFF && e.2.1 = 9) = none ∧ heardSync false sync0 (partnered 3) = true ∧
    ({ partnered 3 with pas.executed := [(0xFF, 9, some [1])] } : State).pas.executed.find? (fun e => e.1 = 0xFF && e.2.1 = 9) =
      some (0xFF, 9, some [1]) ∧ standby (partnered 3) = true ∧ standby (partnered 1) = false ∧ heardSync false sync0 (partnered 1) = true ∧
    ({ partnered 3 with prog.edit := .opened } : State).prog.edit = .opened := by decide +kernel
theorem witness_PairPaths_edit :
    ({ partnered 3 with pas.executed := [(0xFF, 9, none)] } : State).pas.executed.find? (fun e => e.1 = 0xFF && e.2.1 = 9) = some (0xFF, 9, none) ∧
    (editCloseOp (alive (partnered 3))).1 ≠ 0 ∧
    (editCloseOp (alive { partnered 3 with prog.edit := .opened, prog.editBuf := Tab.setRange none [] 0 ((framed 0x5E7C 0 0).map some) })).1 = 0 ∧
    (let s := { partnered 2 with red.relinquish := true }; supRuns s = true ∧ s.red.relinquish = true ∧ s.red.role = 2 ∧ s.red.warmTake = false) := by decide +kernel
/-- Task 3 of a partner has a release in progress. -/
def shared (role : BitVec 3) : State :=
  { partnered role with tsk.tasks := [(3, { st := .running, lt := 500, due := 501 })] }
theorem witness_PairStep_record :
    heardSync false sync0 (partnered 3) = true ∧ (partnered 3).red.role = 3 ∧ sync0.tick = (partnered 3).tsk.tick ∧
    (partnered 3).red.recTick ≠ sync0.tick.toNat ∧ (partnered 3).red.owed = false ∧
    (default : RecordBody).items = [] ∧ ({ sync0 with tick := 9 } : SyncHdr).tick ≠ (partnered 3).tsk.tick ∧
    heardSync false sync0 (partnered 4) = true ∧ (partnered 4).red.role = 4 ∧
    (let s := { partnered 1 with red.hist := [(500, [])] }; heardSync false sync0 s = true ∧ s.red.role = 1 ∧
      s.red.hist.find? (fun e => e.1 = sync0.tick.toNat) = some (500, []) ∧ (14 : Byte).toNat < 15) ∧ (partnered 3).red.role ≠ 1 ∧
    (partnered 3).red.waits.find? (fun w => w.1 = sync0.tick.toNat && w.2.1 = 4) = none ∧
    (let s := { partnered 3 with red.waits := [(500, 4, [1])] }; heardSync false sync0 s = true ∧ s.red.waits = [(sync0.tick.toNat, 4, [1])] ∧
      (1 : W32).toNat = [(1 : Byte)].length ∧ sync0.more = false ∧ ({ sync0 with more := true } : SyncHdr).more = true) ∧
    (partnered 3).red.recTick ≠ (partnered 3).tsk.tick.toNat ∧ (partnered 3).tsk.tick.toNat = ({ partnered 3 with red.recTick := 500 } : State).red.recTick ∧
    (let s := shared 3; s.red.role = 3 ∧ released (task s 3) = true ∧ (task s 3).verdict = none ∧ (task s 3).due = addTicks s.tsk.tick.toNat 1 ∧
      heardSync false sync0 s = true ∧ (task s 3).lt = 500) ∧
    (let s := shared 1; heardSync false sync0 s = true ∧ s.red.role = 1 ∧ released (task s 3) = true ∧ (task s 3).lt = 500) ∧
    (partnered 3).red.ownDig.find? (fun o => o.1 = 3 && o.2.1 = 500) = none ∧
    (let s := { partnered 3 with red.ownDig := [(3, 500, 77)] }; heardSync false sync0 s = true ∧
      s.red.ownDig.find? (fun o => o.1 = 3 && o.2.1 = 500) = some (3, 500, 77)) := by decide +kernel
theorem witness_PairStep_join :
    heardSync false sync0 (partnered 2) = true ∧ (partnered 2).red.role = 2 ∧ heardSync false sync0 (partnered 1) = true ∧
    (partnered 1).red.role ≠ 2 ∧ (partnered 1).red.role ≠ 3 ∧ (partnered 1).red.role = 1 ∧
    barred { alive (partnered 1) with red.rdvMis := false } = none ∧
    (activeBank (partnered 1)).digest ≠ ({ rdv := 0, active := 9, shadow := 0 } : ResyncAsk).active ∧
    (let s := { partnered 1 with red.resync.phase := 3 }; s.red.role = 1 ∧ s.red.syncUp = true ∧ 3 ≤ s.red.resync.phase.toNat ∧
      s.red.resync.join = none ∧ s.red.resync.marked.length ≤ 64) ∧
    (let s := { partnered 1 with red.resync.phase := 3, red.resync.marked := List.range 65 }; 64 < s.red.resync.marked.length ∧
      s.red.resync.round.toNat < 8) ∧ (partnered 2).red.resync.join = none ∧
    (let s := { partnered 2 with red.resync.join := some 500 }; s.red.resync.join = some 500 ∧ s.red.role = 2 ∧
      reached 500 s.tsk.tick.toNat = true ∧ s.red.resync.busy = [] ∧ s.red.resync.joined = []) ∧
    reached 501 (partnered 2).tsk.tick.toNat = false := by decide +kernel
/-- RESYNC_REQUEST with the replica-determinism version of this module, which is a free value. -/
theorem witness_PairStep_rdv : ({ rdv := ownRdv (partnered 1), active := 9, shadow := 0 } : ResyncAsk).rdv = ownRdv (partnered 1) := rfl

/-! ## Whole-machine statements -/

theorem witness_StepRunsFront :
    ({ booted with pending := [.crystalRestart] } : State).pending = .crystalRestart :: [] ∧ booted.pending = [] ∧
    booted.bkd.running = true ∧ ({ booted with bkd.running := false } : State).bkd.running = false ∧ booted.bkd.hold = 0 ∧
    booted.bkd.wdtEn = true ∧ booted.bkd.cStop = false ∧ booted.bkd.vin = true ∧
    booted.bkd.c.toNat < booted.bkd.periodNow.toNat := by decide
theorem witness_ParametersReadBack :
    requestOf (.imgRead rq 1 0xFFFFFF 2728) = some (rq, 0x0201) ∧ wellFormed (.imgRead rq 1 0xFFFFFF 2728) = true ∧
    laidOut (.imgRead rq 1 0xFFFFFF 2728) = true ∧ laidOut (.featureConfig rq 0x25 5 (.gpio 1 2 3)) = true := by decide
theorem witness_WatchdogLimitsKept : WatchdogLimits State.reset ∧ ∃ t, step State.reset = .next t :=
  ⟨⟨by decide, by decide, by decide, by decide, by decide, by decide, by decide⟩, _, rfl⟩

/-! ## Steps against the manual's worked examples -/

/-- The state after a command. -/
def after (i : Instr) (s : State) : State :=
  match exec i s with
  | .next t => t
  | _ => s

/-- The check values over "123456789" (R426). -/
theorem test_presets :
    ([1, 2, 3, 4, 5].map fun k => (crcPreset k).map fun p => crcOf p (ascii "123456789")) =
      [some 0xCBF43926, some 0xE3069283, some 0x4B37, some 0xC2B7, some 0x995DC9BBDF1939FA] := by decide +kernel
/-- The request 01 03 00 00 00 0A is followed by C5 CD (R415). -/
theorem test_modbus_crc : modbusFrame [0x01, 0x03, 0x00, 0x00, 0x00, 0x0A] = [0x01, 0x03, 0x00, 0x00, 0x00, 0x0A, 0xC5, 0xCD] := by
  decide +kernel
/-- The contested pin: CAST_IN at MFP0, which TIMEBASE holds (R33, R37, R38). -/
theorem test_contested_pin :
    let t := after (.enableBitWrite 0x21 0) { booted with cast.pinSel := 0, cast.pinEn := false, res.enabled := [(0x01, 0), (0x20, 0)] }
    enabled t 0x21 0 = false ∧ viewRes t 0 = 0x803C2000 ∧ viewRes t 4 = 0x00002100 := by decide +kernel
/-- The header of UNIT_STATUS to FEN of partner 1 of member 5 (R283 to R286). -/
theorem test_header :
    let p := packetOf .usb none [0xC7, 0x03, 0x02, 0x40, 0, 0, 0x1F, 0x42, 0x62, 0x82, 0x10, 0, 0, 0, 0x01, 0x02, 0, 0, 0, 0]
    p.req.hops = [5, 1, 2] ∧ p.req.seq = 0x1F42 ∧ p.op = 0x0102 ∧ p.req.major = 3 ∧ p.req.minor = 2 ∧ p.req.auth = true := by decide +kernel
/-- Calendar writes: the seconds that are committed, and the dates that are refused (R478). -/
theorem test_calendar :
    (after (.timeSet rq (.calendar 2000 2 29 0 0 0)) q).bkd.setSec = 0x004DC880 ∧
    (after (.timeSet rq (.calendar 2100 3 1 12 0 0)) q).bkd.setSec = 0xBC6784C0 ∧
    (after (.timeSet rq (.calendar 2135 12 31 23 59 59)) q).bkd.setSec = 0xFFCEDD7F ∧
    dateOk 2100 2 29 0 0 0 = false ∧ dateOk 2136 1 1 0 0 0 = false ∧ dateOk 2024 6 31 8 0 0 = false ∧ dateOk 2024 6 30 23 59 60 = false := by
  decide +kernel
/-- Row t5 of the watchdog's example: a second service at C = 1, before WOPEN 1,639 (R486, R493). -/
theorem test_double_service :
    let s := { booted with bkd.period := 3277, bkd.periodNow := 3277, bkd.wopen := 1639, bkd.wopenNow := 1639, bkd.c := 1,
                                bkd.armed := 0x21, bkd.wdtLock := true }
    let t := after .wdtService s
    t.bkd.evValid = true ∧ t.bkd.evArmed = 0x21 ∧ t.bkd.evSeen = 0 ∧ t.bkd.evCause = 2 ∧ t.cast.held = true ∧ t.bkd.cStop = true := by
  decide +kernel
/-- The heating curve: −7.3 °C gives 65.5 °C, 18.0 °C gives 45.0 °C and −25.0 °C gives 75.0 °C (R220). -/
def curve (c : W24) : State :=
  let s := swm [0, c] [0b01110011_10000_00011_10001_0, 0x103000] false
  { s with tsk.tasks := [(0, { snapWords := [(0x103000, 4), (0x103001, 0xFFFF38), (0x103002, 0x2EE), (0x103004, 0x258), (0x103005, 0x64),
                                             (0x103006, 0x1F4), (0x103007, 0x96), (0x103008, 0x1C2)] })] }
theorem test_heating_curve :
    regOf (exec (.lookup 0) (curve 0xFFFFB7)) 0 = 655 ∧ regOf (exec (.lookup 0) (curve 180)) 0 = 450 ∧
    regOf (exec (.lookup 0) (curve 0xFFFF06)) 0 = 750 := by decide +kernel
/-- The customer sum: WSUM S0, 0x100, S1 over three words (R242 to R246). -/
def wsum : State :=
  let s := swm [0, 3] [0b11100000_10000_00011_10001_0, 0x100] false
  { s with
    tsk.tasks := [(0, { snapWords := [(0x100, 7), (0x101, 0xFFFFFE), (0x102, 20)] })],
    prog.bank0.decs := [(0, 0xF5410000)],
    prog.bank0.ucode := Tab.setRange 0 [] 0x40 [0x28000000, 0x0A120000, 0x2C000000, 0x8F200000, 0x9980004A, 0x1E4A0000, 0x30600000, 0x2E000001,
      0x35600000, 0xA8000043, 0xD0000000, 0x10030000] }
theorem test_customer_sum :
    let o := exec (.customerOpcode 0) wsum
    regOf o 0 = 25 ∧ (runOf o).pc = 2 ∧ (runOf o).trap = none := by decide +kernel
/-- The send point of tick 600,000 carries CYCLE 0x0009_27C0 (R405, R408). -/
theorem test_send_point :
    let s := { noded { entry := some entry5, st := .running } with tsk.tick := 600000 }
    (node (after (.plPollExpiry 5) s) 5).cycle = 0x000927C0 := by decide +kernel
/-- The line bytes of the publications of the example (R347). -/
theorem test_line_bytes :
    pubBytes { valid := true, count := 4096 } = 544 ∧ pubBytes { valid := true, word := true, count := 2000 } = 6192 ∧
    pubBytes { valid := true, word := true, count := 600 } = 1864 := by decide +kernel
/-- The demand with manual restart: SDI1 opens for longer than the filter, with LINK both channels go off and need a restart (R462, R463). -/
theorem test_linked_demand :
    let s := { booted with iod.inForce := 0x3B, iod.now := 0x3B, iod.ch1.on := true, iod.ch2.on := true, iod.sdi1.offA := 10, iod.sdi1.offB := 10 }
    let d := (after (.safCycle { sdi := 12, rst := false, sto := 3 }) s).iod
    d.ch1.demand = true ∧ d.ch2.demand = true ∧ d.ch1.on = false ∧ d.ch2.on = false ∧ d.ch1.restart = true ∧ d.ch2.restart = true := by
  decide +kernel
/-- An edge of the crystal clock counts the RTC and the watchdog while VIN is present (R474, R485). -/
theorem test_clock_edge :
    (match step State.reset with | .next t => (t.bkd.rtc, t.bkd.c) | _ => (0, 0)) = (1, 1) := by decide +kernel

end Sys2Proof.Tests
end

section
/-! The way of a request (R292, R293): a command that a quiet session brings is admitted, counted and run at its unit. -/

namespace Sys2Proof.Proofs

open Sys2Proof.Machine Sys2Proof.Safety

/-- Every command row is a request at its session, under its own opcode (R283, R293). -/
theorem exec_of_requestOf {i : Instr} {r : Req} {op : BitVec 16} (s : State) (h : requestOf i = some (r, op)) :
    exec i s = .next (request r op (.inr i) s) ∧ op ≠ 1 := by
  unfold requestOf at h
  split at h <;> cases h <;> exact ⟨rfl, by decide⟩

/-- The session that is found at an endpoint is one of that endpoint. -/
theorem ep_of_sessionOf {s : State} {ep : Endpoint} {x : Session} (h : sessionOf s ep = some x) : x.ep = ep := by
  simpa using List.find?_some h

/-- A request that its session can take passes the steps 4 to 7 of R293 and is admitted (R294). -/
theorem request_of_quiet {s : State} {x : Session} {r : Req} {op : BitVec 16} {i : Instr} {c : Ctx} (q : Quiet s x r op i c)
    (hop : op ≠ 1) : request r op (.inr i) s = settle (admitTo r op i x s) := by
  have hauth : ¬ (guardedSession x = true ∧ (!r.auth) = true) := by
    rintro ⟨g, a⟩
    rw [(q.tagged g).1] at a
    cases a
  have hwin : ¬ (guardedSession x = true ∧ (!inWindow x r.seq) = true) := by
    rintro ⟨g, a⟩
    rw [(q.tagged g).2] at a
    cases a
  simp only [request, q.answers, q.session, Bool.not_true, Bool.false_eq_true, if_false, if_neg hauth, passSeq, q.counts, q.fresh,
    if_neg hwin, enter, if_neg hop, admitRequest, cacheRoom, if_pos q.room]
  rfl

/-- The sessions of the state in which the request is admitted: the one of its endpoint holds it in its queue. -/
def admittedSession (r : Req) (op : BitVec 16) (i : Instr) (x y : Session) : Session :=
  if y.ep = r.ep then { noteSeq r.seq y with
    cache := x.cache ++ [{ seq := r.seq, req := r, opcode := op, reply := none }], queue := y.queue ++ [(r, op, .inr i)] } else y

theorem admitTo_sessions (r : Req) (op : BitVec 16) (i : Instr) (x : Session) (s : State) :
    (admitTo r op i x s).host.sessions = s.host.sessions.map (admittedSession r op i x) := rfl

theorem admittedSession_waiting (r : Req) (op : BitVec 16) (i : Instr) (x y : Session) :
    (admittedSession r op i x y).waiting = y.waiting := by
  unfold admittedSession; split <;> rfl

/-- A session that waits for no reply makes no move, and one that holds no request has none to run. -/
theorem sessionMoves_eq_none {x : Session} {s : State} (h : x.waiting = none) : sessionMoves x s = none := by
  simp [sessionMoves, h]

theorem pump_eq_none {x : Session} {s : State} (h : x.queue = []) : pump x s = none := by
  unfold pump; rw [h]; split <;> simp_all

/-- The first session found at an endpoint, with nothing to run before it, is the one whose request runs next (R292). -/
theorem findSome?_pump_admitted {r : Req} {op : BitVec 16} {i : Instr} {x : Session} {t : State} (l : List Session)
    (hf : l.find? (·.ep = r.ep) = some x) (hq : ∀ y ∈ l, y.queue = []) (hp : (pump (admittedSession r op i x x) t).isSome) :
    (l.map (admittedSession r op i x)).findSome? (fun y => pump y t) = pump (admittedSession r op i x x) t := by
  induction l with
  | nil => cases hf
  | cons y l ih =>
    rw [List.map_cons, List.findSome?_cons]
    by_cases he : y.ep = r.ep
    · have hy : y = x := by simpa [List.find?_cons, he] using hf
      subst hy
      obtain ⟨u, hu⟩ := Option.isSome_iff_exists.mp hp
      rw [hu]
    · have hn : pump (admittedSession r op i x y) t = none :=
        pump_eq_none (by rw [admittedSession, if_neg he]; exact hq y (by simp))
      rw [hn]
      exact ih (by simpa [List.find?_cons, he] using hf) fun z hz => hq z (by simp [hz])

/-- The state in which the admitted request runs: it has left the queue of its session. -/
def dequeued (r : Req) (op : BitVec 16) (i : Instr) (x : Session) (s : State) : State :=
  updSession r.ep (fun y => { y with queue := [] }) (admitTo r op i x s)

/-- Step 9 to 14 of R293 at the unit that the path leads to: the command is counted and run. -/
theorem serveFrom9_of_quiet {s : State} {x : Session} {r : Req} {op : BitVec 16} {i : Instr} {c : Ctx} (q : Quiet s x r op i c) :
    serveFrom9 (admittedSession r op i x x) r op (.inr i) (dequeued r op i x s) =
      runCmd c r.seq i (taken r op i x s) := by
  have hep : x.ep = r.ep := ep_of_sessionOf q.session
  obtain ⟨hmgmt, hmaj, hmin⟩ := q.version
  obtain ⟨hproved, hfree⟩ := q.rights
  obtain ⟨hwhom, hbasin⟩ := q.reached
  have hc : c = { whom := .session r.ep, kind := c.kind, idx := c.idx, unit := c.unit, basin := inBasin s && decide (r.ep ≠ .usb) } := by
    cases c; simp_all
  have hplace : placeRequest r op.toNat (dequeued r op i x s) = .unit c.kind c.idx c.unit := q.place
  have hboot : (dequeued r op i x s).sys.boot = .ready := q.started
  have hhere : sendsOn c.kind r i (taken r op i x s) = none := q.here
  have hspread : spreads r = false := by simp [spreads, q.single]
  have hcount : countAt r op (.unit c.kind c.idx c.unit) (dequeued r op i x s) = taken r op i x s := by
    simp only [countAt, q.known, if_true]; rfl
  have h12 : serveFrom12 (.session r.ep) r op (.inr i) (dequeued r op i x s) = runCmd c r.seq i (taken r op i x s) := by
    simp only [serveFrom12, hplace, notReady, hboot, if_true, Bool.false_eq_true, if_false, hspread, hcount, serveAt, q.known,
      Bool.not_true, bodyCmd, hhere]
    rw [hc]; rfl
  have hx : admittedSession r op i x x = { noteSeq r.seq x with
    cache := x.cache ++ [{ seq := r.seq, req := r, opcode := op, reply := none }], queue := x.queue ++ [(r, op, .inr i)] } := if_pos hep
  have h3 : ¬ ((!x.proved) = true ∧ ¬ r.ep = .usb ∧ (!freeSet op.toNat) = true) := by
    rintro ⟨hp, hu, hs⟩
    rcases hfree (by simpa using hp) with h | h
    · exact hu (hep.symm.trans h)
    · simp [h] at hs
  have h5 : ¬ (x.proved = true ∧ (!permitted x.role.toNat op.toNat) = true) := by
    rintro ⟨hp, hs⟩
    simp [hproved hp] at hs
  rw [hx]
  simp only [serveFrom9, noteSeq, hmgmt, hmaj, hmin, ne_eq, not_true_eq_false, or_self, and_false, if_false, if_neg h3, if_neg h5,
    Bool.false_eq_true, false_and, hep, h12]

/-- The request of a quiet session is what goes on first (R292). -/
theorem settleOne_admitTo {s : State} {x : Session} {r : Req} {op : BitVec 16} {i : Instr} {c : Ctx} (q : Quiet s x r op i c) :
    settleOne (admitTo r op i x s) = some (conclude (.session r.ep) r op (runCmd c r.seq i (taken r op i x s))) := by
  have hep : x.ep = r.ep := ep_of_sessionOf q.session
  obtain ⟨hremote, hwaiters⟩ := q.calm
  have hidle : ∀ y ∈ s.host.sessions, y.waiting = none ∧ y.queue = [] := by
    simpa [List.all_eq_true] using q.idle
  have hmem : x ∈ s.host.sessions := List.mem_of_find?_eq_some q.session
  have hmoves : (admitTo r op i x s).host.sessions.findSome? (fun y => sessionMoves y (admitTo r op i x s)) = none := by
    rw [admitTo_sessions, List.findSome?_eq_none_iff]
    intro y hy
    obtain ⟨z, hz, rfl⟩ := List.mem_map.mp hy
    exact sessionMoves_eq_none ((admittedSession_waiting ..).trans (hidle z hz).1)
  have hrem : (admitTo r op i x s).host.remote = [] := hremote
  have hfirm : firmwareMoves (admitTo r op i x s) = none := by
    have : (admitTo r op i x s).depot.waiters = [] := hwaiters
    simp [firmwareMoves, this]
  have hans : portAnswers (admitTo r op i x s) x.ep = true := by rw [hep]; exact q.answers
  have hpump : pump (admittedSession r op i x x) (admitTo r op i x s) =
      some (conclude (.session r.ep) r op (runCmd c r.seq i (taken r op i x s))) := by
    have hw : (admittedSession r op i x x).waiting = none := (admittedSession_waiting ..).trans (hidle x hmem).1
    have he : (admittedSession r op i x x).ep = r.ep := by rw [admittedSession, if_pos hep]; exact hep
    have hq : (admittedSession r op i x x).queue = [(r, op, .inr i)] := by
      rw [admittedSession, if_pos hep]; simp [(hidle x hmem).2]
    rw [hep] at hans
    have hserve := serveFrom9_of_quiet q
    unfold dequeued at hserve
    simp only [pump, hw, hq, he, hans, if_true, hserve]
  simp only [settleOne, hmoves, hrem, hfirm, List.length_nil, List.range_zero, List.findSome?_nil, Option.orElse_eq_orElse,
    Option.orElse_eq_or, Option.none_or]
  rw [admitTo_sessions, findSome?_pump_admitted _ q.session (fun y hy => (hidle y hy).2) (by rw [hpump]; rfl), hpump]

/-- A command of a quiet session is run at its unit in the state that has admitted and counted it, its answer is given, and what else
can go on does (R292 to R294). -/
theorem exec_of_quiet {i : Instr} {s : State} {x : Session} {r : Req} {op : BitVec 16} {c : Ctx} (h : requestOf i = some (r, op))
    (q : Quiet s x r op i c) :
    exec i s = .next (goOn (settleBound (admitTo r op i x s) - 1)
      (conclude (.session r.ep) r op (runCmd c r.seq i (taken r op i x s)))) := by
  obtain ⟨hexec, hop⟩ := exec_of_requestOf s h
  have hb : settleBound (admitTo r op i x s) = settleBound (admitTo r op i x s) - 1 + 1 := by
    have : 0 < settleBound (admitTo r op i x s) := by unfold settleBound; omega
    omega
  have hn : settleN (settleBound (admitTo r op i x s)) (admitTo r op i x s) =
      settleN (settleBound (admitTo r op i x s) - 1) (conclude (.session r.ep) r op (runCmd c r.seq i (taken r op i x s))) := by
    rw [hb, settleN, settleOne_admitTo q]
    rfl
  rw [hexec, request_of_quiet q hop, settle, hn]
  rfl

/-- What a command does at its unit is what the module answers to it (R293). -/
theorem serves_of_runCmd {i : Instr} {P : Ctx → State → Prop} {f : Ctx → State → Ans}
    (h : ∀ c seq t, P c t → runCmd c seq i t = f c t) : Serves i P f := by
  intro s x r op c hr q hP
  rw [exec_of_quiet hr q, h c r.seq _ hP]

end Sys2Proof.Proofs
end

section
/-! The commands of the features, the local I/O, the cast and the registers, and the state after reset. -/

namespace Sys2Proof.Proofs

open Sys2Proof.Machine Sys2Proof.Safety

/-! ## Features (R32, R34, R316) -/

/-- FEATURE_CONFIG takes the settings that pass their checks, and else answers with the status of the check that failed. -/
theorem cmdFeatureConfig_of_apply {k n : Byte} {st : Settings} {t u : State} {e : BitVec 16}
    (h : applySettings k.toNat n.toNat st t = (e, u)) :
    cmdFeatureConfig k n st t = if e = 0 then (noteSettings (.settings k n st) u, 0, [], none) else (u, e, [], none) := by
  unfold cmdFeatureConfig
  rw [h]
  by_cases he : e = 0 <;> simp [he, ok, no]

theorem featureKnown_of_lt {k n : Nat} (h : n < featureCount k) : featureKnown k n = true := decide_eq_true h

/-- FEATURE_ENABLE of a feature that a command may enable gives the claim's outcome (R32, R316). -/
theorem cmdFeatureEnable_of_enable {k n : Byte} {t u : State} {q : Option Nat} (hn : n.toNat < featureCount k.toNat)
    (hf : featureFree k.toNat = true) (hk : k.toNat ≠ 0x21) (h : enableFeature k.toNat n.toNat t = (u, q)) :
    cmdFeatureEnable k n t = match q with
      | none => (if enabled t k.toNat n.toNat then u else noteSettings (.enable k n true) u, 0, [], none)
      | some q => (u, 0x13, [BitVec.ofNat 8 q, (claimAt u q).code, (claimAt u q).inst, 0], none) := by
  simp only [cmdFeatureEnable, featureKnown_of_lt hn, hf, Bool.not_true, Bool.false_eq_true, hk, false_and, or_self, if_false, h]
  cases q <;> rfl

theorem cmdFeatureDisable_of_known {k n : Byte} (t : State) (hn : n.toNat < featureCount k.toNat) (hf : featureFree k.toNat = true) :
    cmdFeatureDisable k n t = (noteSettings (.enable k n false) (disableFeature k.toNat n.toNat t), 0, [], none) := by
  simp [cmdFeatureDisable, featureKnown_of_lt hn, hf, ok]

theorem cmdFeatureStatus_of_known {k n : Byte} (t : State) (hn : n.toNat < featureCount k.toNat) :
    cmdFeatureStatus k n t = (t, 0, [if enabled t k.toNat n.toNat then 1 else 0] ++ statusBlock k.toNat n.toNat t, none) := by
  simp only [cmdFeatureStatus, featureKnown_of_lt hn, Bool.not_true, Bool.false_eq_true, if_false, ok]
  cases enabled t k.toNat n.toNat <;> rfl

/-- Settles O35: what each command answers at its unit, by the branches of its row. -/
theorem featureAndIoCommands : Obligations.FeatureAndIoCommands := by
  unfold Obligations.FeatureAndIoCommands
  refine ⟨fun r k n st u => ?_, fun r k n st u e he => ?_, fun r k n hn hf hk => ⟨fun u => ?_, fun u q => ?_, ?_⟩,
    fun r k n hn => ?_, fun r => ?_, fun r => ?_, fun r b => ?_, fun r => ?_⟩ <;> refine serves_of_runCmd fun c seq t hP => ?_
  · exact (cmdFeatureConfig_of_apply hP).trans (if_pos rfl)
  · exact (cmdFeatureConfig_of_apply hP).trans (if_neg he)
  · exact cmdFeatureEnable_of_enable hn hf hk hP
  · exact cmdFeatureEnable_of_enable hn hf hk hP
  · exact cmdFeatureDisable_of_known t hn hf
  · exact cmdFeatureStatus_of_known t hn
  · rfl
  · rfl
  · rfl
  · rfl

/-! ## Casts and registers (R42, R46, R318, R319) -/

/-- A trigger while a cast is held counts a miss, unless it comes on the edge of the held trigger, where it adds its source (R46). -/
theorem raiseCast_of_held {src : Nat} {s : State} (h : s.cast.held = true) :
    raiseCast src s = if sameSupEdge src s then { s with cast.source := s.cast.source ||| BitVec.ofNat 6 (2 ^ src), free := s.free + 1 }
      else { s with cast.missed := satInc s.cast.missed, cast.missedTotal := satInc s.cast.missedTotal, free := s.free + 1 } := by
  simp [raiseCast, h]

/-- A trigger while no cast is held latches every cast copy (R42). -/
theorem raiseCast_of_armed {src : Nat} {s : State} (h : s.cast.held = false) :
    raiseCast src s = { s with
      cast.held := true, cast.trigAt := s.tsk.tick, cast.source := s.cast.source ||| BitVec.ofNat 6 (2 ^ src),
      cast.count := satInc s.cast.count, cast.copies := (castCopies s).foldl (fun t e => Tab.set 0 t e.1 e.2) s.cast.copies,
      free := s.free + 1 } := by
  simp [raiseCast, h]

theorem cmdCastNow_zero (s : State) : cmdCastNow 0 s = (raiseCast 0 s, 0, [], none) := rfl

theorem cmdCastNow_one_alone {s : State} (h : inBasin s = false) : cmdCastNow 1 s = (s, 0x10, [], none) := by
  simp [cmdCastNow, h, no]

/-- A count within its limits, at a place that the unit reaches, is refused by no check (R600). -/
theorem not_refused_of_count {n : BitVec 16} {m : Nat} {p : Bool} (h1 : 1 ≤ n.toNat) (h2 : n.toNat ≤ m) (hp : p = true) :
    ¬ (n = 0 ∨ m < n.toNat ∨ (!p) = true) := by
  rintro (rfl | h | h)
  · exact absurd h1 (by decide)
  · omega
  · simp [hp] at h

theorem flatMap_congr_of_mem {α β : Type} {f g : α → List β} {l : List α} (h : ∀ a ∈ l, f a = g a) : l.flatMap f = l.flatMap g := by
  rw [List.flatMap_def, List.flatMap_def, List.map_congr_left h]

/-- CAST_READ of a held cast, of registers that lie within their block, gives the cast register and the copies (R318, R610). -/
theorem cmdCastRead_of_held {c : Ctx} {b : W32} {o n : BitVec 16} {s : State} (hb : blockBase b.toNat = true) (h1 : 1 ≤ n.toNat)
    (h2 : n.toNat ≤ 2047) (ho : o.toNat % 4 = 0) (hlen : o.toNat + 4 * n.toNat ≤ 0x800) (hu : c.unit = none ∨ c.unit = some 0)
    (hh : s.cast.held = true) :
    cmdCastRead c b o n s = (s, 0, beBytes 4 (peek s 0x40000).toNat ++ (List.range n.toNat).flatMap fun k =>
      beBytes 4 (Tab.get 0 s.cast.copies (0x800 * (b.toNat / 65536) + o.toNat + 4 * k)).toNat, none) := by
  have hoff : o.toNat / 4 * 4 = o.toNat := by omega
  have hreg : ∀ k ∈ List.range n.toNat,
      beBytes 4 (if o.toNat + 4 * k < 0x800 then Tab.get 0 s.cast.copies (0x800 * (b.toNat / 65536) + o.toNat + 4 * k) else 0).toNat =
      beBytes 4 (Tab.get 0 s.cast.copies (0x800 * (b.toNat / 65536) + o.toNat + 4 * k)).toNat := by
    intro k hk
    have := List.mem_range.mp hk
    rw [if_pos (by omega)]
  rw [← flatMap_congr_of_mem hreg]
  unfold cmdCastRead
  rcases hu with h | h <;>
    simp only [h, or_true, decide_true, Bool.not_true, Bool.false_eq_true, or_false, if_neg (not_refused_of_count h1 h2 hb),
      hh, if_false, ok, hoff, Nat.reducePow]

theorem cmdRegRead_of_reached {c : Ctx} {a : W32} {n : BitVec 16} (s : State) (h1 : 1 ≤ n.toNat) (h2 : n.toNat ≤ 2048)
    (h : unitReaches c.unit a.toNat n.toNat = true) :
    cmdRegRead c a n s =
      ((readRegs a.toNat n.toNat s).2, 0, (readRegs a.toNat n.toNat s).1.flatMap fun v => beBytes 4 v.toNat, none) := by
  simp only [cmdRegRead, if_neg (not_refused_of_count h1 h2 h), ok]

theorem cmdRegWrite_of_reached {c : Ctx} {a : W32} {n : BitVec 16} {v : List W32} (s : State) (h1 : 1 ≤ n.toNat) (h2 : n.toNat ≤ 2048)
    (hv : v.length = n.toNat) (h : unitReaches c.unit a.toNat n.toNat = true) :
    cmdRegWrite c a n v s = (writeRegs a.toNat v s, 0, [], none) := by
  simp only [cmdRegWrite, hv, ne_eq, not_true_eq_false, if_neg (not_refused_of_count h1 h2 h), if_false, ok]

/-- Settles O36: what each command answers at its unit, with the trigger in the cases of R46. -/
theorem castAndRegisterCommands : Obligations.CastAndRegisterCommands := by
  unfold Obligations.CastAndRegisterCommands
  refine ⟨fun r => ?_, fun r => ?_, fun r => ?_, fun r => ?_, fun r => ?_, fun r b o n hb h1 h2 ho hlen => ?_, fun r a n h1 h2 => ?_,
    fun r a n v h1 h2 hv => ?_⟩ <;> refine serves_of_runCmd fun c seq t hP => ?_
  · have h := (raiseCast_of_held (src := 0) hP.1).trans (if_neg (by simp [hP.2]))
    exact (cmdCastNow_zero t).trans (by rw [h])
  · have h := (raiseCast_of_held (src := 0) hP.1).trans (if_pos hP.2)
    exact (cmdCastNow_zero t).trans (by rw [h]; rfl)
  · exact (cmdCastNow_zero t).trans (by rw [raiseCast_of_armed hP]; rfl)
  · exact cmdCastNow_one_alone hP
  · rfl
  · exact cmdCastRead_of_held hb h1 h2 ho hlen hP.1 hP.2
  · exact cmdRegRead_of_reached t h1 h2 hP
  · exact cmdRegWrite_of_reached t h1 h2 hv hP

/-! ## The state after reset -/

theorem reset_watchdogLimits : WatchdogLimits State.reset :=
  ⟨⟨by decide, by decide⟩, by decide, ⟨by decide, by decide⟩, ⟨by decide, by decide⟩, by decide, ⟨by decide, by decide, by decide⟩,
    ⟨by decide, by decide, by decide⟩⟩

/-- Settles O60: the reset state is one state, and each value is read off it. -/
theorem resetValues : Obligations.ResetValues := by
  unfold Obligations.ResetValues
  refine ⟨?_, ?_, ?_, ?_, ?_, ?_, ?_, ?_, ?_, ?_, ?_, ?_, ?_, ?_, ?_, ?_, ?_, ?_, ?_, ?_, ?_, ?_, ?_, ?_, ?_, reset_watchdogLimits⟩ <;>
    decide +kernel

end Sys2Proof.Proofs
end

section
/-! SUPPORT. What the operations of a tick edge and of start-up leave of the tick counter and of the memories of the task system:
`Keeps.image` says of an operation that it changes neither; the operations on the images, the latches and the output copies
keep the tick counter alone. -/

namespace Sys2Proof.Proofs

open Sys2Proof.Machine Sys2Proof.Safety Sys2Proof.Laws

/-- The tick counter, the images, the latches of the inputs and the copies of the outputs are the same in both states. -/
@[simp] abbrev Keeps.image (s t : State) : Prop :=
  t.tsk.tick = s.tsk.tick ∧ t.tsk.bits = s.tsk.bits ∧ t.tsk.words = s.tsk.words ∧ t.tsk.inBits = s.tsk.inBits ∧
  t.tsk.inWords = s.tsk.inWords ∧ t.tsk.outBits = s.tsk.outBits ∧ t.tsk.outWords = s.tsk.outWords

@[simp] theorem foldl_tick {α : Type} (f : State → α → State) (l : List α) (s : State) (h : ∀ s a, (f s a).tsk.tick = s.tsk.tick) :
    (l.foldl f s).tsk.tick = s.tsk.tick := foldl_keeps (·.tsk.tick) f h l s
@[simp] theorem foldl_fst_tick {α β : Type} (f : State × β → α → State × β) (l : List α) (p : State × β)
    (h : ∀ p a, (f p a).1.tsk.tick = p.1.tsk.tick) : (l.foldl f p).1.tsk.tick = p.1.tsk.tick := foldl_keeps (·.1.tsk.tick) f h l p
@[simp] theorem ite_tick (c : Prop) [Decidable c] (s t : Tsk) : (if c then s else t).tick = if c then s.tick else t.tick :=
  apply_ite (·.tick) c s t
@[simp] theorem ite_bits (c : Prop) [Decidable c] (s t : Tsk) : (if c then s else t).bits = if c then s.bits else t.bits :=
  apply_ite (·.bits) c s t
@[simp] theorem ite_words (c : Prop) [Decidable c] (s t : Tsk) : (if c then s else t).words = if c then s.words else t.words :=
  apply_ite (·.words) c s t
@[simp] theorem ite_inBits (c : Prop) [Decidable c] (s t : Tsk) : (if c then s else t).inBits = if c then s.inBits else t.inBits :=
  apply_ite (·.inBits) c s t
@[simp] theorem ite_inWords (c : Prop) [Decidable c] (s t : Tsk) : (if c then s else t).inWords = if c then s.inWords else t.inWords :=
  apply_ite (·.inWords) c s t
@[simp] theorem ite_outBits (c : Prop) [Decidable c] (s t : Tsk) : (if c then s else t).outBits = if c then s.outBits else t.outBits :=
  apply_ite (·.outBits) c s t
@[simp] theorem ite_outWords (c : Prop) [Decidable c] (s t : Tsk) : (if c then s else t).outWords = if c then s.outWords else t.outWords :=
  apply_ite (·.outWords) c s t
@[simp] theorem foldl_image {α : Type} (f : State → α → State) (l : List α) (s : State) (h : ∀ s a, Keeps.image s (f s a)) :
    Keeps.image s (l.foldl f s) :=
  foldl_inv (Keeps.image s) f (fun t a ht => by
    obtain ⟨h1, h2, h3, h4, h5, h6, h7⟩ := h t a
    simpa only [Keeps.image, h1, h2, h3, h4, h5, h6, h7] using ht) l s (by simp)
@[simp] theorem foldl_fst_image {α β : Type} (f : State × β → α → State × β) (l : List α) (p : State × β)
    (h : ∀ p a, Keeps.image p.1 (f p a).1) : Keeps.image p.1 (l.foldl f p).1 :=
  foldl_inv (fun q => Keeps.image p.1 q.1) f (fun t a ht => by
    obtain ⟨h1, h2, h3, h4, h5, h6, h7⟩ := h t a
    simpa only [Keeps.image, h1, h2, h3, h4, h5, h6, h7] using ht) l p (by simp)

@[simp] theorem updTask_image (a0 a1 s) : Keeps.image s (updTask a0 a1 s) := by
  unfold Keeps.image updTask; simp

@[simp] theorem abandon_image (a0 s) : Keeps.image s (abandon a0 s) := by
  unfold Keeps.image abandon; simp

@[simp] theorem dropPending_image (s) : Keeps.image s (dropPending s) := by
  unfold Keeps.image dropPending; simp

@[simp] theorem faultTask_image (a0 s) : Keeps.image s (faultTask a0 s) := by
  unfold Keeps.image faultTask; simp

@[simp] theorem countOverrun_image (a0 s) : Keeps.image s (countOverrun a0 s).1 := by
  unfold Keeps.image countOverrun; simp

@[simp] theorem finishTask_image (a0 s) : Keeps.image s (finishTask a0 s) := by
  unfold Keeps.image finishTask; simp

@[simp] theorem setSeg_image (a0 a1 a2 s) : Keeps.image s (setSeg a0 a1 a2 s) := by
  unfold Keeps.image setSeg; simp

@[simp] theorem startOn_image (a0 a1 a2 a3 s) : Keeps.image s (startOn a0 a1 a2 a3 s) := by
  unfold Keeps.image startOn; simp

theorem coreFor_image (n : Nat) (o : Bool) (s : State) (p : Nat × State) (h : coreFor n o s = some p) : Keeps.image s p.2 := by
  unfold coreFor at h
  split at h
  · rename_i q hq
    obtain rfl : q = p := Option.some.inj h
    have := freeCoreOf_frame s q hq
    simp_all
  · split at h
    · obtain ⟨e, -, rfl⟩ := Option.map_eq_some_iff.mp h; simp
    · cases h

theorem advanceOne_image (n : Nat) (s t : State) (h : advanceOne n s = some t) : Keeps.image s t := by
  unfold advanceOne at h
  split at h
  · cases h
  · split at h
    · cases h; simp
    · split at h <;> cases h <;> simp
    · split at h
      · cases h
      · split at h
        · obtain ⟨p, hp, rfl⟩ := Option.map_eq_some_iff.mp h
          have := coreFor_image _ _ _ _ hp
          simp_all
        · split at h
          · split at h
            · cases h
            · split at h
              · cases h
              · rename_i c u hc
                have := coreFor_image _ _ _ _ hc
                cases h
                split <;> simp_all
          · cases h; simp

@[simp] theorem advanceLoop_image (a0 a1 s) : Keeps.image s (advanceLoop a0 a1 s) := by
  induction a1 generalizing s with
  | zero => simp [advanceLoop]
  | succ n ih =>
    unfold advanceLoop
    split
    · simp
    · rename_i t h
      have := advanceOne_image _ _ _ h
      simp_all

@[simp] theorem advance_image (a0 s) : Keeps.image s (advance a0 s) := by
  unfold Keeps.image advance; simp

@[simp] theorem preempt_image (a0 s) : Keeps.image s (preempt a0 s) := by
  unfold Keeps.image preempt; (repeat' split) <;> simp

@[simp] theorem serve_image (a0 s) : Keeps.image s (serve a0 s) := by
  unfold Keeps.image serve; dsimp only; (repeat' split) <;> simp

@[simp] theorem giveOnce_image (s) : Keeps.image s (giveOnce s) := by
  unfold Keeps.image giveOnce; (repeat' split) <;> simp

@[simp] theorem giveLoop_image (a0 s) : Keeps.image s (giveLoop a0 s) := by
  induction a0 generalizing s with
  | zero => simp [giveLoop]
  | succ n ih => unfold giveLoop; dsimp only; split <;> simp [ih]

@[simp] theorem giveCluster_image (s) : Keeps.image s (giveCluster s) := by
  unfold Keeps.image giveCluster; simp

@[simp] theorem raiseTrigger_image (a0 a1 a2 s) : Keeps.image s (raiseTrigger a0 a1 a2 s) := by
  unfold Keeps.image raiseTrigger; (repeat' split) <;> simp

@[simp] theorem putRaw_tick (a0 a1 s) : (putRaw a0 a1 s).tsk.tick = s.tsk.tick := by
  unfold putRaw; simp

@[simp] theorem putBit_tick (a0 a1 s) : (putBit a0 a1 s).tsk.tick = s.tsk.tick := by
  unfold putBit; (repeat' split) <;> simp

@[simp] theorem putBits_tick (a0 a1 s) : (putBits a0 a1 s).tsk.tick = s.tsk.tick := by
  unfold putBits; simp

@[simp] theorem putWords_tick (a0 a1 s) : (putWords a0 a1 s).tsk.tick = s.tsk.tick := by
  unfold putWords; simp

@[simp] theorem writeMailbox_tick (a0 a1 a2 a3 s) : (writeMailbox a0 a1 a2 a3 s).tsk.tick = s.tsk.tick := by
  unfold writeMailbox; (repeat' split) <;> simp

@[simp] theorem flushClosing_tick (s) : (flushClosing s).tsk.tick = s.tsk.tick := by
  unfold flushClosing; simp

@[simp] theorem showHealth_tick (a0 s) : (showHealth a0 s).tsk.tick = s.tsk.tick := by
  unfold showHealth; (repeat' split) <;> simp

@[simp] theorem setNode_tick (a0 a1 s) : (setNode a0 a1 s).tsk.tick = s.tsk.tick := by
  unfold setNode; simp

@[simp] theorem countMiss_tick (a0 a1 s) : (countMiss a0 a1 s).tsk.tick = s.tsk.tick := by
  unfold countMiss; (repeat' split) <;> simp

@[simp] theorem sendPoint_tick (a0 s) : (sendPoint a0 s).tsk.tick = s.tsk.tick := by
  unfold sendPoint; (repeat' split) <;> simp

@[simp] theorem commitSends_tick (a0 s) : (commitSends a0 s).tsk.tick = s.tsk.tick := by
  unfold commitSends; simp

@[simp] theorem startPlainline_tick (s) : (startPlainline s).tsk.tick = s.tsk.tick := by
  unfold startPlainline; simp

@[simp] theorem retime_image (s) : Keeps.image s (retime s) := by
  unfold Keeps.image retime; simp

@[simp] theorem loseSource_image (s) : Keeps.image s (loseSource s) := by
  unfold Keeps.image loseSource; (repeat' split) <;> simp

@[simp] theorem gpioLatch_tick (s) : (gpioLatch s).tsk.tick = s.tsk.tick := by
  unfold gpioLatch; simp

@[simp] theorem latchSub_tick (a0 a1 s) : (latchSub a0 a1 s).tsk.tick = s.tsk.tick := by
  unfold latchSub; dsimp only; (repeat' split) <;> simp

@[simp] theorem ringLatch_tick (s) : (ringLatch s).tsk.tick = s.tsk.tick := by
  unfold ringLatch; (repeat' split) <;> simp

@[simp] theorem sendEvents_image (a0 s) : Keeps.image s (sendEvents a0 s) := by
  unfold Keeps.image sendEvents; simp

@[simp] theorem chgAll_image (a0 a1 s) : Keeps.image s (chgAll a0 a1 s) := by
  unfold Keeps.image chgAll; simp

@[simp] theorem grainChanged_image (a0 a1 s) : Keeps.image s (grainChanged a0 a1 s) := by
  unfold Keeps.image grainChanged; dsimp only; (repeat' split) <;> simp

@[simp] theorem setBit_tick (a0 a1 a2 s) : (setBit a0 a1 a2 s).tsk.tick = s.tsk.tick := by
  unfold setBit; (repeat' split) <;> simp

@[simp] theorem setWord_tick (a0 a1 a2 s) : (setWord a0 a1 a2 s).tsk.tick = s.tsk.tick := by
  unfold setWord; (repeat' split) <;> simp

@[simp] theorem noteForeign_image (a0 s) : Keeps.image s (noteForeign a0 s) := by
  unfold Keeps.image noteForeign; (repeat' split) <;> simp

@[simp] theorem commitBit_tick (a0 a1 a2 s) : (commitBit a0 a1 a2 s).tsk.tick = s.tsk.tick := by
  unfold commitBit; simp

@[simp] theorem commitTask_tick (a0 s) : (commitTask a0 s).1.tsk.tick = s.1.tsk.tick := by
  unfold commitTask
  simp only [updTask_image, sendLateView_frame, sendDigest_frame]
  refine (foldl_tick _ _ _ fun s e => by (repeat' split) <;> simp).trans ?_
  refine (foldl_tick _ _ _ fun s e => by (repeat' split) <;> simp).trans ?_
  simp

@[simp] theorem outputCopy_tick (s) : (outputCopy s).tsk.tick = s.tsk.tick := by
  unfold outputCopy; simp

@[simp] theorem clearOutputs_tick (s) : (clearOutputs s).tsk.tick = s.tsk.tick := by
  unfold clearOutputs; simp

@[simp] theorem hostBit_tick (a0 a1 s) : (hostBit a0 a1 s).tsk.tick = s.tsk.tick := by
  unfold hostBit; (repeat' split) <;> simp

@[simp] theorem applyWrite_tick (a0 a1 s) : (applyWrite a0 a1 s).tsk.tick = s.tsk.tick := by
  unfold applyWrite; (repeat' split) <;> simp

@[simp] theorem latchBits_tick (s) : (latchBits s).tsk.tick = s.tsk.tick := by
  unfold latchBits; simp

@[simp] theorem latchWords_tick (s) : (latchWords s).tsk.tick = s.tsk.tick := by
  unfold latchWords; simp

@[simp] theorem latchInputs_tick (s) : (latchInputs s).tsk.tick = s.tsk.tick := by
  unfold latchInputs; simp

@[simp] theorem latchTime_image (a0 s) : Keeps.image s (latchTime a0 s) := by
  unfold Keeps.image latchTime; (repeat' split) <;> simp

@[simp] theorem setWords_tick (a0 a1 s) : (setWords a0 a1 s).tsk.tick = s.tsk.tick := by
  unfold setWords; simp

@[simp] theorem applyDirective_tick (a0 s) : (applyDirective a0 s).tsk.tick = s.tsk.tick := by
  unfold applyDirective; (repeat' split) <;> simp

@[simp] theorem releaseTask_image (a0 s) : Keeps.image s (releaseTask a0 s) := by
  unfold Keeps.image releaseTask; simp

@[simp] theorem takeTrigger_image (a0 s) : Keeps.image s (takeTrigger a0 s) := by
  unfold Keeps.image takeTrigger; (repeat' split) <;> simp

@[simp] theorem takePending_image (a0 s) : Keeps.image s (takePending a0 s) := by
  unfold Keeps.image takePending; simp

@[simp] theorem releaseDue_image (a0 s) : Keeps.image s (releaseDue a0 s) := by
  unfold Keeps.image releaseDue; dsimp only; (repeat' split) <;> simp

@[simp] theorem overrun_image (a0 s) : Keeps.image s (overrun a0 s) := by
  unfold Keeps.image overrun; simp

@[simp] theorem fullAll_image (s) : Keeps.image s (fullAll s) := by
  unfold Keeps.image fullAll; simp

@[simp] theorem runMode_image (s) : Keeps.image s (runMode s) := by
  unfold Keeps.image runMode; (repeat' split) <;> simp

@[simp] theorem enterRun_image (s) : Keeps.image s (enterRun s) := by
  unfold Keeps.image enterRun; simp

@[simp] theorem enterStop_tick (s) : (enterStop s).tsk.tick = s.tsk.tick := by
  unfold enterStop; simp

@[simp] theorem disableTask_image (a0 s) : Keeps.image s (disableTask a0 s) := by
  unfold Keeps.image disableTask; (repeat' split) <;> simp

@[simp] theorem enableTask_image (a0 s) : Keeps.image s (enableTask a0 s) := by
  unfold Keeps.image enableTask; (repeat' split) <;> simp

@[simp] theorem restartTask_image (a0 s) : Keeps.image s (restartTask a0 s) := by
  unfold Keeps.image restartTask; (repeat' split) <;> simp

@[simp] theorem applyTaskControl_image (s) : Keeps.image s (applyTaskControl s) := by
  unfold Keeps.image applyTaskControl; simp

@[simp] theorem releaseSteps_image (s) : Keeps.image s (releaseSteps s) := by
  unfold Keeps.image releaseSteps; simp

@[simp] theorem abandonAll_image (s) : Keeps.image s (abandonAll s) := by
  unfold Keeps.image abandonAll; simp

@[simp] theorem toWarm_image (a0 a1 a2 s) : Keeps.image s (toWarm a0 a1 a2 s) := by
  unfold Keeps.image toWarm; simp

@[simp] theorem dropFromStep_image (a0 a1 s) : Keeps.image s (dropFromStep a0 a1 s) := by
  unfold Keeps.image dropFromStep; (repeat' split) <;> simp

@[simp] theorem digestMismatch_image (a0 a1 s) : Keeps.image s (digestMismatch a0 a1 s) := by
  unfold Keeps.image digestMismatch; simp

@[simp] theorem compareDigests_image (s) : Keeps.image s (compareDigests s) := by
  unfold Keeps.image compareDigests; simp

@[simp] theorem installProgram_tick (a0 s) : (installProgram a0 s).tsk.tick = s.tsk.tick := by
  unfold installProgram; simp

@[simp] theorem loadStored_tick (s) : (loadStored s).tsk.tick = s.tsk.tick := by
  unfold loadStored; (repeat' split) <;> simp

@[simp] theorem switchBanks_image (s) : Keeps.image s (switchBanks s) := by
  unfold Keeps.image switchBanks; simp

@[simp] theorem editAt_image (a0 s) : Keeps.image s (editAt a0 s) := by
  unfold Keeps.image editAt; (repeat' split) <;> simp

@[simp] theorem settleRemoved_image (s) : Keeps.image s (settleRemoved s) := by
  unfold Keeps.image settleRemoved; simp

@[simp] theorem drainEnd_image (s) : Keeps.image s (drainEnd s) := by
  unfold Keeps.image drainEnd; simp

@[simp] theorem applyDirectives_tick (a0 s) : (applyDirectives a0 s).tsk.tick = s.tsk.tick := by
  unfold applyDirectives; simp

@[simp] theorem joinTask_image (a0 s) : Keeps.image s (joinTask a0 s) := by
  unfold Keeps.image joinTask; (repeat' split) <;> simp

@[simp] theorem followRelease_image (a0 s) : Keeps.image s (followRelease a0 s) := by
  unfold Keeps.image followRelease; (repeat' split) <;> simp

@[simp] theorem holdReleases_image (a0 a1 s) : Keeps.image s (holdReleases a0 a1 s) := by
  unfold Keeps.image holdReleases; simp

@[simp] theorem unholdAll_image (s) : Keeps.image s (unholdAll s) := by
  unfold Keeps.image unholdAll; simp

@[simp] theorem settleWaits_image (a0 s) : Keeps.image s (settleWaits a0 s) := by
  unfold Keeps.image settleWaits; (repeat' split) <;> simp

@[simp] theorem presumeSupplement_image (a0 a1 s) : Keeps.image s (presumeSupplement a0 a1 s) := by
  unfold Keeps.image presumeSupplement; (repeat' split) <;> simp

@[simp] theorem presumeVerdict_image (a0 s) : Keeps.image s (presumeVerdict a0 s) := by
  unfold Keeps.image presumeVerdict; simp

@[simp] theorem switchoverNow_tick (s) : (switchoverNow s).tsk.tick = s.tsk.tick := by
  unfold switchoverNow; (repeat' split) <;> simp

@[simp] theorem inputEdges_tick (a0 a1 s) : (inputEdges a0 a1 s).tsk.tick = s.tsk.tick := by
  unfold inputEdges; simp

@[simp] theorem ownInputs_tick (a0 s) : (ownInputs a0 s).tsk.tick = s.tsk.tick := by
  unfold ownInputs; simp

@[simp] theorem takeUp_tick (a0 s) : (takeUp a0 s).tsk.tick = s.tsk.tick := by
  unfold takeUp; (repeat' split) <;> simp

@[simp] theorem guardOne_image (a0 s) : Keeps.image s.1 (guardOne a0 s).1 := by
  unfold Keeps.image guardOne; dsimp only; (repeat' split) <;> simp

@[simp] theorem guardAll_image (s) : Keeps.image s (guardAll s) := by
  unfold Keeps.image guardAll; simp

@[simp] theorem deadlineOne_tick (a0 s) : (deadlineOne a0 s).1.tsk.tick = s.1.tsk.tick := by
  unfold deadlineOne; dsimp only; (repeat' split) <;> simp

@[simp] theorem ownReleases_image (a0 s) : Keeps.image s (ownReleases a0 s) := by
  unfold Keeps.image ownReleases; (repeat' split) <;> simp

@[simp] theorem timebaseEdge_image (s) : Keeps.image s (timebaseEdge s) := by
  unfold Keeps.image timebaseEdge; (repeat' split) <;> simp

@[simp] theorem firstStep_tick (s) : (firstStep s).1.tsk.tick = s.tsk.tick := by
  unfold firstStep; dsimp only; (repeat' split) <;> simp

@[simp] theorem commitPart_tick (a0 s) : (commitPart a0 s).1.tsk.tick = s.tsk.tick := by
  unfold commitPart; (repeat' split) <;> simp

@[simp] theorem afterCommits_tick (a0 s) : (afterCommits a0 s).tsk.tick = s.tsk.tick := by
  unfold afterCommits; (repeat' split) <;> simp

@[simp] theorem settleOwed_tick (a0 a1 a2 s) : (settleOwed a0 a1 a2 s).tsk.tick = s.tsk.tick := by
  unfold settleOwed; dsimp only; (repeat' split) <;> simp

@[simp] theorem followGpio_tick (a0 s) : (followGpio a0 s).tsk.tick = s.tsk.tick := by
  unfold followGpio; simp

@[simp] theorem followInputs_tick (a0 s) : (followInputs a0 s).tsk.tick = s.tsk.tick := by
  unfold followInputs; (repeat' split) <;> simp

@[simp] theorem presumeRecord_tick (s) : (presumeRecord s).tsk.tick = s.tsk.tick := by
  unfold presumeRecord; (repeat' split) <;> simp

@[simp] theorem presumeDue_tick (s) : (presumeDue s).tsk.tick = s.tsk.tick := by
  unfold presumeDue; (repeat' split) <;> simp

@[simp] theorem handOver_tick (s) : (handOver s).tsk.tick = s.tsk.tick := by
  unfold handOver; (repeat' split) <;> simp

@[simp] theorem edgeBody_tick (a0 s) : (edgeBody a0 s).tsk.tick = s.tsk.tick := by
  unfold edgeBody; dsimp only; (repeat' split) <;> simp

@[simp] theorem afterEnable_tick (a0 a1 s) : (afterEnable a0 a1 s).tsk.tick = s.tsk.tick := by
  unfold afterEnable; (repeat' split) <;> simp

@[simp] theorem startEnabled_tick (s) : (startEnabled s).tsk.tick = s.tsk.tick := by
  unfold startEnabled; simp

@[simp] theorem exchangeBarrier_tick (s) : (exchangeBarrier s).tsk.tick = s.tsk.tick := by
  unfold exchangeBarrier; dsimp only; (repeat' split) <;> simp

@[simp] theorem loadProgram_tick (s) : (loadProgram s).tsk.tick = s.tsk.tick := by
  unfold loadProgram; (repeat' split) <;> simp

@[simp] theorem finishStart_tick (s) : (finishStart s).tsk.tick = s.tsk.tick := by
  unfold finishStart; (repeat' split) <;> simp


end Sys2Proof.Proofs
end

section
/-! SUPPORT. What start-up keeps of the reset that it follows: the power and cause fields of the system block, the tick, the sessions (none)
and the clock of the backup domain. -/

namespace Sys2Proof.Proofs

open Sys2Proof.Machine Sys2Proof.Safety Sys2Proof.Laws

/-! ## The system block -/

/-- What a reset leaves of the system block, and what start-up does not touch: the cause, sleep, what lies outside and the supply. -/
@[simp] abbrev Keeps.supply (s t : State) : Prop :=
  t.sys.cause = s.sys.cause ∧ t.sys.asleep = s.sys.asleep ∧ t.sys.env = s.sys.env ∧ t.sys.vinGood = s.sys.vinGood ∧
  t.sys.upTicks = s.sys.upTicks

@[simp] theorem ite_upTicks (c : Prop) [Decidable c] (s t : Sys) : (if c then s else t).upTicks = if c then s.upTicks else t.upTicks :=
  apply_ite (·.upTicks) c s t

@[simp] theorem loadStores_supply (g s) : Keeps.supply s (loadStores g s) := by
  unfold Keeps.supply loadStores; simp

@[simp] theorem rejectTrial_supply (s) : Keeps.supply s (rejectTrial s) := by
  unfold Keeps.supply rejectTrial; simp

@[simp] theorem readSettings_supply (s) : Keeps.supply s (readSettings s).2 := by
  unfold Keeps.supply readSettings; dsimp only; (repeat' split) <;> simp

@[simp] theorem testSafety_supply (s) : Keeps.supply s (testSafety s) := by
  unfold Keeps.supply testSafety; dsimp only; (repeat' split) <;> simp

/-- The end of step 6 changes the phase of start-up alone. -/
@[simp] theorem endStep6_only_sys (s) : Only.sys s (endStep6 s) := by
  unfold Only.sys endStep6; simp
@[simp] theorem endStep6_supply (s) : Keeps.supply s (endStep6 s) := by
  unfold Keeps.supply endStep6; simp
theorem endStep6_boot (s : State) : (endStep6 s).sys.boot = if s.pas.ring = 1 then .forming else .step7 := rfl

@[simp] theorem formingEnds_only_sys (s) : Only.sys s (formingEnds s) := by
  unfold Only.sys formingEnds; simp
@[simp] theorem formingEnds_supply (s) : Keeps.supply s (formingEnds s) := by
  unfold Keeps.supply formingEnds; (repeat' split) <;> simp

@[simp] theorem roleDecision_supply (s) : Keeps.supply s (roleDecision s) := by
  unfold Keeps.supply roleDecision; (repeat' split) <;> simp
@[simp] theorem roleDecision_tick (s) : (roleDecision s).tsk.tick = s.tsk.tick := by
  unfold roleDecision; (repeat' split) <;> simp

/-- The end of start-up sets the phase READY alone in the system block. -/
theorem finishStart_sys (s : State) : (finishStart s).sys = { s.sys with boot := .ready } := by
  unfold finishStart; simp
@[simp] theorem finishStart_supply (s) : Keeps.supply s (finishStart s) := by
  simp [finishStart_sys]

/-! ## Sessions -/

@[simp] theorem ite_sessions (c : Prop) [Decidable c] (s t : HostIf) :
    (if c then s else t).sessions = if c then s.sessions else t.sessions := apply_ite (·.sessions) c s t
@[simp] theorem ite_length {α : Type} (c : Prop) [Decidable c] (s t : List α) :
    (if c then s else t).length = if c then s.length else t.length := apply_ite List.length c s t

@[simp] theorem foldl_sessions {α : Type} (f : State → α → State) (l : List α) (s : State)
    (h : ∀ s a, (f s a).host.sessions.length = s.host.sessions.length) :
    (l.foldl f s).host.sessions.length = s.host.sessions.length := foldl_keeps (·.host.sessions.length) f h l s

@[simp] theorem updSession_sessions (ep f s) : (updSession ep f s).host.sessions.length = s.host.sessions.length := by
  simp

@[simp] theorem transmit_sessions (ep tag b s) : (transmit ep tag b s).host.sessions = s.host.sessions := by
  unfold transmit; split <;> simp

@[simp] theorem notice_sessions (a x s) : (notice a x s).host.sessions.length = s.host.sessions.length := by
  unfold notice; dsimp only; (repeat' split) <;> simp

@[simp] theorem logIn_sessions (a s) : (logIn a s).host.sessions.length = s.host.sessions.length := by
  unfold logIn; simp

@[simp] theorem closeOrigin_sessions (o s) : (closeOrigin o s).host.sessions.length = s.host.sessions.length := by
  unfold closeOrigin; simp

@[simp] theorem coalesce_sessions (q t s) : (coalesce q t s).host.sessions.length = s.host.sessions.length := by
  unfold coalesce; dsimp only; (repeat' split) <;> simp

@[simp] theorem report_sessions (c v o d s) : (report c v o d s).host.sessions.length = s.host.sessions.length := by
  unfold report; dsimp only; (repeat' split) <;> simp

@[simp] theorem intake_sessions (a s) : (intake a s).host.sessions.length = s.host.sessions.length := by
  unfold intake; dsimp only; split <;> simp

/-- An accession sends notices to the sessions; it opens none and ends none. -/
@[simp] theorem accession_sessions (u c v d s) : (accession u c v d s).host.sessions.length = s.host.sessions.length := by
  unfold accession; simp

@[simp] theorem noteBad_sessions (p s) : (noteBad p s).host.sessions.length = s.host.sessions.length := by
  unfold noteBad; dsimp only; (repeat' split) <;> simp

@[simp] theorem scanTwin_sessions (s k) : (scanTwin s k).host.sessions.length = s.host.sessions.length := by
  unfold scanTwin; (repeat' split) <;> simp

@[simp] theorem recallScan_sessions (l s) : (recallScan l s).host.sessions.length = s.host.sessions.length := by
  unfold recallScan; simp

@[simp] theorem trialBoot_sessions (s) : (trialBoot s).host.sessions.length = s.host.sessions.length := by
  unfold trialBoot; dsimp only; (repeat' split) <;> simp

@[simp] theorem loadSup_sessions (s) : (loadSup s).2.host.sessions.length = s.host.sessions.length := by
  unfold loadSup; dsimp only; (repeat' split) <;> simp

@[simp] theorem rejectTrial_sessions (s) : (rejectTrial s).host.sessions.length = s.host.sessions.length := by
  unfold rejectTrial; simp

@[simp] theorem readSettings_sessions (s) : (readSettings s).2.host.sessions.length = s.host.sessions.length := by
  unfold readSettings; dsimp only; (repeat' split) <;> simp

@[simp] theorem loadStores_sessions (g s) : (loadStores g s).host.sessions = s.host.sessions := by
  unfold loadStores; simp

@[simp] theorem noteExpiry_sessions (s) : (noteExpiry s).host.sessions.length = s.host.sessions.length := by
  unfold noteExpiry; split <;> simp

@[simp] theorem refuseClaim_sessions (c i n s) : (refuseClaim c i n s).host.sessions.length = s.host.sessions.length := by
  unfold refuseClaim; simp

@[simp] theorem claimFeature_sessions (c i s) : (claimFeature c i s).1.host.sessions.length = s.host.sessions.length := by
  unfold claimFeature; dsimp only; (repeat' split) <;> simp

@[simp] theorem enableDefaults_sessions (l s) : (enableDefaults l s).host.sessions.length = s.host.sessions.length := by
  unfold enableDefaults
  refine foldl_sessions _ _ _ fun s f => ?_
  split
  · split <;> rename_i h <;> have hf := claimFeature_sessions f.1 f.2 s <;> simp only [h] at hf <;> simp [hf]
  · rfl

/-! ## The backup domain -/

/-- What start-up does not touch of the backup domain: its clock, the note that a reset followed an expiry, and the supply. -/
@[simp] abbrev Keeps.clock (s t : State) : Prop := t.bkd.rtc = s.bkd.rtc ∧ t.bkd.evRst = s.bkd.evRst ∧ t.bkd.vin = s.bkd.vin

@[simp] theorem noteExpiry_clock (s) : Keeps.clock s (noteExpiry s) := by
  unfold Keeps.clock noteExpiry; split <;> simp

/-! ## Start-up -/

@[simp] theorem startUp_supply (por s) : Keeps.supply s (startUp por s) := by
  unfold Keeps.supply startUp; dsimp only; split <;> simp

@[simp] theorem startUp_tick (por s) : (startUp por s).tsk.tick = s.tsk.tick := by
  unfold startUp; dsimp only; split <;> simp

@[simp] theorem startUp_sessions (por s) : (startUp por s).host.sessions.length = s.host.sessions.length := by
  unfold startUp; dsimp only; split <;> simp

@[simp] theorem startUp_clock (por s) : Keeps.clock s (startUp por s) := by
  unfold Keeps.clock startUp; dsimp only; split <;> simp

/-- The step of start-up that ends at a tick edge moves neither the tick nor the ticks since power-on. -/
@[simp] theorem startGoesOn_tick (s) : (startGoesOn s).tsk.tick = s.tsk.tick := by
  unfold startGoesOn; split <;> simp [testSafety]
@[simp] theorem startGoesOn_supply (s) : Keeps.supply s (startGoesOn s) := by
  unfold Keeps.supply startGoesOn; split <;> simp

end Sys2Proof.Proofs
end

section
/-! The resets (R51 to R53, R61, R488, R510, R556, R585) and the end of the role wait (R369). -/

namespace Sys2Proof.Proofs

open Sys2Proof.Machine Sys2Proof.Safety Sys2Proof.Laws

/-! ## Restarts -/

/-- What a reset makes of the module: its cause and tick are noted, it is awake, no session is left, and the clock goes on. -/
def Restarted (s t : State) (cause : BitVec 5) (tick : Tick) : Prop :=
  t.sys.cause = cause ∧ t.tsk.tick = tick ∧ t.sys.asleep = false ∧ t.host.sessions = [] ∧ t.bkd.rtc = s.bkd.rtc

/-- The cold state of a reset: the causes are collected since power-on (R52), and the tick is that of the module but after power-on. -/
theorem coldState_restarted (n : Nat) (s : State) :
    Restarted s (coldState n s) (if n = 0 then 1 else s.sys.cause ||| resetBit n) (if n = 0 then 0 else s.tsk.tick) := by
  refine ⟨?_, ?_, rfl, rfl, rfl⟩ <;> cases n <;> rfl

/-- A reset restarts the module with its cause, whether it starts up or is held for its supply; what lies outside stays as given, and so
does the note of a reset after an expiry. -/
theorem doReset_restarted (n : Nat) (s : State) :
    Restarted s (doReset n s) (if n = 0 then 1 else s.sys.cause ||| resetBit n) (if n = 0 then 0 else s.tsk.tick) ∧
    (doReset n s).sys.env = s.sys.env ∧ (doReset n s).bkd.evRst = s.bkd.evRst ∧ (doReset n s).bkd.vin = s.bkd.vin := by
  obtain ⟨hcause, htick, hasleep, hsess, hrtc⟩ := coldState_restarted n s
  unfold doReset
  split
  · exact ⟨⟨hcause, htick, hasleep, hsess, hrtc⟩, rfl, rfl, rfl⟩
  · have hlen := startUp_sessions (decide (n = 0)) (coldState n s)
    rw [hsess] at hlen
    refine ⟨⟨?_, ?_, ?_, List.length_eq_zero_iff.mp hlen, ?_⟩, ?_, ?_, ?_⟩ <;> simp only [startUp_supply, startUp_tick, startUp_clock]
    · exact hcause
    · exact htick
    · exact hasleep
    · exact hrtc
    · rfl
    · rfl
    · rfl

/-- Power-on leaves no power-fail warning, so the module starts up with its supply good. -/
theorem doReset_zero_vinGood (s : State) : (doReset 0 s).sys.vinGood = true := by
  simp [doReset, coldState]

/-- A reset by command restarts the module with bit 3 of the causes. -/
theorem commandReset_restarted (s : State) : Restarted s (commandReset s) (s.sys.cause ||| 8) s.tsk.tick := by
  obtain ⟨⟨hcause, htick, hasleep, hsess, hrtc⟩, -⟩ :=
    doReset_restarted 3 { writeImage s with sys.env := selfEnv (writeImage s), free := (writeImage s).free + 2 }
  refine ⟨hcause.trans ?_, htick.trans ?_, hasleep, hsess, hrtc.trans ?_⟩ <;> simp [writeImage_frame, resetBit]

/-! ## The activation reset -/

/-- The write of the boot selector is over where no write of the queue carries twin record 0 and no next value of it waits (R556). -/
theorem execActivationReset_of_written {s : State} (h : s.sys.actPending = true ∨ s.sys.resetPending = true)
    (hq : s.depot.queue.all (fun w => w.twin.all (·.1 ≠ 0)) = true) (hn : Tab.get none s.depot.twinNext 0 = none) :
    execActivationReset s = .next (commandReset s) := by
  have hno : (s.depot.queue.any fun w => (w.twin.map (·.1)) = some 0) = false := by
    rw [List.any_eq_false]
    intro w hw
    have := List.all_eq_true.mp hq w hw
    cases ht : w.twin <;> simp_all
  have hreq : (s.sys.actPending || s.sys.resetPending) = true := by simpa using h
  simp [execActivationReset, hno, hn, hreq]

theorem execActivationReset_of_writing {s : State} (h : ∃ w ∈ s.depot.queue, ∃ c, w.twin = some (0, c)) :
    execActivationReset s = .next s := by
  have hany : (s.depot.queue.any fun w => (w.twin.map (·.1)) = some 0) = true := by
    obtain ⟨w, hw, c, hc⟩ := h
    exact List.any_eq_true.mpr ⟨w, hw, by simp [hc]⟩
  simp [execActivationReset, hany]

/-! ## Pins, watchdog and supply -/

theorem execPinReset_of_long {us : Nat} {env : BootEnv} {s : State} (hus : 10 ≤ us) (hb : s.sys.boot ≠ .off) :
    execPinReset us env s = .next (doReset 1 { s with sys.env := env }) := by
  simp [execPinReset, hb, Nat.not_lt.mpr hus]

theorem execWatchdogReset_of_due {env : BootEnv} {s : State} (hd : s.bkd.rstDue = true) (hb : s.sys.boot ≠ .off) :
    execWatchdogReset env s = .next (doReset 2 { s with sys.env := env, bkd.evRst := true }) := by
  simp [execWatchdogReset, hd, hb]

/-- The reset after the warning waits for the depot write, unless VIN is below the reset threshold (R585). -/
theorem execPowerFailReset_of_ready {low : Bool} {s : State} (hp : s.sys.pfail = true) (hb : s.sys.boot ≠ .off)
    (hl : low = true ∨ s.depot.busy = false) :
    execPowerFailReset low s = .next { heldReset 1 (if low then supplyCut s else s) with sys.cause := s.sys.cause } := by
  rcases hl with h | h <;> simp [execPowerFailReset, hp, hb, h]

/-! ## Power failure -/

/-- The state in which the power-fail warning leaves the module, before what can go on does (R510, R525). -/
def warned (s : State) : State :=
  let t := writeImage (depotPfail { s with sys.pfail := true })
  { t with
    host.sessions := t.host.sessions.map fun x => { x with waiting := x.waiting.map (loseWrite t (.session x.ep)) }
    host.remote := t.host.remote.map fun e => (e.1, loseWrite t e.1 e.2) }

/-- The warning is taken once, while the supply is good and the module out of reset. -/
theorem execPowerFailWarning_eq {s : State} (hp : s.sys.pfail = false) (hv : s.sys.vinGood = true) (h1 : s.sys.boot ≠ .off)
    (h2 : s.sys.boot ≠ .reset) : execPowerFailWarning s = .next (settle (warned s)) := by
  simp [execPowerFailWarning, hp, hv, h1, h2, warned]

/-- The warning stops the depot at the write in progress and leaves the tasks and the cluster alone. -/
theorem warned_keeps (s : State) :
    (warned s).sys.pfail = true ∧ (warned s).depot.pfail = true ∧ (warned s).depot.waiters = [] ∧
    (warned s).depot.queue = (if s.depot.busy then s.depot.queue.take 1 else []) ∧ (warned s).tsk = s.tsk ∧ (warned s).scan = s.scan := by
  simp [warned, depotPfail]

/-- The log image is written but in the boot ROM, where no SUP runs. -/
theorem warned_image (s : State) : (warned s).log.image =
    if s.sys.boot = .rom then s.log.image else some { recs := s.log.buf, closed := s.log.closed, pending := s.log.pending } := by
  unfold warned writeImage
  simp only [depotPfail]
  split <;> rfl

/-- The reset that follows the warning holds the module off with its outputs off, in STOP and without sessions (R585, R61). -/
theorem heldReset_off (n : Nat) (s : State) :
    (heldReset n s).sys.boot = .off ∧ (heldReset n s).sys.vinGood = false ∧ (heldReset n s).host.sessions = [] ∧
    (heldReset n s).scan.served = none ∧ (heldReset n s).tsk.mode = .stop ∧ (s.iod.powered = true → (heldReset n s).iod.out = 0) := by
  refine ⟨rfl, rfl, rfl, ?_, rfl, fun h => ?_⟩
  · cases n <;> rfl
  · simp [heldReset, h, safRestart, commandOutputs]

/-! ## The role wait -/

/-- The module's place in a ring and the freshness grain of its regions are the same in both states. -/
@[simp] abbrev Keeps.basin (s t : State) : Prop := t.pas.ring = s.pas.ring ∧ t.pas.freshEn = s.pas.freshEn

@[simp] theorem ite_ring (c : Prop) [Decidable c] (s t : Pas) : (if c then s else t).ring = if c then s.ring else t.ring :=
  apply_ite (·.ring) c s t
@[simp] theorem ite_freshEn (c : Prop) [Decidable c] (s t : Pas) : (if c then s else t).freshEn = if c then s.freshEn else t.freshEn :=
  apply_ite (·.freshEn) c s t
/-! A report changes no ring state: only its own tables, numbers and the frames that it sends. -/
@[simp] theorem closeOrigin_basin (o s) : Keeps.basin s (closeOrigin o s) := by
  unfold Keeps.basin closeOrigin; simp
@[simp] theorem coalesce_basin (q t s) : Keeps.basin s (coalesce q t s) := by
  unfold Keeps.basin coalesce; dsimp only; (repeat' split) <;> simp
@[simp] theorem sendRing_basin (a b c d e f g s) : Keeps.basin s (sendRing a b c d e f g s) := by
  unfold Keeps.basin sendRing; dsimp only; (repeat' split) <;> simp
@[simp] theorem report_basin (c v o d s) : Keeps.basin s (report c v o d s) := by
  unfold Keeps.basin report; dsimp only; (repeat' split) <;> simp
@[simp] theorem accession_basin (u c v d s) : Keeps.basin s (accession u c v d s) := by
  unfold Keeps.basin accession intake; dsimp only; split <;> simp

/-- A change of the role writes an accession and sets the role alone. -/
theorem roleChange_red (role : BitVec 3) (sev : Nat) (s : State) : (roleChange role sev s).red = { s.red with role := role } := by
  unfold roleChange; simp
@[simp] theorem roleChange_ring (role sev s) : (roleChange role sev s).pas.ring = s.pas.ring := by
  unfold roleChange; simp
theorem setEpoch_red (e : BitVec 16) (s : State) : (setEpoch e s).red = { s.red with epoch := e } := by
  unfold setEpoch; simp

/-- The highest claim epoch that the module knows: its own, or one that it has heard (R371). -/
def topEpoch (s : State) : BitVec 16 :=
  match s.red.epochHeard with
  | some h => if epochHigher h s.red.epoch then h else s.red.epoch
  | none => s.red.epoch

/-- The partner that heard ACT_N low takes the standby role, and else it claims with the next epoch (R369). -/
theorem execRoleWaitExpiry_of_pair {s : State} (hb : s.sys.boot = .roleWait) (hp : s.red.pairEn = true) :
    execRoleWaitExpiry s = .next (endStep6 (if (drawBool s).1 then roleChange 2 3 { (drawBool s).2 with red.actIn := false }
      else roleChange 1 3 (driveAct (setEpoch (topEpoch s + 1) (drawBool s).2)))) := by
  simp only [execRoleWaitExpiry, hb, hp, ne_eq, not_true_eq_false, if_false, Bool.not_true, Bool.false_eq_true]
  split <;> rfl

theorem execRoleWaitExpiry_alone {s : State} (hb : s.sys.boot = .roleWait) (hp : s.red.pairEn = false) :
    execRoleWaitExpiry s = .next (endStep6 s) := by
  simp [execRoleWaitExpiry, hb, hp]

/-- Settles O39: each reset is `doReset` under its own guard, and the role wait ends in one of the two roles. -/
theorem resetsRestart : Obligations.ResetsRestart := by
  unfold Obligations.ResetsRestart
  refine ⟨fun env s => ?_, fun us env s hus hb => ?_, fun us env s h => ?_, fun env s hd hb => ?_, fun env s hd => ?_, fun s h hq hn => ?_,
    fun s h => ?_, fun s hp hv hb => ?_, fun s hp hv h1 h2 h3 => ?_, fun s hp hb => ?_, fun low s hp hb hl => ?_, fun s hb hp => ?_,
    fun s hb hp => ?_, fun s hb => ?_⟩
  case refine_1 =>
    obtain ⟨hr, henv, -, hvin⟩ := doReset_restarted 0 { s with sys.env := env, sys.vinGood := true, bkd.vin := true }
    exact ⟨_, rfl, hr, henv, doReset_zero_vinGood _, hvin⟩
  case refine_2 =>
    obtain ⟨hr, henv, -⟩ := doReset_restarted 1 { s with sys.env := env }
    exact ⟨_, execPinReset_of_long hus hb, hr, henv⟩
  case refine_3 => exact congrArg _ (if_pos h)
  case refine_4 =>
    obtain ⟨hr, -, hev, -⟩ := doReset_restarted 2 { s with sys.env := env, bkd.evRst := true }
    exact ⟨_, execWatchdogReset_of_due hd hb, hr, hev⟩
  case refine_5 => exact congrArg _ (if_neg (by simp [hd]))
  case refine_6 => exact ⟨_, execActivationReset_of_written h hq hn, commandReset_restarted s⟩
  case refine_7 => exact execActivationReset_of_writing h
  case refine_8 =>
    obtain ⟨h4, h5, -⟩ := warned_keeps s
    exact ⟨_, execPowerFailWarning_eq hp hv (by simp [hb]) (by simp [hb]), h4, h5, (warned_image s).trans (if_pos hb)⟩
  case refine_9 =>
    obtain ⟨h4, h5, h6, h7, h8, h9⟩ := warned_keeps s
    exact ⟨_, execPowerFailWarning_eq hp hv h1 h2, h4, h5, h6, h7, (warned_image s).trans (if_neg h3), h8, h9⟩
  case refine_10 => exact congrArg _ (if_pos (by simp [hb]))
  case refine_11 =>
    obtain ⟨h1, h2, h3, h4, h5, h6⟩ := heldReset_off 1 (if low then supplyCut s else s)
    refine ⟨_, execPowerFailReset_of_ready hp hb hl, h1, rfl, h2, h3, h4, h5, fun h => h6 ?_⟩
    cases low <;> simpa using h
  case refine_12 =>
    refine ⟨_, execRoleWaitExpiry_of_pair hb hp, ?_, fun h => ?_, fun h => ?_⟩
    · rw [endStep6_boot]
      split <;> simp [driveAct, setEpoch]
    · rw [h]
      simp [roleChange_red, setEpoch_red, driveAct]
      rfl
    · rw [h]
      simp [roleChange_red]
  case refine_13 => exact ⟨_, execRoleWaitExpiry_alone hb hp, by simp, endStep6_boot s⟩
  case refine_14 => exact congrArg _ (if_pos hb)

end Sys2Proof.Proofs
end

section
/-! What a tick edge does with one task (R76, R85 to R87, R94 to R97): its release, its commit, its overrun and its guard edge. -/

namespace Sys2Proof.Proofs

open Sys2Proof.Machine Sys2Proof.Safety Sys2Proof.Laws

/-! ## Tasks -/

/-- An entry that differs from what an unlisted index reads as is read back, whatever the table held. -/
theorem tab_get_set_of_ne_default {α : Type} [DecidableEq α] {d v : α} (h : v ≠ d) (t : Tab α) (a : Nat) :
    Tab.get d (Tab.set d t a v) a = v := by
  induction t with
  | nil => simp [Tab.set, Tab.get, h]
  | cons e t ih =>
    obtain ⟨k, w⟩ := e
    simp only [Tab.set, h, if_false]
    split
    · simp [Tab.get]
    · split
      · simp [Tab.get]
      · rename_i hk
        simp [Tab.get, hk, ih]

theorem task_updTask_of_present (n : Nat) (f : Task → Task) (s : State) (h : (f (task s n)).st ≠ .absent) :
    task (updTask n f s) n = f (task s n) :=
  tab_get_set_of_ne_default (fun e => h (congrArg Task.st e)) _ _

/-- The tasks are a part of the task system. -/
theorem task_of_tsk {s t : State} (h : t.tsk = s.tsk) (n : Nat) : task t n = task s n := by
  unfold task; rw [h]

/-- The program in force for a release follows from the programs and the release. -/
theorem relDef_congr {s t : State} {n : Nat} (hp : t.prog = s.prog) (hb : (task t n).bank = (task s n).bank) : relDef t n = relDef s n := by
  unfold relDef relBank bankOf; rw [hp, hb]

/-! ## Release -/

/-- What the release of a task by definition d makes of it at the present tick (R89, R149). -/
def releasedAs (s : State) (n : Nat) (t : Task) : Task :=
  let d := taskDef s n
  { t with
    st := .ready, lt := s.tsk.tick, due := addTicks s.tsk.tick.toNat (deadlineOf d), bank := s.prog.active, ext := false,
    guarded := false, verdict := none, peerDone := false, queue := (segsOf (activeBank s) n).map fun g => (g, .pending),
    ctx := none, snapBits := s.tsk.bits, snapWords := s.tsk.words, ownBits := [], ownWords := [], slots := [],
    tod := s.tsk.tod, todFlags := s.tsk.todFlags,
    fullScan := (task s n).fullK || !d.cfg.getLsbD 26, fullK := false, dirty := t.chg.union t.prev, chg := {}, newPrev := {} }

theorem releaseTask_tsk (n : Nat) (s : State) : (releaseTask n s).tsk = (updTask n (releasedAs s n) s).tsk := by
  unfold releaseTask
  dsimp only
  split <;> rfl

theorem task_releaseTask (n : Nat) (s : State) : task (releaseTask n s) n = releasedAs s n (task s n) :=
  (task_of_tsk (releaseTask_tsk n s) n).trans (task_updTask_of_present n _ s (by simp [releasedAs]))

theorem task_releaseTask_ne {n k : Nat} (s : State) (h : k ≠ n) : task (releaseTask n s) k = task s k :=
  (task_of_tsk (releaseTask_tsk n s) k).trans (task_updTask_ne _ s h)

/-! ## Overrun -/

/-- What an abandoned release leaves of its task (R95). -/
def abandoned (t : Task) : Task :=
  { t with
    st := .idle, ext := false, snapBits := [], snapWords := [], ownBits := [], ownWords := [], slots := [], queue := [], ctx := none,
    fullK := true, newPrev := {}, dirty := {}, guarded := false, verdict := none, held := false, stepped := false }

theorem task_abandon {n : Nat} {s : State} (h : released (task s n) = true) : task (abandon n s) n = abandoned (task s n) := by
  have hd : task (dropPasses (dropRuns n none s)) n = task s n := task_of_tsk (by simp) n
  have he : (abandon n s).tsk = (updTask n abandoned (dropPasses (dropRuns n none s))).tsk := by
    unfold abandon; rw [if_pos h]; rfl
  rw [task_of_tsk he, task_updTask_of_present n _ _ (by simp [abandoned]), hd]

/-- An overrun in the counters of its task (R97). -/
def overrunCounted (t : Task) : Task := { t with ovrTotal := satInc t.ovrTotal, ovrConsec := satInc t.ovrConsec }

theorem task_countOverrun {n : Nat} {s : State} (h : released (task s n) = true) :
    task (countOverrun n s).1 n = overrunCounted (task s n) := by
  have he : (countOverrun n s).1.tsk = (updTask n overrunCounted s).tsk := by
    simp [countOverrun]
    rfl
  rw [task_of_tsk he]
  refine task_updTask_of_present n _ s fun ha => ?_
  have ha : (task s n).st = .absent := ha
  simp [released, ha] at h

/-- With OVR_LIMIT 0 no count of overruns faults the task (R98). -/
theorem overrun_of_no_limit {n : Nat} {s : State} (h : field (relDef s n).cfg.toNat 23 16 = 0) :
    overrun n s = if (relDef s n).cfg.getLsbD 27 && !(task s n).ext then
      updTask n (fun t => { t with ext := true, guarded := false, verdict := none,
                                   due := addTicks t.due (if kindOf (relDef s n) = 0 then periodOf (relDef s n) else deadlineOf (relDef s n)) })
        (countOverrun n s).1
      else abandon n (countOverrun n s).1 := by
  have hc : (countOverrun n s).2 = false := by simp [countOverrun, h]
  unfold overrun
  dsimp only
  rw [hc]
  rfl

/-! ## Commit -/

/-- What the commit of task n makes of the image by one of its own bits. -/
def commitOwnBit (n : Nat) (s : State) (e : Nat × Option Bool) : State :=
  match e.2 with
  | some v => if committable (bitRegion s e.1) n then commitBit n e.1 v s else s
  | none => s

/-- The same for a word. -/
def commitOwnWord (n : Nat) (s : State) (e : Nat × Option W24) : State :=
  match e.2 with
  | some v => if committable (wordRegion s e.1) n then setWord (some n) e.1 v s else s
  | none => s

/-- The state after the writes of task n have been committed, before the release ends. -/
def committed (n : Nat) (s : State) : State :=
  (task s n).ownWords.foldl (commitOwnWord n) ((task s n).ownBits.foldl (commitOwnBit n) (noteForeign n s))

/-- The regions of both images. -/
abbrev SameRegions (s t : State) : Prop := t.prog.bitReg = s.prog.bitReg ∧ t.prog.wordReg = s.prog.wordReg

theorem bitRegion_congr {s t : State} (h : SameRegions s t) (a : Nat) : bitRegion t a = bitRegion s a := by
  unfold bitRegion; rw [h.1]
theorem wordRegion_congr {s t : State} (h : SameRegions s t) (a : Nat) : wordRegion t a = wordRegion s a := by
  unfold wordRegion; rw [h.2]

/-- A change of a grain touches the segments of a bank alone. -/
theorem grainChanged_regions (o : Option Nat) (g : Nat) (s : State) : SameRegions s (grainChanged o g s) := by
  have hb : ∀ (b : Bool) (f : Bank → Bank) (t : State), SameRegions t (updBank b f t) := by
    intro b f t; cases b <;> exact ⟨rfl, rfl⟩
  unfold grainChanged setSegBit
  dsimp only
  split
  · exact ⟨rfl, rfl⟩
  · split
    · exact ⟨rfl, rfl⟩
    · exact hb _ _ _

theorem setBit_regions (o : Option Nat) (a : Nat) (v : Bool) (s : State) : SameRegions s (setBit o a v s) := by
  unfold setBit
  split
  · exact ⟨rfl, rfl⟩
  · have h := grainChanged_regions o (bitGrain a) (markBlock (bitBlock a) { s with tsk.bits := Tab.set false s.tsk.bits a v })
    simpa [SameRegions] using h

theorem setWord_regions (o : Option Nat) (a : Nat) (v : W24) (s : State) : SameRegions s (setWord o a v s) := by
  unfold setWord
  dsimp only
  split
  · exact ⟨rfl, rfl⟩
  · split
    · have h := grainChanged_regions o (wordGrain a) (markBlock (wordBlock a) { s with tsk.words := Tab.set 0 s.tsk.words a v })
      simpa [SameRegions] using h
    · simp [SameRegions]

theorem setBit_rising (o : Option Nat) (a : Nat) (v : Bool) (s : State) (h : Rising s.tsk.bits) : Rising (setBit o a v s).tsk.bits := by
  rw [setBit_tsk]
  dsimp only
  split
  · exact h
  · exact rising_set _ _ h _

theorem setWord_rising (o : Option Nat) (a : Nat) (v : W24) (s : State) (h : Rising s.tsk.words) : Rising (setWord o a v s).tsk.words := by
  rw [setWord_tsk]
  dsimp only
  split
  · exact h
  · exact rising_set _ _ h _

/-- One own bit of task n: its point takes it where the task may write there, and nothing else of the image changes. -/
theorem commitOwnBit_spec (n : Nat) (e : Nat × Option Bool) (s : State) (h : Rising s.tsk.bits) :
    SameRegions s (commitOwnBit n s e) ∧ Rising (commitOwnBit n s e).tsk.bits ∧ (commitOwnBit n s e).tsk.words = s.tsk.words ∧
    ∀ a, Tab.get false (commitOwnBit n s e).tsk.bits a =
      if a = e.1 ∧ committable (bitRegion s a) n = true then e.2.getD (Tab.get false s.tsk.bits a) else Tab.get false s.tsk.bits a := by
  obtain ⟨b, v⟩ := e
  cases v with
  | none => exact ⟨⟨rfl, rfl⟩, h, rfl, fun a => by simp [commitOwnBit]⟩
  | some v =>
    by_cases hc : committable (bitRegion s b) n = true
    · have he : commitOwnBit n s (b, some v) = commitBit n b v s := if_pos hc
      rw [he]
      refine ⟨setBit_regions (some n) b v { s with tsk.hostOver := Tab.set none s.tsk.hostOver b none }, ?_, ?_, fun a => ?_⟩
      · exact setBit_rising (some n) b v { s with tsk.hostOver := Tab.set none s.tsk.hostOver b none } h
      · show (setBit _ _ _ _).tsk.words = _
        rw [setBit_tsk]
      · refine (setBit_get (some n) b v { s with tsk.hostOver := Tab.set none s.tsk.hostOver b none } h a).trans ?_
        by_cases hab : a = b
        · subst hab; simp [hc]
        · simp [hab]
    · have he : commitOwnBit n s (b, some v) = s := if_neg hc
      rw [he]
      refine ⟨⟨rfl, rfl⟩, h, rfl, fun a => (if_neg ?_).symm⟩
      rintro ⟨rfl, hc'⟩
      exact hc hc'

theorem commitOwnWord_spec (n : Nat) (e : Nat × Option W24) (s : State) (h : Rising s.tsk.words) :
    SameRegions s (commitOwnWord n s e) ∧ Rising (commitOwnWord n s e).tsk.words ∧ (commitOwnWord n s e).tsk.bits = s.tsk.bits ∧
    ∀ a, Tab.get 0 (commitOwnWord n s e).tsk.words a =
      if a = e.1 ∧ committable (wordRegion s a) n = true then e.2.getD (Tab.get 0 s.tsk.words a) else Tab.get 0 s.tsk.words a := by
  obtain ⟨b, v⟩ := e
  cases v with
  | none => exact ⟨⟨rfl, rfl⟩, h, rfl, fun a => by simp [commitOwnWord]⟩
  | some v =>
    by_cases hc : committable (wordRegion s b) n = true
    · have he : commitOwnWord n s (b, some v) = setWord (some n) b v s := if_pos hc
      rw [he]
      refine ⟨setWord_regions _ _ _ s, ?_, ?_, fun a => ?_⟩
      · exact setWord_rising (some n) b v s h
      · rw [setWord_tsk]
      · refine (setWord_get _ _ _ s h a).trans ?_
        by_cases hab : a = b
        · subst hab; simp [hc]
        · simp [hab]
    · have he : commitOwnWord n s (b, some v) = s := if_neg hc
      rw [he]
      refine ⟨⟨rfl, rfl⟩, h, rfl, fun a => (if_neg ?_).symm⟩
      rintro ⟨rfl, hc'⟩
      exact hc hc'

/-- All own bits of a task: each point is listed once, so it takes the value listed for it. -/
theorem commitOwnBits_spec (n : Nat) {l : Tab (Option Bool)} (hl : Rising l) (s : State) (h : Rising s.tsk.bits) :
    SameRegions s (l.foldl (commitOwnBit n) s) ∧ (l.foldl (commitOwnBit n) s).tsk.words = s.tsk.words ∧
    ∀ a, Tab.get false (l.foldl (commitOwnBit n) s).tsk.bits a =
      if committable (bitRegion s a) n then (Tab.get none l a).getD (Tab.get false s.tsk.bits a) else Tab.get false s.tsk.bits a := by
  induction l generalizing s with
  | nil => exact ⟨⟨rfl, rfl⟩, rfl, fun a => by simp⟩
  | cons e l ih =>
    obtain ⟨hreg, hris, hw, hget⟩ := commitOwnBit_spec n e s h
    obtain ⟨hreg', hw', hget'⟩ := ih (rising_tail hl) _ hris
    refine ⟨⟨hreg'.1.trans hreg.1, hreg'.2.trans hreg.2⟩, hw'.trans hw, fun a => ?_⟩
    rw [List.foldl_cons, hget' a, hget a, bitRegion_congr hreg]
    by_cases hc : committable (bitRegion s a) n = true
    · by_cases ha : a = e.1
      · have hn : Tab.get none l a = none := tab_get_below none (by rw [ha]; exact rising_head hl)
        simp [ha ▸ hn, Tab.get, ha]
      · simp [hc, ha, Tab.get]
    · simp [hc]

theorem commitOwnWords_spec (n : Nat) {l : Tab (Option W24)} (hl : Rising l) (s : State) (h : Rising s.tsk.words) :
    SameRegions s (l.foldl (commitOwnWord n) s) ∧ (l.foldl (commitOwnWord n) s).tsk.bits = s.tsk.bits ∧
    ∀ a, Tab.get 0 (l.foldl (commitOwnWord n) s).tsk.words a =
      if committable (wordRegion s a) n then (Tab.get none l a).getD (Tab.get 0 s.tsk.words a) else Tab.get 0 s.tsk.words a := by
  induction l generalizing s with
  | nil => exact ⟨⟨rfl, rfl⟩, rfl, fun a => by simp⟩
  | cons e l ih =>
    obtain ⟨hreg, hris, hw, hget⟩ := commitOwnWord_spec n e s h
    obtain ⟨hreg', hw', hget'⟩ := ih (rising_tail hl) _ hris
    refine ⟨⟨hreg'.1.trans hreg.1, hreg'.2.trans hreg.2⟩, hw'.trans hw, fun a => ?_⟩
    rw [List.foldl_cons, hget' a, hget a, wordRegion_congr hreg]
    by_cases hc : committable (wordRegion s a) n = true
    · by_cases ha : a = e.1
      · have hn : Tab.get none l a = none := tab_get_below none (by rw [ha]; exact rising_head hl)
        simp [ha ▸ hn, Tab.get, ha]
      · simp [hc, ha, Tab.get]
    · simp [hc]

/-- The image after the commit of a task (R66, R87). -/
theorem committed_get {n : Nat} {s : State} (hb : Rising s.tsk.bits) (hw : Rising s.tsk.words) (hob : Rising (task s n).ownBits)
    (how : Rising (task s n).ownWords) :
    (∀ a, Tab.get false (committed n s).tsk.bits a =
      if committable (bitRegion s a) n then (Tab.get none (task s n).ownBits a).getD (Tab.get false s.tsk.bits a) else Tab.get false s.tsk.bits a) ∧
    ∀ a, Tab.get 0 (committed n s).tsk.words a =
      if committable (wordRegion s a) n then (Tab.get none (task s n).ownWords a).getD (Tab.get 0 s.tsk.words a) else Tab.get 0 s.tsk.words a := by
  have hreg0 : SameRegions s (noteForeign n s) := by simp [SameRegions]
  obtain ⟨hreg, hwords, hbits⟩ := commitOwnBits_spec n hob (noteForeign n s) (by simpa using hb)
  obtain ⟨-, hkept, hget⟩ := commitOwnWords_spec n how ((task s n).ownBits.foldl (commitOwnBit n) (noteForeign n s)) (by rw [hwords]; simpa using hw)
  refine ⟨fun a => ?_, fun a => ?_⟩
  · unfold committed
    rw [hkept, hbits a, bitRegion_congr hreg0]
    simp
  · unfold committed
    rw [hget a, wordRegion_congr hreg, wordRegion_congr hreg0, hwords]
    simp

/-- What a commit leaves of its task (R86). -/
def committedTask (t : Task) : Task := { endRelease t with ovrConsec := 0, prev := t.newPrev }

/-- A commit gives the writes of the task to the image and ends its release; what it sends changes neither. -/
theorem commitTask_tsk (n : Nat) (s : State) (ed : Edge) :
    (commitTask n (s, ed)).1.tsk = (updTask n committedTask (committed n s)).tsk ∧ (commitTask n (s, ed)).2.done = ed.done ++ [n] := by
  refine ⟨?_, rfl⟩
  have he : (commitTask n (s, ed)).1 = updTask n committedTask (sendLateView n (task s n) (sendDigest n (task s n).lt
      (visibleSlots (committed n s) n) (committed n s))) := rfl
  rw [he]
  simp

/-! ## Guard edge -/

/-- Whether the guard edge of task k is the tick t and is not decided yet (R85). -/
def guardDue (t : Tick) (s : State) (k : Nat) : Bool :=
  released (task s k) && kindOf (relDef s k) != 2 && !(task s k).guarded && (task s k).due = addTicks t.toNat 2

theorem prioOf_lt (d : TaskDef) : prioOf d < 33 := by
  unfold prioOf; split <;> omega

theorem flatMap_once {α : Type} {l : List Nat} (hl : l.Nodup) {p : Nat} (hp : p ∈ l) (x : α) :
    (l.flatMap fun q => if p = q then [x] else []) = [x] := by
  induction l with
  | nil => cases hp
  | cons q l ih =>
    obtain ⟨hq, hn⟩ := List.nodup_cons.mp hl
    by_cases h : p = q
    · subst h
      have hz : (l.flatMap fun q => if p = q then [x] else []) = [] :=
        List.flatMap_eq_nil_iff.mpr fun r hr => if_neg fun (e : p = r) => hq (e ▸ hr)
      simp [hz]
    · have hm : p ∈ l := (List.mem_cons.mp hp).resolve_left h
      simp [h, ih hn hm]

/-- One number of a list without repetitions that satisfies a condition. -/
theorem filter_range_once {q : Nat → Bool} {m n : Nat} (hn : n < m) (hq : q n = true) (h : ∀ k < m, k ≠ n → q k = false) :
    (List.range m).filter q = [n] := by
  induction m with
  | zero => omega
  | succ m ih =>
    rw [List.range_succ, List.filter_append]
    by_cases hm : n = m
    · subst hm
      have hz : (List.range n).filter q = [] := List.filter_eq_nil_iff.mpr fun k hk => by
        have hlt := List.mem_range.mp hk
        simp [h k (by omega) (by omega)]
      simp [hz, hq]
    · have hlast : q m = false := h m (by omega) fun e => hm e.symm
      simp [ih (by omega) fun k hk => h k (by omega), hlast]

/-- A task is decided at its guard edge when that is the present tick. -/
theorem mem_guardTasks {s : State} {k : Nat} (hk : k < 32) : k ∈ guardTasks s ↔ guardDue s.tsk.tick s k = true := by
  unfold guardTasks byPrioRel guardDue
  simp [hk, prioOf_lt]

theorem guardTasks_once {s : State} {n : Nat} (hn : n < 32) (hd : guardDue s.tsk.tick s n = true)
    (h : ∀ k < 32, k ≠ n → guardDue s.tsk.tick s k = false) : guardTasks s = [n] := by
  have hrow : ∀ p, ((List.range 32).filter fun k => prioOf (relDef s k) = p).filter (guardDue s.tsk.tick s) =
      if prioOf (relDef s n) = p then [n] else [] := by
    intro p
    rw [List.filter_filter]
    split
    · rename_i hp
      exact filter_range_once hn (by simp [hd, hp]) fun k hk hkn => by simp [h k hk hkn]
    · rename_i hp
      refine List.filter_eq_nil_iff.mpr fun k hk => ?_
      by_cases hkn : k = n
      · simp [hkn, hp]
      · simp [h k (List.mem_range.mp hk) hkn]
  have he : guardTasks s = (byPrioRel s).filter (guardDue s.tsk.tick s) := rfl
  rw [he]
  unfold byPrioRel
  rw [List.filter_flatMap]
  simp only [hrow]
  exact flatMap_once List.nodup_range (List.mem_range.mpr (prioOf_lt _)) n

/-- At a guard edge a module alone marks a finished task and counts the overrun of another (R85, R94). -/
theorem guardOne_alone {n : Nat} {s : State} (h : s.red.role = 0) (es : List (Nat × Tick × Bool)) :
    guardOne n (s, es) = (if (task s n).st = .done then updTask n (fun t => { t with guarded := true }) s else overrun n s, es) := by
  have hf : follows s n = false := by simp [follows, h]
  have ha : agrees s n = false := by simp [agrees, h]
  simp only [guardOne, hf, ha, Bool.false_eq_true, if_false]
  split <;> rfl

theorem guardAll_once {n : Nat} {s : State} (h : s.red.role = 0) (hg : guardTasks s = [n]) :
    guardAll s = if (task s n).st = .done then updTask n (fun t => { t with guarded := true }) s else overrun n s := by
  unfold guardAll
  rw [hg, List.foldl_cons, List.foldl_nil, guardOne_alone h]
  rfl

end Sys2Proof.Proofs
end

section
/-! The input latch and the output copy (R87, R88), and the operations that give the input buffers their values. -/

namespace Sys2Proof.Proofs

open Sys2Proof.Machine Sys2Proof.Safety Sys2Proof.Laws

/-! ## Tables by their entries -/

theorem tab_get_of_mem {α : Type} (d : α) {t : Tab α} (ht : Rising t) {e : Nat × α} (he : e ∈ t) : Tab.get d t e.1 = e.2 := by
  induction t with
  | nil => cases he
  | cons x t ih =>
    rcases List.mem_cons.mp he with rfl | he
    · simp [Tab.get]
    · have hx : e.1 ≠ x.1 := Nat.ne_of_gt (rising_head ht e he)
      simp [Tab.get, hx, ih (rising_tail ht) he]

theorem tab_get_of_unlisted {α : Type} (d : α) {t : Tab α} {a : Nat} (h : ∀ e ∈ t, e.1 ≠ a) : Tab.get d t a = d := by
  induction t with
  | nil => rfl
  | cons x t ih =>
    have hx : a ≠ x.1 := (h x (by simp)).symm
    simp [Tab.get, hx, ih fun e he => h e (List.mem_cons_of_mem _ he)]

/-- An index is listed, with what it reads as, or it is not. -/
theorem tab_listed {α : Type} (d : α) {t : Tab α} (ht : Rising t) (a : Nat) : (a, Tab.get d t a) ∈ t ∨ ∀ e ∈ t, e.1 ≠ a := by
  by_cases h : ∃ e ∈ t, e.1 = a
  · obtain ⟨e, he, rfl⟩ := h
    rw [tab_get_of_mem d ht he]
    exact .inl he
  · exact .inr fun e he ha => h ⟨e, he, ha⟩

/-- A table of the entries whose index satisfies a condition. -/
theorem tab_get_filter {α : Type} (d : α) {t : Tab α} (ht : Rising t) (p : Nat → Bool) (a : Nat) :
    Tab.get d (t.filter fun e => p e.1) a = if p a then Tab.get d t a else d := by
  have hr : Rising (t.filter fun e => p e.1) := List.Pairwise.filter _ ht
  split
  · rename_i hp
    rcases tab_listed d ht a with hm | hn
    · exact tab_get_of_mem d hr (List.mem_filter.mpr ⟨hm, hp⟩)
    · rw [tab_get_of_unlisted d hn]
      exact tab_get_of_unlisted d fun e he => hn e (List.mem_filter.mp he).1
  · rename_i hp
    refine tab_get_of_unlisted d fun e he ha => hp ?_
    rw [← ha]
    exact (List.mem_filter.mp he).2

/-! ## A latch of one image -/

/-- A write of a point of an image: it keeps P and gives the point its value. -/
def Writes {β : Type} (P : State → Prop) (get : State → Nat → β) (set : Nat → β → State → State) : Prop :=
  ∀ a v s, P s → P (set a v s) ∧ ∀ b, get (set a v s) b = if b = a then v else get s b

/-- The writes of a table: each listed point takes its value, and the others stay. -/
theorem foldl_writes {β γ : Type} {P : State → Prop} {get : State → Nat → β} {set : Nat → β → State → State} (hset : Writes P get set)
    (f : Nat × γ → β) {l : Tab γ} (hl : Rising l) (s : State) (hs : P s) :
    P (l.foldl (fun s e => set e.1 (f e) s) s) ∧ (∀ e ∈ l, get (l.foldl (fun s e => set e.1 (f e) s) s) e.1 = f e) ∧
    ∀ a, (∀ e ∈ l, e.1 ≠ a) → get (l.foldl (fun s e => set e.1 (f e) s) s) a = get s a := by
  induction l generalizing s with
  | nil => exact ⟨hs, fun e he => by simp at he, fun _ _ => rfl⟩
  | cons x l ih =>
    obtain ⟨hp, hget⟩ := hset x.1 (f x) s hs
    obtain ⟨hp', hin, hout⟩ := ih (rising_tail hl) _ hp
    refine ⟨hp', fun e he => ?_, fun a ha => ?_⟩
    · rcases List.mem_cons.mp he with rfl | he
      · have hn : ∀ y ∈ l, y.1 ≠ e.1 := fun y hy => Nat.ne_of_gt (rising_head hl y hy)
        exact (hout e.1 hn).trans ((hget e.1).trans (if_pos rfl))
      · exact hin e he
    · have hx : a ≠ x.1 := (ha x (by simp)).symm
      exact (hout a fun e he => ha e (List.mem_cons_of_mem _ he)).trans ((hget a).trans (if_neg hx))

/-- The two passes of a latch: the points of the image that differ from their input buffer, then those that the buffer lists (R88). -/
theorem latch_get {β : Type} [DecidableEq β] {P : State → Prop} {get : State → Nat → β} {set : Nat → β → State → State}
    (hset : Writes P get set) (d : β) {cur inp : Tab β} (hcur : Rising cur) (hinp : Rising inp) (p : Nat → Bool) (f : Nat × β → β)
    (hf : ∀ e, (∀ x ∈ inp, x.1 ≠ e.1) → f e = d) {s : State} (hs : P s) (hget : ∀ a, get s a = Tab.get d cur a) :
    let s1 := (cur.filter fun e => p e.1 && Tab.get d inp e.1 != e.2).foldl (fun s e => set e.1 (f e) s) s
    let s2 := (inp.filter fun e => p e.1).foldl (fun s e => set e.1 e.2 s) s1
    P s1 ∧ P s2 ∧ ∀ a, get s2 a = if p a then Tab.get d inp a else get s a := by
  intro s1 s2
  obtain ⟨h1, hin1, hout1⟩ := foldl_writes hset f
    (l := cur.filter fun e => p e.1 && Tab.get d inp e.1 != e.2) (List.Pairwise.filter _ hcur) s hs
  obtain ⟨h2, hin2, hout2⟩ := foldl_writes hset (·.2) (l := inp.filter fun e => p e.1) (List.Pairwise.filter _ hinp) s1 h1
  refine ⟨h1, h2, fun a => ?_⟩
  by_cases hp : p a = true
  · rw [if_pos hp]
    rcases tab_listed d hinp a with hm | hn
    · exact hin2 _ (List.mem_filter.mpr ⟨hm, hp⟩)
    · have hd : Tab.get d inp a = d := tab_get_of_unlisted d hn
      refine (hout2 a fun e he => hn e (List.mem_filter.mp he).1).trans ?_
      by_cases hc : (a, Tab.get d cur a) ∈ cur ∧ Tab.get d cur a ≠ d
      · refine (hin1 (a, Tab.get d cur a) (List.mem_filter.mpr ⟨hc.1, ?_⟩)).trans ((hf _ hn).trans hd.symm)
        simpa [hp, hd] using fun e : d = Tab.get d cur a => hc.2 e.symm
      · have hz : Tab.get d cur a = d := by
          rcases tab_listed d hcur a with hm | hu
          · exact Classical.not_not.mp fun h => hc ⟨hm, h⟩
          · exact tab_get_of_unlisted d hu
        refine (hout1 a fun e he ha => ?_).trans ((hget a).trans (hz.trans hd.symm))
        subst ha
        obtain ⟨hm, hq⟩ := List.mem_filter.mp he
        rw [tab_get_of_mem d hcur hm] at hz
        simp [hd, hz] at hq
  · rw [if_neg hp]
    refine (hout2 a fun e he ha => hp (ha ▸ (List.mem_filter.mp he).2)).trans (hout1 a fun e he ha => hp ?_)
    have hq := (List.mem_filter.mp he).2
    rw [Bool.and_eq_true] at hq
    exact ha ▸ hq.1

/-! ## The input latch -/

/-- What the latch of an image leaves as it was in state s, with the tables of the images in order. -/
structure Latching (s t : State) : Prop where
  rbits    : Rising t.tsk.bits
  rwords   : Rising t.tsk.words
  regions  : SameRegions s t
  inBits   : t.tsk.inBits = s.tsk.inBits
  inWords  : t.tsk.inWords = s.tsk.inWords
  outBits  : t.tsk.outBits = s.tsk.outBits
  outWords : t.tsk.outWords = s.tsk.outWords

theorem setBit_latching {s t : State} (a : Nat) (v : Bool) (h : Latching s t) : Latching s (setBit none a v t) where
  rbits := setBit_rising _ _ _ _ h.rbits
  rwords := by rw [setBit_tsk]; exact h.rwords
  regions := ⟨(setBit_regions _ _ _ _).1.trans h.regions.1, (setBit_regions _ _ _ _).2.trans h.regions.2⟩
  inBits := by rw [setBit_tsk]; exact h.inBits
  inWords := by rw [setBit_tsk]; exact h.inWords
  outBits := by rw [setBit_tsk]; exact h.outBits
  outWords := by rw [setBit_tsk]; exact h.outWords

theorem setWord_latching {s t : State} (a : Nat) (v : W24) (h : Latching s t) : Latching s (setWord none a v t) where
  rbits := by rw [setWord_tsk]; exact h.rbits
  rwords := setWord_rising _ _ _ _ h.rwords
  regions := ⟨(setWord_regions _ _ _ _).1.trans h.regions.1, (setWord_regions _ _ _ _).2.trans h.regions.2⟩
  inBits := by rw [setWord_tsk]; exact h.inBits
  inWords := by rw [setWord_tsk]; exact h.inWords
  outBits := by rw [setWord_tsk]; exact h.outBits
  outWords := by rw [setWord_tsk]; exact h.outWords

theorem setBit_writes (s : State) : Writes (fun t => Latching s t ∧ t.tsk.words = s.tsk.words) (fun t => Tab.get false t.tsk.bits) (setBit none) :=
  fun a v t h => ⟨⟨setBit_latching a v h.1, by rw [setBit_tsk]; exact h.2⟩, setBit_get none a v t h.1.rbits⟩

theorem setWord_writes (s : State) : Writes (fun t => Latching s t ∧ t.tsk.bits = s.tsk.bits) (fun t => Tab.get 0 t.tsk.words) (setWord none) :=
  fun a v t h => ⟨⟨setWord_latching a v h.1, by rw [setWord_tsk]; exact h.2⟩, setWord_get none a v t h.1.rwords⟩

theorem latchBits_spec {s : State} (hb : Rising s.tsk.bits) (hw : Rising s.tsk.words) (hi : Rising s.tsk.inBits) :
    Latching s (latchBits s) ∧ (latchBits s).tsk.words = s.tsk.words ∧
    ∀ a, Tab.get false (latchBits s).tsk.bits a = if isInput (bitRegion s a) then Tab.get false s.tsk.inBits a else Tab.get false s.tsk.bits a := by
  obtain ⟨h1, h2, hget⟩ := latch_get (setBit_writes s) false hb hi (fun a => isInput (bitRegion s a)) (fun _ => false) (fun _ _ => rfl)
    (s := s) ⟨⟨hb, hw, ⟨rfl, rfl⟩, rfl, rfl, rfl, rfl⟩, rfl⟩ fun _ => rfl
  unfold latchBits
  simp only [h1.1.inBits, bitRegion_congr h1.1.regions]
  exact ⟨h2.1, h2.2, hget⟩

/-- The latch of the words reads the input buffers that it leaves as they are. -/
theorem foldl_own_inWords (l : List (Nat × W24)) (s : State) :
    l.foldl (fun t e => setWord none e.1 (Tab.get 0 t.tsk.inWords e.1) t) s =
    l.foldl (fun t e => setWord none e.1 (Tab.get 0 s.tsk.inWords e.1) t) s := by
  induction l generalizing s with
  | nil => rfl
  | cons e l ih =>
    rw [List.foldl_cons, List.foldl_cons, ih, setWord_tsk]

theorem latchWords_spec {s : State} (hb : Rising s.tsk.bits) (hw : Rising s.tsk.words) (hi : Rising s.tsk.inWords) :
    Latching s (latchWords s) ∧ (latchWords s).tsk.bits = s.tsk.bits ∧
    ∀ a, Tab.get 0 (latchWords s).tsk.words a = if isInput (wordRegion s a) then Tab.get 0 s.tsk.inWords a else Tab.get 0 s.tsk.words a := by
  obtain ⟨h1, h2, hget⟩ := latch_get (setWord_writes s) 0 hw hi (fun a => isInput (wordRegion s a)) (fun e => Tab.get 0 s.tsk.inWords e.1)
    (fun e he => tab_get_of_unlisted 0 he) (s := s) ⟨⟨hb, hw, ⟨rfl, rfl⟩, rfl, rfl, rfl, rfl⟩, rfl⟩ fun _ => rfl
  unfold latchWords
  simp only [foldl_own_inWords, h1.1.inWords, wordRegion_congr h1.1.regions]
  exact ⟨h2.1, h2.2, hget⟩

/-- The input latch (R88): each INPUT point takes its input buffer, and the others stay. -/
theorem latchInputs_spec {s : State} (hb : Rising s.tsk.bits) (hw : Rising s.tsk.words) (hi : Rising s.tsk.inBits) (hj : Rising s.tsk.inWords) :
    Latching s (latchInputs s) ∧
    (∀ a, Tab.get false (latchInputs s).tsk.bits a = if isInput (bitRegion s a) then Tab.get false s.tsk.inBits a else Tab.get false s.tsk.bits a) ∧
    ∀ a, Tab.get 0 (latchInputs s).tsk.words a = if isInput (wordRegion s a) then Tab.get 0 s.tsk.inWords a else Tab.get 0 s.tsk.words a := by
  obtain ⟨hl, hwords, hbits⟩ := latchBits_spec hb hw hi
  obtain ⟨hl', hbits', hwords'⟩ := latchWords_spec hl.rbits hl.rwords (hl.inWords ▸ hj)
  unfold latchInputs
  refine ⟨⟨hl'.rbits, hl'.rwords, ⟨hl'.regions.1.trans hl.regions.1, hl'.regions.2.trans hl.regions.2⟩, hl'.inBits.trans hl.inBits,
    hl'.inWords.trans hl.inWords, hl'.outBits.trans hl.outBits, hl'.outWords.trans hl.outWords⟩, fun a => ?_, fun a => ?_⟩
  · rw [hbits', hbits]
  · rw [hwords', wordRegion_congr hl.regions, hl.inWords, hwords]

/-! ## The output copy -/

/-- The output copy gives each OUTPUT point to its buffer (R87). -/
theorem outputCopy_get {s : State} (hb : Rising s.tsk.bits) (hw : Rising s.tsk.words) :
    (∀ a, Tab.get false (outputCopy s).tsk.outBits a = if isOutput (bitRegion s a) then Tab.get false s.tsk.bits a else false) ∧
    ∀ a, Tab.get 0 (outputCopy s).tsk.outWords a = if isOutput (wordRegion s a) then Tab.get 0 s.tsk.words a else 0 :=
  ⟨tab_get_filter false hb fun a => isOutput (bitRegion s a), tab_get_filter 0 hw fun a => isOutput (wordRegion s a)⟩

/-- A region has one class. -/
theorem isInput_of_isOutput {r : Option Region} (h : isOutput r = true) : isInput r = false := by
  cases r <;> simp_all [isOutput, isInput]

/-! ## What gives the input buffers their values -/

/-- An operation gives values to the input buffers at most: the images and the output buffers stay. -/
structure Feeds (s t : State) : Prop where
  bits     : t.tsk.bits = s.tsk.bits
  words    : t.tsk.words = s.tsk.words
  outBits  : t.tsk.outBits = s.tsk.outBits
  outWords : t.tsk.outWords = s.tsk.outWords
  inBits   : Rising s.tsk.inBits → Rising t.tsk.inBits
  inWords  : Rising s.tsk.inWords → Rising t.tsk.inWords

theorem Feeds.trans {s t u : State} (h : Feeds s t) (k : Feeds t u) : Feeds s u :=
  ⟨k.bits.trans h.bits, k.words.trans h.words, k.outBits.trans h.outBits, k.outWords.trans h.outWords, k.inBits ∘ h.inBits, k.inWords ∘ h.inWords⟩

theorem feeds_of_image {s t : State} (h : Keeps.image s t) : Feeds s t := by
  obtain ⟨-, h1, h2, h3, h4, h5, h6⟩ := h
  exact ⟨h1, h2, h5, h6, fun h => h3 ▸ h, fun h => h4 ▸ h⟩

theorem feeds_of_tsk {s t : State} (h : t.tsk = s.tsk) : Feeds s t := feeds_of_image (by simp [h])

theorem Feeds.refl (s : State) : Feeds s s := feeds_of_tsk rfl

theorem foldl_feeds {α : Type} (f : State → α → State) (h : ∀ s a, Feeds s (f s a)) (l : List α) (s : State) : Feeds s (l.foldl f s) :=
  foldl_inv (Feeds s) f (fun _ a ht => ht.trans (h _ a)) l s (Feeds.refl s)

theorem putRaw_feeds (a : Nat) (vs : List Bool) (s : State) : Feeds s (putRaw a vs s) :=
  ⟨rfl, rfl, rfl, rfl, fun h => rising_setRange false h a vs, id⟩

theorem putWords_feeds (a : Nat) (vs : List W24) (s : State) : Feeds s (putWords a vs s) :=
  ⟨rfl, rfl, rfl, rfl, id, fun h => rising_setRange 0 h a vs⟩

theorem putBit_feeds (a : Nat) (v : Bool) (s : State) : Feeds s (putBit a v s) := by
  obtain ⟨ht, hr⟩ := putBit_tsk a v s
  refine ⟨?_, ?_, ?_, ?_, fun h => (hr h).1, ?_⟩ <;> rw [ht]
  exact id

theorem putBits_feeds (a : Nat) (vs : List Bool) (s : State) : Feeds s (putBits a vs s) :=
  foldl_feeds (fun s (e : Bool × Nat) => putBit (a + e.2) e.1 s) (fun s e => putBit_feeds (a + e.2) e.1 s) vs.zipIdx s

theorem writeMailbox_feeds (q : Nat) (tag : W24) (k : Nat) (r : List Byte) (s : State) : Feeds s (writeMailbox q tag k r s) := by
  unfold writeMailbox
  split
  · exact Feeds.refl s
  · exact putWords_feeds _ _ s

theorem flushClosing_feeds (s : State) : Feeds s (flushClosing s) := by
  refine foldl_feeds _ (fun s q => ?_) _ s
  dsimp only
  generalize hu : updSer q (fun x => { x with closing := [] }) s = u
  have ht : u.tsk = s.tsk := by rw [← hu]; rfl
  exact (feeds_of_tsk ht).trans (foldl_feeds (fun s (e : PortMsg × Byte) => writeMailbox q e.1.tag e.2.toNat [] s)
    (fun s e => writeMailbox_feeds q e.1.tag e.2.toNat [] s) _ u)

theorem showHealth_feeds (n : Nat) (s : State) : Feeds s (showHealth n s) := by
  unfold showHealth
  split
  · exact putBits_feeds _ _ s
  · exact Feeds.refl s

theorem setNode_feeds (n : Nat) (st : NodeSt) (s : State) : Feeds s (setNode n st s) :=
  (feeds_of_tsk (s := s) (t := updNode n (fun x => { x with st := st }) s) rfl).trans (showHealth_feeds n _)

theorem countMiss_feeds (n : Nat) (e : PlNode) (s : State) : Feeds s (countMiss n e s) := by
  unfold countMiss
  dsimp only
  generalize hu : updNode n (fun x => { x with miss := satInc x.miss }) { s with ports.fld.miss := satInc s.ports.fld.miss } = u
  have ht : Feeds s u := feeds_of_tsk (by rw [← hu]; rfl)
  split
  · have hlost : Feeds s (accession 0 0x0A01 4 (beBytes 2 n) (setNode n .lost u)) :=
      (ht.trans (setNode_feeds n .lost u)).trans (feeds_of_tsk (by simp))
    split
    · exact (hlost.trans (putBits_feeds _ _ _)).trans (putWords_feeds _ _ _)
    · exact hlost
  · exact ht

theorem sendPoint_feeds (n : Nat) (s : State) : Feeds s (sendPoint n s) := by
  unfold sendPoint
  split
  · exact Feeds.refl s
  · rename_i e _
    dsimp only
    split
    · exact Feeds.refl s
    · have hmiss : Feeds s (if (node s n).await then countMiss n e s else s) := by
        split
        · exact countMiss_feeds n e s
        · exact Feeds.refl s
      generalize (if (node s n).await then countMiss n e s else s) = u at hmiss
      refine hmiss.trans (feeds_of_tsk ?_)
      split
      · simp
      · rfl

theorem commitSends_feeds (done : List Nat) (s : State) : Feeds s (commitSends done s) := by
  refine foldl_feeds _ (fun s e => ?_) _ s
  split
  · exact sendPoint_feeds _ s
  · exact Feeds.refl s

theorem gpioLatch_feeds (s : State) : Feeds s (gpioLatch s) := by
  refine foldl_feeds _ (fun s p => ?_) _ s
  split
  · exact putRaw_feeds _ _ s
  · exact Feeds.refl s

theorem latchSub_feeds (b i : Nat) (s : State) : Feeds s (latchSub b i s) := by
  unfold latchSub
  dsimp only
  split
  · exact Feeds.refl s
  · split
    · exact Feeds.refl s
    · split
      · split
        · exact (putWords_feeds _ _ s).trans (feeds_of_tsk rfl)
        · exact (putRaw_feeds _ _ s).trans (feeds_of_tsk rfl)
      · split
        · exact feeds_of_tsk (by simp)
        · exact feeds_of_tsk rfl

/-- The pass regions of a tick after the latch of their data (R345, R346): in a basin each gives what has come, outside one none is fresh. -/
def ringSubs (s : State) : State :=
  if inBasin s then s.pas.subs.foldl (fun t e => latchSub (basinTick s) e.1 t) s
  else { s with pas.subs := s.pas.subs.map fun e => (e.1, { e.2 with fresh := false }) }

/-- The latch of the pass regions, and the grain that shows which are fresh where it is enabled. -/
theorem ringLatch_eq (s : State) : ringLatch s =
    let u := { ringSubs s with pas.fresh := freshMap (ringSubs s) }
    if u.pas.freshEn then putRaw (64 * u.pas.freshGrain.toNat) ((List.range 64).map fun m => u.pas.fresh.getLsbD m) u else u := rfl

theorem ringSubs_feeds (s : State) : Feeds s (ringSubs s) := by
  unfold ringSubs
  split
  · exact foldl_feeds (fun t (e : Nat × Sub) => latchSub (basinTick s) e.1 t) (fun t e => latchSub_feeds _ e.1 t) _ s
  · exact feeds_of_tsk rfl

theorem ringLatch_feeds (s : State) : Feeds s (ringLatch s) := by
  rw [ringLatch_eq]
  have h : Feeds s { ringSubs s with pas.fresh := freshMap (ringSubs s) } := (ringSubs_feeds s).trans (feeds_of_tsk rfl)
  generalize { ringSubs s with pas.fresh := freshMap (ringSubs s) } = u at h
  dsimp only
  split
  · exact h.trans (putRaw_feeds _ _ u)
  · exact h

end Sys2Proof.Proofs
end

section
/-! The tick edge of a quiet module alone (R84): what its steps come to where no task holds a release. -/

namespace Sys2Proof.Proofs

open Sys2Proof.Machine Sys2Proof.Safety Sys2Proof.Laws

/-! ## Run control -/

/-- No task holds a release. -/
abbrev Unheld (s : State) : Prop := ∀ n, released (task s n) = false

theorem unheld_of_tsk {s t : State} (h : t.tsk.tasks = s.tsk.tasks) (hs : Unheld s) : Unheld t := fun n => by
  unfold task; rw [h]; exact hs n

/-- A change of one task that leaves it present and without a release. -/
theorem unheld_updTask {n : Nat} {f : Task → Task} {s : State} (hs : Unheld s) (hp : (f (task s n)).st ≠ .absent)
    (hr : released (f (task s n)) = false) : Unheld (updTask n f s) := fun k => by
  by_cases hk : k = n
  · subst hk; rw [task_updTask_of_present k f s hp]; exact hr
  · rw [task_updTask_ne f s hk]; exact hs k

/-- The tasks may differ, and nothing else of the task system. -/
abbrev OnlyTasks (s t : State) : Prop := t.tsk = { s.tsk with tasks := t.tsk.tasks }

theorem onlyTasks_foldl {α : Type} {f : State → α → State} (h : ∀ s a, OnlyTasks s (f s a)) (l : List α) (s : State) :
    OnlyTasks s (l.foldl f s) :=
  foldl_inv (OnlyTasks s) f (fun t a ht => by
    have hf := h t a
    unfold OnlyTasks at hf ht ⊢
    rw [hf, ht]) l s rfl

theorem abandon_onlyTasks (n : Nat) (s : State) : OnlyTasks s (abandon n s) := by
  unfold abandon
  split
  · simp [OnlyTasks]
  · rfl

theorem abandon_of_not_released {n : Nat} {s : State} (h : released (task s n) = false) : abandon n s = s := by
  simp [abandon, h]

theorem enableTask_keeps (n : Nat) (s : State) : OnlyTasks s (enableTask n s) ∧ (Unheld s → Unheld (enableTask n s)) := by
  unfold enableTask
  split
  · exact ⟨rfl, id⟩
  · rename_i ha
    refine ⟨rfl, fun h => unheld_updTask h ?_ ?_⟩
    · dsimp only; split <;> simp [ha]
    · have hr := h n
      unfold released at hr ⊢
      dsimp only
      split
      · rfl
      · exact hr

theorem restartTask_keeps (n : Nat) (s : State) : OnlyTasks s (restartTask n s) ∧ (Unheld s → Unheld (restartTask n s)) := by
  unfold restartTask
  split
  · exact ⟨rfl, fun h => unheld_updTask h (by simp) rfl⟩
  · exact ⟨rfl, id⟩

theorem disableTask_keeps (n : Nat) (s : State) : OnlyTasks s (disableTask n s) ∧ (Unheld s → Unheld (disableTask n s)) := by
  unfold disableTask
  split
  · exact ⟨rfl, id⟩
  · refine ⟨?_, fun h => ?_⟩
    · have hab := abandon_onlyTasks n s
      unfold OnlyTasks at hab ⊢
      rw [updTask_tsk, hab]
    · rw [abandon_of_not_released (h n)]
      exact unheld_updTask h (by simp) rfl

/-- The enables, restarts and disables of an edge change tasks alone, and give none a release (R105). -/
theorem applyTaskControl_keeps (s : State) :
    (applyTaskControl s).tsk = { s.tsk with tasks := (applyTaskControl s).tsk.tasks, enables := [], restarts := [], disables := [] } ∧
    (Unheld s → Unheld (applyTaskControl s)) := by
  have hcomp : ∀ (l : List Nat) (f : State → Nat → State), (∀ s n, OnlyTasks s (f s n) ∧ (Unheld s → Unheld (f s n))) →
      ∀ s, OnlyTasks s (l.foldl f s) ∧ (Unheld s → Unheld (l.foldl f s)) := fun l f hf s =>
    ⟨onlyTasks_foldl (fun s n => (hf s n).1) l s, fun h => foldl_inv Unheld f (fun t n ht => (hf t n).2 ht) l s h⟩
  obtain ⟨h1, k1⟩ := hcomp s.tsk.enables (fun s n => enableTask n s) (fun s n => enableTask_keeps n s) s
  unfold applyTaskControl
  generalize s.tsk.enables.foldl (fun s n => enableTask n s) s = a at h1 k1
  obtain ⟨h2, k2⟩ := hcomp a.tsk.restarts (fun s n => restartTask n s) (fun s n => restartTask_keeps n s) a
  dsimp only
  generalize a.tsk.restarts.foldl (fun s n => restartTask n s) a = b at h2 k2
  obtain ⟨h3, k3⟩ := hcomp b.tsk.disables (fun s n => disableTask n s) (fun s n => disableTask_keeps n s) b
  generalize b.tsk.disables.foldl (fun s n => disableTask n s) b = c at h3 k3
  refine ⟨?_, fun h => unheld_of_tsk rfl (k3 (k2 (k1 h)))⟩
  unfold OnlyTasks at h1 h2 h3
  rw [h3, h2, h1]

/-- A change of the time base changes its own registers and no task. -/
theorem timebaseEdge_tsk (s : State) : (timebaseEdge s).tsk = { s.tsk with
    tbCtrl := (timebaseEdge s).tsk.tbCtrl, tbNext := (timebaseEdge s).tsk.tbNext, activeSrc := (timebaseEdge s).tsk.activeSrc,
    locked := (timebaseEdge s).tsk.locked, offset := (timebaseEdge s).tsk.offset } := by
  unfold timebaseEdge retime
  dsimp only
  (repeat' split) <;> simp

theorem timebaseEdge_ports (s : State) : (timebaseEdge s).ports = { s.ports with ppsHigh := (timebaseEdge s).ports.ppsHigh } := by
  unfold timebaseEdge retime timebaseAcc
  dsimp only
  (repeat' split) <;> simp

theorem timebaseEdge_basin (s : State) : Keeps.basin s (timebaseEdge s) := by
  unfold Keeps.basin timebaseEdge retime timebaseAcc
  dsimp only
  (repeat' split) <;> simp


/-! ## The edge of a quiet module -/

/-- What holds of a module alone at the edge of its present tick where no release, no STOP, no edit and no host write is due: the rest
of the edge changes only what the latch gives. -/
structure QuietEdge (s : State) : Prop where
  alone   : s.red.role = 0
  noSwap  : s.red.switchAt = none
  unheld  : Unheld s
  stopped : s.tsk.mode = .stop
  noSteps : s.tsk.steps = []
  noRun   : s.tsk.runAt = none
  noStop  : stopsAt s.tsk.tick s = false
  noEdit  : s.prog.edit = .none
  noOwned : s.prog.owned = []
  written : s.tsk.writes = []

theorem handsOver_alone {s : State} (h : s.red.role = 0) (t : Tick) : handsOver t s = false := by
  simp [handsOver, h]

/-- What the first step of a quiet edge does: run control of tasks that hold no release, and the source of time. -/
def edgeHead (s : State) : State := applyTaskControl (timebaseEdge (dioEdge s))

theorem edgeHead_tsk (s : State) : (edgeHead s).tsk = { s.tsk with
    tbCtrl := (edgeHead s).tsk.tbCtrl, tbNext := (edgeHead s).tsk.tbNext, activeSrc := (edgeHead s).tsk.activeSrc,
    locked := (edgeHead s).tsk.locked, offset := (edgeHead s).tsk.offset, tasks := (edgeHead s).tsk.tasks,
    enables := [], restarts := [], disables := [] } := by
  have h := (applyTaskControl_keeps (timebaseEdge (dioEdge s))).1
  have k := timebaseEdge_tsk (dioEdge s)
  unfold edgeHead
  rw [h, k]
  simp

theorem edgeHead_unheld {s : State} (h : Unheld s) : Unheld (edgeHead s) :=
  (applyTaskControl_keeps _).2 (unheld_of_tsk (by rw [timebaseEdge_tsk]; simp) h)

theorem stopsAt_timebaseEdge {s : State} (h : QuietEdge s) : stopsAt s.tsk.tick (timebaseEdge (dioEdge s)) = false := by
  have hs := h.noStop
  unfold stopsAt at hs ⊢
  rw [handsOver_alone h.alone] at hs
  rw [handsOver_alone (by simp [h.alone]), timebaseEdge_tsk]
  simpa using hs

theorem firstStep_quiet {s : State} (h : QuietEdge s) : (firstStep (dioEdge s)).1 = edgeHead s := by
  have hedit : editAt (dioEdge s).tsk.tick (dioEdge s) = dioEdge s := by simp [editAt, h.noEdit]
  have hstop : stopsAt (dioEdge s).tsk.tick (timebaseEdge (dioEdge s)) = false := by
    simpa using stopsAt_timebaseEdge h
  have hrun : (edgeHead s).tsk.runAt = none := by rw [edgeHead_tsk]; exact h.noRun
  have hsteps : (edgeHead s).tsk.steps = [] := by rw [edgeHead_tsk]; exact h.noSteps
  unfold firstStep
  dsimp only
  rw [hedit, hstop]
  have hhead : applyTaskControl (timebaseEdge (dioEdge s)) = edgeHead s := rfl
  simp only [Bool.false_eq_true, if_false, hhead, runDue, hrun, hsteps, Bool.false_and, ne_eq, not_true_eq_false, and_false]

/-- With no release held, no task commits at an edge. -/
theorem commitPart_unheld {s : State} (h : Unheld s) : commitPart false s = (s, {}) := by
  have hguard : guardAll s = s := by
    have hg : guardTasks s = [] := by simp [guardTasks, h _]
    unfold guardAll; rw [hg]; rfl
  have hbg : backgroundDone s = [] := by
    refine List.filter_eq_nil_iff.mpr fun n _ hn => ?_
    have hr := h n
    simp_all [released]
  have hdl : deadlineTasks s = [] := by simp [deadlineTasks, h _]
  have hreq : reqCommit [] s = s := by simp [reqCommit]
  simp [commitPart, hguard, hbg, hdl, hreq]

/-- With no directive that waits, the directives of an edge change nothing. -/
theorem applyDirectives_none {s : State} (h : s.prog.owned = []) (rel : List Nat) : applyDirectives rel s = s := by
  simp only [applyDirectives, h, List.filter_nil, List.foldl_nil]
  rw [← h]

/-- A module in STOP with no STEP releases no task. -/
theorem ownReleases_stopped {s : State} (ha : s.red.role = 0) (hm : s.tsk.mode = .stop) (bg : Bool) :
    ownReleases bg s = { s with tsk.steps := [], tsk.triggers := [] } := by
  simp [ownReleases, standby, ha, hm, releaseDue]


/-- The module at the latch of an edge at which nothing has committed: every source has given its values to the input buffers. -/
def edgeLatched (inp : TickIn) (s : State) : State :=
  latchTime inp.srcTime (ringLatch (flushClosing (afterCommits {} (gpioTick inp.mfp (gpioLatch s)))))

theorem afterCommits_nothing (s : State) : afterCommits {} s = commitDue [] (commitSends [] (outputCopy s)) := rfl

theorem sendEvents_nil (s : State) : sendEvents [] s = s := rfl

/-- The edge of a quiet module: its first step, the latch, and what follows it and changes no image. -/
theorem edgeBody_quiet {s : State} (inp : TickIn) (h : QuietEdge s) : ∃ items, edgeBody inp s =
    compareDigests (drainEnd (giveCluster (sendRecord items
      (ownReleases false (latchInputs (edgeLatched inp (edgeHead s))))))) := by
  obtain ⟨⟨a, items⟩, hf⟩ : ∃ x, firstStep (dioEdge s) = x := ⟨_, rfl⟩
  have ha : a = edgeHead s := by rw [← firstStep_quiet h, hf]
  have htsk := edgeHead_tsk s
  have hred : (edgeHead s).red = s.red := by simp [edgeHead]
  have hprog : (edgeHead s).prog = s.prog := by simp [edgeHead]
  have hwrites : (edgeHead s).tsk.writes = [] := by rw [htsk]; exact h.written
  have hclear : { edgeHead s with tsk.writes := [] } = edgeHead s := by rw [← hwrites]
  have hawait : awaitsRecord (edgeHead s) = false := by simp [awaitsRecord, hred, h.alone]
  have hfinal : ∀ t : State, t.red = s.red → finalCopy t = t := fun t ht => by simp [finalCopy, ht, h.alone]
  have hover : handOver s = s := by simp [handOver, handsOver_alone h.alone]
  have howes : owesCommits false (edgeHead s) = false := by simp [owesCommits, hred, h.alone]
  have hswap : switchoverNow (edgeHead s) = edgeHead s := by simp [switchoverNow, switchDue, hred, h.noSwap]
  unfold edgeBody
  simp only [hover, hf, ha, h.noStop, howes, commitPart_unheld (edgeHead_unheld h.unheld), hswap, hwrites, hclear, hawait,
    applyDirectives_none (hprog ▸ h.noOwned), List.foldl_nil, List.any_nil, List.map_nil, Bool.false_eq_true, if_false]
  rw [if_neg (by simp [hred, h.alone]), hfinal _ (by simp [afterCommits_nothing, hred]), sendEvents_nil]
  unfold edgeLatched
  exact ⟨_, rfl⟩


/-! ## The image after a quiet edge -/

theorem edgeHead_image (s : State) : Keeps.image s (edgeHead s) := by
  unfold Keeps.image; rw [edgeHead_tsk]; simp

theorem edgeLatched_regions (inp : TickIn) (s : State) : SameRegions s (edgeLatched inp s) := by
  simp [SameRegions, edgeLatched, afterCommits_nothing]

theorem outputCopy_keeps (s : State) : (outputCopy s).tsk.bits = s.tsk.bits ∧ (outputCopy s).tsk.words = s.tsk.words ∧
    (outputCopy s).tsk.inBits = s.tsk.inBits ∧ (outputCopy s).tsk.inWords = s.tsk.inWords := ⟨rfl, rfl, rfl, rfl⟩

/-- At the latch of an edge the images are as they were, and the OUTPUT points stand in their buffers. -/
theorem edgeLatched_spec (inp : TickIn) {s : State} (hb : Rising s.tsk.bits) (hw : Rising s.tsk.words) :
    (edgeLatched inp s).tsk.bits = s.tsk.bits ∧ (edgeLatched inp s).tsk.words = s.tsk.words ∧
    (Rising s.tsk.inBits → Rising (edgeLatched inp s).tsk.inBits) ∧ (Rising s.tsk.inWords → Rising (edgeLatched inp s).tsk.inWords) ∧
    (∀ a, Tab.get false (edgeLatched inp s).tsk.outBits a = if isOutput (bitRegion s a) then Tab.get false s.tsk.bits a else false) ∧
    ∀ a, Tab.get 0 (edgeLatched inp s).tsk.outWords a = if isOutput (wordRegion s a) then Tab.get 0 s.tsk.words a else 0 := by
  have hgpio : Feeds s (gpioTick inp.mfp (gpioLatch s)) := (gpioLatch_feeds s).trans (feeds_of_tsk (by simp))
  have hreg : SameRegions s (gpioTick inp.mfp (gpioLatch s)) := by simp [SameRegions]
  have hrest : Feeds (outputCopy (gpioTick inp.mfp (gpioLatch s))) (edgeLatched inp s) := by
    unfold edgeLatched
    rw [afterCommits_nothing]
    generalize outputCopy (gpioTick inp.mfp (gpioLatch s)) = t
    have hsends : Feeds t (commitDue [] (commitSends [] t)) := (commitSends_feeds [] t).trans (feeds_of_tsk (by simp))
    have hclosed := hsends.trans (flushClosing_feeds _)
    exact (hclosed.trans (ringLatch_feeds _)).trans (feeds_of_image (latchTime_image _ _))
  obtain ⟨hcb, hcw⟩ := outputCopy_get (s := gpioTick inp.mfp (gpioLatch s)) (by rw [hgpio.bits]; exact hb) (by rw [hgpio.words]; exact hw)
  obtain ⟨kb, kw, ki, kj⟩ := outputCopy_keeps (gpioTick inp.mfp (gpioLatch s))
  refine ⟨hrest.bits.trans (kb.trans hgpio.bits), hrest.words.trans (kw.trans hgpio.words), fun h => hrest.inBits ?_, fun h => hrest.inWords ?_,
    fun a => ?_, fun a => ?_⟩
  · rw [ki]; exact hgpio.inBits h
  · rw [kj]; exact hgpio.inWords h
  · rw [hrest.outBits, hcb, bitRegion_congr hreg, hgpio.bits]
  · rw [hrest.outWords, hcw, wordRegion_congr hreg, hgpio.words]

/-- The images and the buffers at the end of a quiet edge are those of its latch. -/
theorem edgeBody_image {s : State} (inp : TickIn) (h : QuietEdge s) :
    Keeps.image (latchInputs (edgeLatched inp (edgeHead s))) (edgeBody inp s) := by
  obtain ⟨items, he⟩ := edgeBody_quiet inp h
  rw [he]
  simp

/-- The edge of a quiet module alone (R84, R87, R88): the INPUT points take their buffers, and the OUTPUT points go to theirs. -/
theorem edgeBody_quiet_image {s t : State} (inp : TickIn) (h : QuietEdge s) (hm : Memory.wf s = true) (ht : t = edgeBody inp s) :
    t.tsk.inBits = (edgeLatched inp (edgeHead s)).tsk.inBits ∧ t.tsk.inWords = (edgeLatched inp (edgeHead s)).tsk.inWords ∧
    (∀ a, Tab.get false t.tsk.bits a = if isInput (bitRegion s a) then Tab.get false t.tsk.inBits a else Tab.get false s.tsk.bits a) ∧
    (∀ a, Tab.get 0 t.tsk.words a = if isInput (wordRegion s a) then Tab.get 0 t.tsk.inWords a else Tab.get 0 s.tsk.words a) ∧
    (∀ a, Tab.get false t.tsk.outBits a = if isOutput (bitRegion s a) then Tab.get false t.tsk.bits a else false) ∧
    (∀ a, Tab.get 0 t.tsk.outWords a = if isOutput (wordRegion s a) then Tab.get 0 t.tsk.words a else 0) := by
  obtain ⟨hbits, hwords, hinBits, hinWords, -, -, -⟩ := (memory_wf_iff s).mp hm
  obtain ⟨-, kbits, kwords, kinBits, kinWords, -, -⟩ := edgeHead_image s
  obtain ⟨lbits, lwords, linBits, linWords, loutBits, loutWords⟩ := edgeLatched_spec inp (s := edgeHead s)
    (by rw [kbits]; exact rising_of_wf hbits) (by rw [kwords]; exact rising_of_wf hwords)
  have hreg : SameRegions s (edgeLatched inp (edgeHead s)) := by
    have h1 := edgeLatched_regions inp (edgeHead s)
    have h2 : SameRegions s (edgeHead s) := by simp [SameRegions, edgeHead]
    exact ⟨h1.1.trans h2.1, h1.2.trans h2.2⟩
  have hhead : SameRegions s (edgeHead s) := by simp [SameRegions, edgeHead]
  obtain ⟨hl, gbits, gwords⟩ := latchInputs_spec (s := edgeLatched inp (edgeHead s)) (by rw [lbits, kbits]; exact rising_of_wf hbits)
    (by rw [lwords, kwords]; exact rising_of_wf hwords) (linBits (by rw [kinBits]; exact rising_of_wf hinBits))
    (linWords (by rw [kinWords]; exact rising_of_wf hinWords))
  obtain ⟨-, tbits, twords, tinBits, tinWords, toutBits, toutWords⟩ := edgeBody_image inp h
  rw [← ht] at tbits twords tinBits tinWords toutBits toutWords
  have hb : ∀ a, Tab.get false t.tsk.bits a = if isInput (bitRegion s a) then Tab.get false t.tsk.inBits a else Tab.get false s.tsk.bits a := fun a => by
    rw [tbits, tinBits, hl.inBits, gbits, bitRegion_congr hreg, lbits, kbits]
  have hw : ∀ a, Tab.get 0 t.tsk.words a = if isInput (wordRegion s a) then Tab.get 0 t.tsk.inWords a else Tab.get 0 s.tsk.words a := fun a => by
    rw [twords, tinWords, hl.inWords, gwords, wordRegion_congr hreg, lwords, kwords]
  refine ⟨tinBits.trans hl.inBits, tinWords.trans hl.inWords, hb, hw, fun a => ?_, fun a => ?_⟩
  · rw [toutBits, hl.outBits, loutBits, bitRegion_congr hhead, kbits, hb]
    split
    · rename_i ho; rw [isInput_of_isOutput ho, if_neg Bool.false_ne_true]
    · rfl
  · rw [toutWords, hl.outWords, loutWords, wordRegion_congr hhead, kwords, hw]
    split
    · rename_i ho; rw [isInput_of_isOutput ho, if_neg Bool.false_ne_true]
    · rfl

/-! ## An edge at which nothing gives the input buffers a value -/

/-- No GPIO, serial-class port or node gives the input buffers a value, and the module is in no basin. -/
structure NoInputs (s : State) : Prop where
  ports  : ∀ p < 6, enabled s 0x25 p = false ∧ (ser s p).closing = [] ∧ (ser s p).rs485 = none ∧ (ser s p).can = none
  nodes  : s.ports.fld.nodes = []
  alone  : inBasin s = false
  unread : s.pas.freshEn = false

/-- The input buffers are the same in both states. -/
abbrev SameInputs (s t : State) : Prop := t.tsk.inBits = s.tsk.inBits ∧ t.tsk.inWords = s.tsk.inWords

/-- The messages that close show in no mailbox when there are none. -/
theorem flushClosing_none {s : State} (h : ∀ q < 6, (ser s q).closing = []) : (flushClosing s).tsk = s.tsk := by
  have hfold : ∀ (l : List Nat), l.Nodup → ∀ t : State, (∀ q ∈ l, (ser t q).closing = []) →
      (l.foldl (fun s q => (ser s q).closing.foldl (fun s e => writeMailbox q e.1.tag e.2.toNat [] s)
        (updSer q (fun x => { x with closing := [] }) s)) t).tsk = t.tsk := by
    intro l
    induction l with
    | nil => intro _ t _; rfl
    | cons q l ih =>
      intro hn t ht
      obtain ⟨hq, hn⟩ := List.nodup_cons.mp hn
      rw [List.foldl_cons, ht q (by simp), List.foldl_nil, ih hn]
      · rfl
      · intro k hk
        rw [ser_updSer_ne _ _ fun e : k = q => hq (e ▸ hk)]
        exact ht k (List.mem_cons_of_mem _ hk)
  exact hfold (List.range 6) List.nodup_range s fun q hq => h q (List.mem_range.mp hq)

theorem commitPort_none {s : State} {q : Nat} (hr : (ser s q).rs485 = none) (hc : (ser s q).can = none) (done : List Nat) :
    commitPort done s q = s := by
  simp [commitPort, hr, hc]

theorem foldl_fixed {α β : Type} {f : β → α → β} {b : β} {l : List α} (h : ∀ a ∈ l, f b a = b) : l.foldl f b = b := by
  induction l with
  | nil => rfl
  | cons a l ih => rw [List.foldl_cons, h a (by simp), ih fun x hx => h x (List.mem_cons_of_mem _ hx)]

theorem commitDue_none {s : State} (h : ∀ q < 6, (ser s q).rs485 = none ∧ (ser s q).can = none) (done : List Nat) : commitDue done s = s :=
  foldl_fixed fun q hq => commitPort_none (h q (List.mem_range.mp hq)).1 (h q (List.mem_range.mp hq)).2 done

theorem gpioLatch_none {s : State} (h : ∀ p < 6, enabled s 0x25 p = false) : gpioLatch s = s :=
  foldl_fixed fun p hp => by simp [h p (List.mem_range.mp hp)]

theorem ringLatch_none {s : State} (hb : inBasin s = false) (hf : s.pas.freshEn = false) : (ringLatch s).tsk = s.tsk := by
  rw [ringLatch_eq]
  simp [ringSubs, hb, hf]

/-- A tick of the GPIO ports touches these and the levels of the pins alone. -/
theorem gpioTick_ports (mfp : BitVec 6) (s : State) :
    (gpioTick mfp s).ports.ser = s.ports.ser ∧ (gpioTick mfp s).ports.fld = s.ports.fld :=
  foldl_inv (fun t : State => t.ports.ser = s.ports.ser ∧ t.ports.fld = s.ports.fld) _
    (fun t p h => by dsimp only; split <;> exact h) (List.range 6) { s with ports.mfpLevel := mfp } ⟨rfl, rfl⟩

theorem ser_congr {s t : State} (h : t.ports.ser = s.ports.ser) (q : Nat) : ser t q = ser s q := by
  unfold ser; rw [h]

theorem commitSends_none {s : State} (h : s.ports.fld.nodes = []) (done : List Nat) : commitSends done s = s := by
  simp [commitSends, h]

/-- With no source of inputs the latch of an edge finds the input buffers as they were. -/
theorem edgeLatched_none {s : State} (inp : TickIn) (h : NoInputs s) : SameInputs s (edgeLatched inp s) := by
  have hser : ∀ q, ser (outputCopy (gpioTick inp.mfp s)) q = ser s q := ser_congr (by simpa using (gpioTick_ports inp.mfp s).1)
  have hsends : commitSends [] (outputCopy (gpioTick inp.mfp s)) = outputCopy (gpioTick inp.mfp s) :=
    commitSends_none (by simpa [(gpioTick_ports inp.mfp s).2] using h.nodes) []
  have hdue : commitDue [] (outputCopy (gpioTick inp.mfp s)) = outputCopy (gpioTick inp.mfp s) :=
    commitDue_none (fun q hq => by rw [hser]; exact (h.ports q hq).2.2) []
  have hflush := flushClosing_none (s := outputCopy (gpioTick inp.mfp s)) fun q hq => by rw [hser]; exact (h.ports q hq).2.1
  have hring : (ringLatch (flushClosing (outputCopy (gpioTick inp.mfp s)))).tsk = (flushClosing (outputCopy (gpioTick inp.mfp s))).tsk :=
    ringLatch_none (by simpa [inBasin] using h.alone) (by simpa using h.unread)
  obtain ⟨-, -, hi, hj⟩ := outputCopy_keeps (gpioTick inp.mfp s)
  have hlast := latchTime_image inp.srcTime (ringLatch (flushClosing (outputCopy (gpioTick inp.mfp s))))
  obtain ⟨-, -, -, hli, hlj, -, -⟩ := hlast
  unfold edgeLatched
  rw [gpioLatch_none fun p hp => (h.ports p hp).1, afterCommits_nothing, hsends, hdue]
  refine ⟨?_, ?_⟩
  · rw [hli, hring, hflush, hi]; simp
  · rw [hlj, hring, hflush, hj]; simp

theorem edgeHead_noInputs {s : State} (h : NoInputs s) : NoInputs (edgeHead s) := by
  have hports : (edgeHead s).ports = { s.ports with ppsHigh := (timebaseEdge (dioEdge s)).ports.ppsHigh } := by
    have hp := timebaseEdge_ports (dioEdge s)
    simpa [edgeHead] using hp
  have hbasin : Keeps.basin s (edgeHead s) := by
    have hb := timebaseEdge_basin (dioEdge s)
    simpa [edgeHead] using hb
  obtain ⟨hring, hfresh⟩ := hbasin
  have hser : ∀ q, ser (edgeHead s) q = ser s q := ser_congr (by rw [hports])
  have hen : ∀ p, enabled (edgeHead s) 0x25 p = enabled s 0x25 p := fun p => by simp [enabled, edgeHead]
  exact ⟨fun p hp => by rw [hser, hen]; exact h.ports p hp, by rw [hports]; exact h.nodes, by unfold inBasin; rw [hring]; exact h.alone,
    hfresh.trans h.unread⟩

/-! ## The edge of `EdgeQuiet` -/

/-- The tick counter advances before the rest of the edge. -/
def ticked (s : State) : State := { s with tsk.tick := s.tsk.tick + 1, sys.upTicks := s.sys.upTicks + 1 }

/-- What a standby would have left to be presumed does not wait at a module alone (R378). -/
theorem presumeDue_alone {s : State} (hr : s.red.role = 0) (ho : s.red.owed = false) (hd : s.red.dirsOwed = false) : presumeDue s = s := by
  simp [presumeDue, settleOwed, hr, ho, hd]

theorem tickEdge_quiet {s : State} (inp : TickIn) (h : EdgeQuiet s) : tickEdge inp s = edgeBody inp (ticked s) := by
  obtain ⟨hrole, -, howed, hdirs⟩ := h.alone
  have ht : ticks s = true := by simp [ticks, h.awake, h.ready]
  have hsup : supRuns (ticked s) = true := by simp [supRuns, ticked, fromStep6, h.awake, h.ready]
  unfold tickEdge
  rw [if_pos ht, presumeDue_alone hrole howed hdirs]
  exact if_pos hsup

theorem quietEdge_ticked {s : State} (h : EdgeQuiet s) (hw : s.tsk.writes = []) : QuietEdge (ticked s) where
  alone := h.alone.1
  noSwap := h.alone.2.1
  unheld := h.unheld
  stopped := h.stays.1
  noSteps := h.stays.2.1
  noRun := h.stays.2.2.1
  noStop := h.stays.2.2.2
  noEdit := h.program.1
  noOwned := h.program.2
  written := hw

end Sys2Proof.Proofs
end

section
/-! The tick edge, releases, commits, overruns and the start of RUN as the obligation states them (R54, R71, R84 to R97, R107). -/

namespace Sys2Proof.Proofs

open Sys2Proof.Machine Sys2Proof.Safety Sys2Proof.Laws

/-! ## The tick edge -/

theorem ticks_iff (s : State) : ticks s = true ↔ s.sys.asleep = false ∧ s.sys.boot ≠ .off ∧ s.sys.boot ≠ .reset := by
  simp [ticks, and_assoc]

/-- The tick edge of a module whose counter does not advance sends only what waits (R71). -/
theorem execTickEdge_of_still {s : State} (inp : TickIn) (h : s.sys.asleep = true ∨ s.sys.boot = .off ∨ s.sys.boot = .reset) :
    exec (.tickEdge inp) s = .next (settle s) := by
  have ht : ticks s = false := by rcases h with h | h | h <;> simp [ticks, h]
  show execTickEdge inp s = _
  simp [execTickEdge, ht]

theorem execTickEdge_of_ticks {s : State} (inp : TickIn) (h : ticks s = true) :
    exec (.tickEdge inp) s = .next (settle (startGoesOn (tickEdge inp s))) := by
  show execTickEdge inp s = _
  simp [execTickEdge, h]

/-- The counter of an edge counts one tick (R71). -/
theorem tickEdge_counts {s : State} (inp : TickIn) (h : ticks s = true) :
    (tickEdge inp s).tsk.tick = s.tsk.tick + 1 ∧ (tickEdge inp s).sys.upTicks = s.sys.upTicks + 1 := by
  unfold tickEdge
  rw [if_pos h]
  dsimp only
  split <;> simp

/-- Start-up ends the step in progress at a tick edge (R54). -/
theorem startGoesOn_boot (s : State) :
    (s.sys.boot = .step3 → (startGoesOn s).sys.boot = .step4) ∧ (s.sys.boot = .step4 → (startGoesOn s).sys.boot = .step5) ∧
    (s.sys.boot = .step5 → (startGoesOn s).sys.boot = .step6) ∧ (s.sys.boot = .step7 → (startGoesOn s).sys.boot = .ready) ∧
    (s.sys.boot = .ready → startGoesOn s = s) := by
  refine ⟨fun h => ?_, fun h => ?_, fun h => ?_, fun h => ?_, fun h => ?_⟩ <;> simp [startGoesOn, h, finishStart_sys]

/-! ## The start of RUN -/

/-- RUN_START_TICK at the start tick of a RUN (R107). -/
theorem execRunStartTick_eq (s : State) : execRunStartTick s = .next (if s.tsk.runAt = some (s.tsk.tick + 1) ∧
      stopsAt (s.tsk.tick + 1) s = false ∧ decides (s.tsk.tick + 1) s = true then { s with
        tsk.mode := .run,
        tsk.tasks := if s.tsk.mode = .stop then s.tsk.tasks.map (fun e => (e.1, { e.2 with fullK := true })) else s.tsk.tasks }
    else s) := by
  unfold execRunStartTick
  cases hr : s.tsk.runAt with
  | none => simp
  | some r =>
    by_cases ht : r = s.tsk.tick + 1
    · subst ht
      simp only [true_and, Bool.not_eq_true', runMode, fullAll]
      split
      · split <;> rfl
      · rfl
    · rw [if_neg fun h => ht (Option.some.inj h.1)]
      exact congrArg _ (if_neg fun h => ht h.1)

/-! ## One task -/

/-- What is done at a tick that has not come depends on the state with the stamp of that tick. -/
theorem atTick_congr {t : Tick} {f g : State → State} {s : State} (h : f { s with tsk.tick := t } = g { s with tsk.tick := t }) :
    atTick t f s = atTick t g s := by
  unfold atTick; dsimp only; rw [h]

/-- GUARD_EDGE at the guard edge of one task alone, at which no STOP and no disable is due (R85, R94). -/
theorem execGuardEdge_of_due {n : BitVec 5} {s : State} (ht : ticks s = true) (hs : stopsAt (s.tsk.tick + 1) s = false)
    (hd : s.tsk.disables = []) (hr : s.red.role = 0) (hdue : guardDue (s.tsk.tick + 1) s n.toNat = true)
    (hone : ∀ k < 32, k ≠ n.toNat → guardDue (s.tsk.tick + 1) s k = false) :
    execGuardEdge n s = .next (if (task s n.toNat).st = .done then updTask n.toNat (fun t => { t with guarded := true }) s
      else atTick (s.tsk.tick + 1) (overrun n.toNat) s) := by
  have hg : guardTasks { s with tsk.tick := s.tsk.tick + 1 } = [n.toNat] := guardTasks_once n.isLt hdue hone
  have hall := guardAll_once (s := { s with tsk.tick := s.tsk.tick + 1 }) hr hg
  unfold execGuardEdge
  rw [if_pos ⟨ht, by rw [hs]; rfl, .inl hd⟩]
  refine congrArg _ ?_
  split
  · rename_i hdone
    rw [atTick_congr (g := updTask n.toNat fun t => { t with guarded := true })]
    · rfl
    · rw [if_pos (by rw [hg]; simp), hall]
      exact if_pos hdone
  · rename_i hdone
    refine atTick_congr ?_
    rw [if_pos (by rw [hg]; simp), hall]
    exact if_neg hdone

theorem execGuardEdge_of_not_due {n : BitVec 5} {s : State} (h : guardDue (s.tsk.tick + 1) s n.toNat = false) :
    execGuardEdge n s = .next s := by
  have hg : (guardTasks { s with tsk.tick := s.tsk.tick + 1 }).contains n.toNat = false := by
    rw [List.contains_eq_mem, decide_eq_false_iff_not, mem_guardTasks n.isLt]
    exact Bool.eq_false_iff.mp h
  unfold execGuardEdge
  refine congrArg _ ?_
  split
  · rw [atTick_congr (g := id)]
    · rfl
    · rw [hg]; rfl
  · rfl

theorem guardDue_iff (t : Tick) (s : State) (k : Nat) : guardDue t s k = true ↔
    released (task s k) = true ∧ kindOf (relDef s k) ≠ 2 ∧ (task s k).guarded = false ∧ (task s k).due = addTicks t.toNat 2 := by
  simp [guardDue, and_assoc]

/-- An overrun counts and, under EXTEND on a release that is not extended yet, goes on; else it abandons the release (R95 to R97). -/
theorem task_overrun {n : Nat} {s : State} (hr : released (task s n) = true) (hl : field (relDef s n).cfg.toNat 23 16 = 0) :
    task (overrun n s) n = if (relDef s n).cfg.getLsbD 27 && !(task s n).ext then
      { overrunCounted (task s n) with
        ext := true, guarded := false, verdict := none,
        due := addTicks (task s n).due (if kindOf (relDef s n) = 0 then periodOf (relDef s n) else deadlineOf (relDef s n)) }
      else abandoned (overrunCounted (task s n)) := by
  have hc := task_countOverrun hr
  have hst : (task s n).st ≠ .absent := fun ha => by simp [released, ha] at hr
  rw [overrun_of_no_limit hl]
  split
  · rw [task_updTask_of_present n _ _ (by rw [hc]; exact hst), hc]
    rfl
  · rw [task_abandon (by rw [hc]; exact hr), hc]

/-- Settles O42: the edge by its parts, each by the lemmas about it. -/
theorem tickRows : Obligations.TickRows := by
  unfold Obligations.TickRows
  refine ⟨fun inp s h => execTickEdge_of_still inp h, fun inp s ha h1 h2 => ?_, startGoesOn_boot, fun inp s h hw => ?_, fun n s h => ?_,
    fun n s ed ht hb hw hob how => ?_, fun n s ht hr hl => ?_, fun n s ha h1 h2 hs hd hr => ?_, execRunStartTick_eq⟩
  case refine_1 =>
    have ht := (ticks_iff s).mpr ⟨ha, h1, h2⟩
    obtain ⟨htick, hup⟩ := tickEdge_counts inp ht
    obtain ⟨-, -, -, -, hkept⟩ := startGoesOn_supply (tickEdge inp s)
    exact ⟨_, execTickEdge_of_ticks inp ht, rfl, (startGoesOn_tick _).trans htick, hkept.trans hup⟩
  case refine_2 =>
    have ht : ticks s = true := (ticks_iff s).mpr ⟨h.awake, by simp [h.ready], by simp [h.ready]⟩
    have hedge := tickEdge_quiet inp h
    have hq := quietEdge_ticked h hw
    have hready : (tickEdge inp s).sys.boot = .ready := by
      rw [hedge]; simp [ticked, h.ready]
    obtain ⟨-, -, -, -, hstays⟩ := startGoesOn_boot (tickEdge inp s)
    obtain ⟨hi, hj, hbits, hwords, hob, how⟩ := edgeBody_quiet_image inp hq h.memory rfl
    refine ⟨edgeBody inp (ticked s), ?_, hbits, hwords, hob, how, fun hp hn hb hf => ?_⟩
    · rw [execTickEdge_of_ticks inp ht, hstays hready, hedge]
    · obtain ⟨ki, kj⟩ := edgeLatched_none inp (edgeHead_noInputs (s := ticked s) ⟨hp, hn, hb, hf⟩)
      obtain ⟨-, -, -, li, lj, -, -⟩ := edgeHead_image (ticked s)
      exact ⟨hi.trans (ki.trans li), hj.trans (kj.trans lj)⟩
  case refine_3 =>
    have htask := task_releaseTask n s
    refine ⟨?_, ?_, ?_, ?_, fun a => ?_, fun a => ?_, ?_, ?_, fun k hk => task_releaseTask_ne s hk⟩
    · rw [htask]; rfl
    · rw [htask]; rfl
    · rw [htask]; rfl
    · rw [htask]; rfl
    · unfold viewBit; rw [htask]; rfl
    · unfold viewWord; rw [htask]; rfl
    · simp
    · simp
  case refine_4 =>
    obtain ⟨htsk, hdone⟩ := commitTask_tsk n s ed
    obtain ⟨hbits, hwords⟩ := committed_get (n := n) hb hw hob how
    have htask : task (commitTask n (s, ed)).1 n = committedTask (task (committed n s) n) :=
      (task_of_tsk htsk n).trans (task_updTask_of_present n _ _ (by simp [committedTask, endRelease]))
    refine ⟨fun a => ?_, fun a => ?_, ?_, ?_, hdone⟩
    · rw [htsk]; exact hbits a
    · rw [htsk]; exact hwords a
    · rw [htask]; rfl
    · rw [htask]; rfl
  case refine_5 =>
    have ht := task_overrun hr hl
    obtain ⟨-, hbits, hwords, -⟩ := overrun_image n s
    refine ⟨hbits, hwords, ?_, fun hx => ?_, fun hx he hk => ?_⟩
    · rw [ht]; split <;> rfl
    · rw [ht, hx]; exact ⟨rfl, rfl, rfl⟩
    · rw [ht, hx, he, hk]; exact ⟨rfl, rfl, rfl⟩
  case refine_6 =>
    have hticks := (ticks_iff s).mpr ⟨ha, h1, h2⟩
    refine ⟨fun hdue hone => ?_, fun hdue => ?_⟩
    · have hx := execGuardEdge_of_due hticks hs hd hr ((guardDue_iff _ s _).mpr hdue)
        fun k hk hkn => Bool.eq_false_iff.mpr fun h => hone k hk hkn ((guardDue_iff _ s _).mp h)
      exact ⟨fun hst => hx.trans (congrArg _ (if_pos hst)), fun hst => hx.trans (congrArg _ (if_neg hst))⟩
    · exact execGuardEdge_of_not_due (Bool.eq_false_iff.mpr fun h => hdue ((guardDue_iff _ s _).mp h))

end Sys2Proof.Proofs
end

section
/-! The run control commands (R79, R98, R105 to R110, R310): each is kept for the tick at which it acts. -/

namespace Sys2Proof.Proofs

open Sys2Proof.Machine Sys2Proof.Safety

/-! ## The tick at which a command acts -/

/-- The tick at which a command accepted now acts passes over the tick of a switchover of this active partner (R110, R390). -/
theorem nextTick_eq_actsAt (s : State) : nextTick s = actsAt s := by
  unfold nextTick actsAt handsOver
  cases s.red.switchAt <;> simp

/-- That tick is the next one, or the one after it. -/
theorem nextTick_cases (s : State) : nextTick s = s.tsk.tick + 1 ∨ nextTick s = s.tsk.tick + 2 := by
  unfold nextTick; split <;> simp

/-- So it lies 1 or 2 ticks ahead, whether or not the count wraps between. -/
theorem nextTick_lead (s : State) : 1 ≤ (nextTick s - s.tsk.tick).toNat ∧ (nextTick s - s.tsk.tick).toNat ≤ 2 := by
  rcases nextTick_cases s with h | h <;> rw [h, BitVec.add_comm, BitVec.add_sub_cancel] <;> decide

theorem partnerOfRunning_eq_false_iff (c : Ctx) (s : State) : partnerOfRunning c s = false ↔ PartnerFree c s := by
  simp only [partnerOfRunning, PartnerFree, ← Bool.not_eq_true, Bool.and_eq_true, decide_eq_true_iff, and_assoc]

theorem taskThere_of_present {n : Byte} {s : State} (h : n.toNat < 32 ∧ (task s n.toNat).st ≠ .absent) : taskThere s n = true := by
  simp [taskThere, h]

/-! ## RUN, STOP and STEP -/

/-- RUN keeps the tick that it asks for, which lies 1 to 16,777,215 ticks ahead (R107). -/
theorem cmdRun_of_lead {c : Ctx} {k e : Tick} {s : State} (hc : PartnerFree c s)
    (he : (if k = 0 ∨ ownTick c s k = s.tsk.tick + 1 then nextTick s else ownTick c s k) = e)
    (h1 : 1 ≤ (e - s.tsk.tick).toNat) (h2 : (e - s.tsk.tick).toNat ≤ 16777215) :
    cmdRun c k s = ({ s with tsk.runAt := some e }, 0, tickBytes c s e, none) := by
  have hin : inTick c s k = ownTick c s k := rfl
  have hlead : ¬ ((e - s.tsk.tick).toNat = 0 ∨ 16777215 < (e - s.tsk.tick).toNat) := by omega
  simp only [cmdRun, hin, he, if_neg hlead, (partnerOfRunning_eq_false_iff c s).mpr hc, Bool.false_eq_true, if_false]
  rfl

/-- RUN 0 starts at the tick at which a command accepted now acts. -/
theorem cmdRun_zero {c : Ctx} {s : State} (hc : PartnerFree c s) :
    cmdRun c 0 s = ({ s with tsk.runAt := some (actsAt s) }, 0, tickBytes c s (actsAt s), none) := by
  obtain ⟨h1, h2⟩ := nextTick_lead s
  rw [← nextTick_eq_actsAt]
  exact cmdRun_of_lead hc (if_pos (.inl rfl)) h1 (Nat.le_trans h2 (by decide))

/-- RUN at a named tick starts at it; one that names the next tick starts when a command accepted now acts. -/
theorem cmdRun_at {c : Ctx} {k : Tick} {s : State} (hc : PartnerFree c s) (hk : k ≠ 0)
    (h1 : 1 ≤ (ownTick c s k - s.tsk.tick).toNat) (h2 : (ownTick c s k - s.tsk.tick).toNat ≤ 16777215) :
    let e := if ownTick c s k = s.tsk.tick + 1 then actsAt s else ownTick c s k
    cmdRun c k s = ({ s with tsk.runAt := some e }, 0, tickBytes c s e, none) := by
  intro e
  have he : (if k = 0 ∨ ownTick c s k = s.tsk.tick + 1 then nextTick s else ownTick c s k) = e := by
    simp only [hk, false_or, nextTick_eq_actsAt, e]
  have hlead : 1 ≤ (e - s.tsk.tick).toNat ∧ (e - s.tsk.tick).toNat ≤ 16777215 := by
    by_cases hn : ownTick c s k = s.tsk.tick + 1
    · obtain ⟨l1, l2⟩ := nextTick_lead s
      simp only [e, if_pos hn, ← nextTick_eq_actsAt]
      exact ⟨l1, Nat.le_trans l2 (by decide)⟩
    · simp only [e, if_neg hn]
      exact ⟨h1, h2⟩
  exact cmdRun_of_lead hc he hlead.1 hlead.2

theorem cmdStop_of_free {c : Ctx} {s : State} (hc : PartnerFree c s) : cmdStop c s =
    ({ s with tsk.runAt := none, tsk.steps := [], tsk.stopReq := true }, 0, tickBytes c s (actsAt s), none) := by
  rw [cmdStop, (partnerOfRunning_eq_false_iff c s).mpr hc, nextTick_eq_actsAt]
  rfl

/-- STEP of a task that can be stepped, once per edge, outside RUN at a module alone (R109). -/
theorem cmdStep_of_idle {c : Ctx} {n : Byte} {s : State} (ht : n.toNat < 32 ∧ (task s n.toNat).st ≠ .absent)
    (hd : (task s n.toNat).st ≠ .disabled) (hf : (task s n.toNat).st ≠ .faulted) (hs : s.tsk.steps.contains n.toNat = false)
    (hr : ¬ (released (task s n.toNat) = true ∧ (task s n.toNat).stepped = true)) (hm : s.tsk.mode ≠ .run) (ha : s.red.role = 0) :
    cmdStep c n s = ({ s with tsk.steps := s.tsk.steps ++ [n.toNat] }, 0, tickBytes c s (actsAt s), none) := by
  have hpar : ¬ ((!taskThere s n) = true ∨ (task s n.toNat).st = .disabled ∨ (task s n.toNat).st = .faulted) := by
    simp [taskThere_of_present ht, hd, hf]
  have hbusy : ¬ (s.tsk.steps.contains n.toNat = true ∨ released (task s n.toNat) = true ∧ (task s n.toNat).stepped = true) := by
    rw [hs]; simpa using hr
  simp only [cmdStep, if_neg hpar, if_neg hbusy, if_neg hm, ha, ne_eq, not_true_eq_false, if_false, nextTick_eq_actsAt]
  rfl

/-! ## Tasks -/

section
variable {c : Ctx} {n : Byte} {s : State} (ht : n.toNat < 32 ∧ (task s n.toNat).st ≠ .absent)
include ht

theorem cmdTaskEnable_of_present (hc : PartnerFree c s) :
    cmdTaskEnable c n s = ({ s with tsk.enables := s.tsk.enables ++ [n.toNat] }, 0, tickBytes c s (actsAt s), none) := by
  rw [cmdTaskEnable, taskThere_of_present ht, (partnerOfRunning_eq_false_iff c s).mpr hc, nextTick_eq_actsAt]
  rfl

theorem cmdTaskDisable_of_present (hc : PartnerFree c s) :
    cmdTaskDisable c n s = ({ s with tsk.disables := s.tsk.disables ++ [n.toNat] }, 0, tickBytes c s (actsAt s), none) := by
  rw [cmdTaskDisable, taskThere_of_present ht, (partnerOfRunning_eq_false_iff c s).mpr hc, nextTick_eq_actsAt]
  rfl

/-- TASK_TRIGGER triggers an event task in RUN (R79). -/
theorem cmdTaskTrigger_of_event (hk : kindOf (taskDef s n.toNat) = 1) (hm : s.tsk.mode = .run) (hc : PartnerFree c s) :
    cmdTaskTrigger c n s = ({ s with tsk.triggers := s.tsk.triggers ++ [n.toNat] }, 0, tickBytes c s (actsAt s), none) := by
  simp only [cmdTaskTrigger, taskThere_of_present ht, hk, hm, (partnerOfRunning_eq_false_iff c s).mpr hc, nextTick_eq_actsAt, ne_eq,
    not_true_eq_false, Bool.not_true, Bool.false_eq_true, or_self, if_false]
  rfl

/-- TASK_RESTART restarts a FAULTED task (R98). -/
theorem cmdTaskRestart_of_faulted (hf : (task s n.toNat).st = .faulted) (hc : PartnerFree c s) :
    cmdTaskRestart c n s = ({ s with tsk.restarts := s.tsk.restarts ++ [n.toNat] }, 0, tickBytes c s (actsAt s), none) := by
  simp only [cmdTaskRestart, taskThere_of_present ht, hf, (partnerOfRunning_eq_false_iff c s).mpr hc, nextTick_eq_actsAt, ne_eq,
    not_true_eq_false, Bool.not_true, Bool.false_eq_true, or_self, if_false]
  rfl

theorem cmdTaskStatus_of_present :
    let k := task s n.toNat
    cmdTaskStatus c n s = (s, 0, beBytes 4 (tskCfg s n.toNat).toNat ++ [BitVec.ofNat 8 (tstateCode k.st),
      BitVec.ofNat 8 ((if k.ext then 2 else 0) + if k.evtPend then 1 else 0)] ++ beBytes 2 k.evtLost.toNat ++
      tickBytes c s k.lt ++ beBytes 2 k.ovrTotal.toNat ++
      [k.ovrConsec, BitVec.ofNat 8 (field (taskDef s n.toNat).trap.toNat 30 28), k.sticky.setWidth 8] ++
      beBytes 2 k.execMax.toNat ++ beBytes 2 k.execLast.toNat ++ beBytes 2 k.lastTrap.toNat, none) := by
  rw [cmdTaskStatus, taskThere_of_present ht]
  rfl

end

/-- Settles O30: what each command answers at its unit, in the cases of its row. -/
theorem runCommands : Obligations.RunCommands := by
  unfold Obligations.RunCommands
  refine ⟨fun r => ?_, fun r k hk => ?_, fun r => ?_, fun r n => ?_, fun r n => ?_, fun r n => ?_, fun r n => ?_, fun r n => ?_,
    fun r n => ?_, fun r => ?_⟩ <;> refine serves_of_runCmd fun c seq t hP => ?_
  · exact cmdRun_zero hP
  · obtain ⟨hc, h1, h2⟩ := hP
    exact cmdRun_at hc hk h1 h2
  · exact cmdStop_of_free hP
  · obtain ⟨ht, hd, hf, hs, hr, hm, ha⟩ := hP
    exact cmdStep_of_idle ht hd hf hs hr hm ha
  · exact cmdTaskEnable_of_present hP.1 hP.2
  · exact cmdTaskDisable_of_present hP.1 hP.2
  · obtain ⟨ht, hk, hm, hc⟩ := hP
    exact cmdTaskTrigger_of_event ht hk hm hc
  · obtain ⟨ht, hf, hc⟩ := hP
    exact cmdTaskRestart_of_faulted ht hf hc
  · exact cmdTaskStatus_of_present hP
  · rfl

end Sys2Proof.Proofs
end

section
/-! What a quiet tick edge with host writes leaves as it is: no task takes a release, and no host write comes to wait (R84, R90). -/

namespace Sys2Proof.Proofs

open Sys2Proof.Machine Sys2Proof.Safety Sys2Proof.Laws

/-! ## The sources of the latch -/

/-- The host writes that wait, the tasks and the mode are the same in both states. -/
@[simp] abbrev Keeps.control (s t : State) : Prop :=
  t.tsk.writes = s.tsk.writes ∧ t.tsk.tasks = s.tsk.tasks ∧ t.tsk.mode = s.tsk.mode

@[simp] theorem ite_writes (c : Prop) [Decidable c] (s t : Tsk) : (if c then s else t).writes = if c then s.writes else t.writes :=
  apply_ite (·.writes) c s t
@[simp] theorem ite_tasks (c : Prop) [Decidable c] (s t : Tsk) : (if c then s else t).tasks = if c then s.tasks else t.tasks :=
  apply_ite (·.tasks) c s t
@[simp] theorem ite_mode (c : Prop) [Decidable c] (s t : Tsk) : (if c then s else t).mode = if c then s.mode else t.mode :=
  apply_ite (·.mode) c s t
@[simp] theorem foldl_control {α : Type} (f : State → α → State) (l : List α) (s : State) (h : ∀ s a, Keeps.control s (f s a)) :
    Keeps.control s (l.foldl f s) :=
  foldl_inv (Keeps.control s) f (fun t a ht => by
    obtain ⟨h1, h2, h3⟩ := h t a
    simpa only [Keeps.control, h1, h2, h3] using ht) l s (by simp)

@[simp] theorem putRaw_control (a vs s) : Keeps.control s (putRaw a vs s) := by
  unfold putRaw; simp

@[simp] theorem putBit_control (a v s) : Keeps.control s (putBit a v s) := by
  rw [Keeps.control, (putBit_tsk a v s).1]; simp

@[simp] theorem putBits_control (a vs s) : Keeps.control s (putBits a vs s) :=
  foldl_control _ _ _ fun s e => putBit_control _ e.1 s

@[simp] theorem writeMailbox_control (q tag k r s) : Keeps.control s (writeMailbox q tag k r s) := by
  unfold Keeps.control writeMailbox; split <;> simp

@[simp] theorem flushClosing_control (s) : Keeps.control s (flushClosing s) := by
  unfold Keeps.control flushClosing; simp

@[simp] theorem showHealth_control (n s) : Keeps.control s (showHealth n s) := by
  unfold Keeps.control showHealth; split <;> simp

@[simp] theorem setNode_control (n st s) : Keeps.control s (setNode n st s) := by
  unfold Keeps.control setNode; simp

@[simp] theorem countMiss_control (n e s) : Keeps.control s (countMiss n e s) := by
  unfold Keeps.control countMiss; (repeat' split) <;> simp

@[simp] theorem sendPoint_control (n s) : Keeps.control s (sendPoint n s) := by
  unfold Keeps.control sendPoint; (repeat' split) <;> simp

@[simp] theorem commitSends_control (done s) : Keeps.control s (commitSends done s) := by
  unfold Keeps.control commitSends; simp

@[simp] theorem gpioLatch_control (s) : Keeps.control s (gpioLatch s) := by
  unfold Keeps.control gpioLatch; simp

@[simp] theorem latchSub_control (b i s) : Keeps.control s (latchSub b i s) := by
  unfold Keeps.control latchSub; dsimp only; (repeat' split) <;> simp

@[simp] theorem ringLatch_control (s) : Keeps.control s (ringLatch s) := by
  unfold Keeps.control ringLatch; (repeat' split) <;> simp

@[simp] theorem latchTime_control (t s) : Keeps.control s (latchTime t s) := by
  unfold Keeps.control latchTime; (repeat' split) <;> simp

/-- The sources of the latch give their values to the input buffers, and release no task. -/
theorem edgeLatched_control (inp : TickIn) (s : State) : Keeps.control s (edgeLatched inp s) := by
  unfold Keeps.control edgeLatched
  rw [afterCommits_nothing]
  simp [outputCopy]

theorem edgeLatched_program (inp : TickIn) (s : State) : (edgeLatched inp s).red = s.red ∧ (edgeLatched inp s).prog = s.prog := by
  unfold edgeLatched
  rw [afterCommits_nothing]
  simp

/-! ## A module at rest through its edge -/

/-- What holds of a module alone from the first step of a quiet edge to its end: no release, no edit, no directive, and no host write
that waits. -/
structure Rests (s : State) : Prop where
  alone   : s.red.role = 0
  stopped : s.tsk.mode = .stop
  noEdit  : s.prog.edit = .none
  noOwned : s.prog.owned = []
  unheld  : Unheld s
  written : s.tsk.writes = []

theorem Rests.of_keeps {s t : State} (h : Rests s) (hr : t.red.role = s.red.role) (hp : t.prog = s.prog) (hk : Keeps.control s t) : Rests t := by
  obtain ⟨hw, ht, hm⟩ := hk
  exact ⟨hr.trans h.alone, hm.trans h.stopped, hp ▸ h.noEdit, hp ▸ h.noOwned, unheld_of_tsk ht h.unheld, hw.trans h.written⟩

theorem edgeLatched_rests (inp : TickIn) {s : State} (h : Rests s) : Rests (edgeLatched inp s) :=
  h.of_keeps (by rw [(edgeLatched_program inp s).1]) (edgeLatched_program inp s).2 (edgeLatched_control inp s)

/-- A change of every listed task that leaves it its release or leaves it without one. -/
theorem released_get_map {f : Nat × Task → Nat × Task} (hf : ∀ e, (f e).1 = e.1 ∧ released (f e).2 = released e.2) (l : Tab Task)
    (n : Nat) : released (Tab.get {} (l.map f) n) = released (Tab.get {} l n) := by
  induction l with
  | nil => rfl
  | cons e l ih =>
    obtain ⟨hk, hr⟩ := hf e
    simp only [List.map_cons, Tab.get, hk]
    split
    · exact hr
    · exact ih

theorem chgAll_rests (o : Option Nat) (g : Nat) {s : State} (h : Rests s) : Rests (chgAll o g s) := by
  refine ⟨h.alone, h.stopped, h.noEdit, h.noOwned, fun n => ?_, h.written⟩
  refine (released_get_map (fun e => ?_) s.tsk.tasks n).trans (h.unheld n)
  split <;> exact ⟨rfl, rfl⟩

theorem updBank_rests (b : Bool) (f : Bank → Bank) {s : State} (h : Rests s) : Rests (updBank b f s) := by
  cases b <;> exact ⟨h.alone, h.stopped, h.noEdit, h.noOwned, h.unheld, h.written⟩

theorem grainChanged_rests (o : Option Nat) (g : Nat) {s : State} (h : Rests s) : Rests (grainChanged o g s) := by
  unfold grainChanged setSegBit
  dsimp only
  split
  · exact chgAll_rests o g h
  · split
    · exact chgAll_rests o g h
    · exact updBank_rests _ _ (chgAll_rests o g h)

/-- A module alone keeps no marks of a resynchronisation. -/
theorem markBlock_alone {s : State} (h : s.red.role = 0) (b : Nat) : markBlock b s = s := by
  simp [markBlock, h]

theorem setBit_rests (o : Option Nat) (a : Nat) (v : Bool) {s : State} (h : Rests s) : Rests (setBit o a v s) := by
  unfold setBit
  split
  · exact h
  · refine grainChanged_rests o _ ?_
    rw [markBlock_alone (by exact h.alone)]
    exact h.of_keeps rfl rfl ⟨rfl, rfl, rfl⟩

theorem setWord_rests (o : Option Nat) (a : Nat) (v : W24) {s : State} (h : Rests s) : Rests (setWord o a v s) := by
  have hset : Rests (markBlock (wordBlock a) { s with tsk.words := Tab.set 0 s.tsk.words a v }) := by
    rw [markBlock_alone (by exact h.alone)]
    exact h.of_keeps rfl rfl ⟨rfl, rfl, rfl⟩
  unfold setWord
  dsimp only
  split
  · exact h
  · split
    · exact grainChanged_rests o _ hset
    · exact hset

theorem hostBit_rests (a : Nat) (v : Bool) {s : State} (h : Rests s) : Rests (hostBit a v s) :=
  setBit_rests none a v (h.of_keeps rfl rfl ⟨rfl, rfl, rfl⟩)

/-- A host write of bits, point by point: those of the pass, INPUT or not, take their values (R90). -/
theorem applyWrite_bits (input : Bool) {w : HostWrite} (hw : w.word = false) (s : State) : applyWrite input w s =
    w.vals.zipIdx.foldl (fun t v => if isInput (bitRegion t ((w.addr.toNat + v.2) % 2 ^ 22)) = input then
      hostBit ((w.addr.toNat + v.2) % 2 ^ 22) (decide (v.1 ≠ 0)) t else t) s := by
  unfold applyWrite
  simp only [hw, Bool.false_eq_true, if_false, ne_eq, ite_not]

/-- A host write of words, word by word. -/
theorem applyWrite_words (input : Bool) {w : HostWrite} (hw : w.word = true) (s : State) : applyWrite input w s =
    w.vals.zipIdx.foldl (fun t v => if isInput (wordRegion t ((w.addr.toNat + v.2) % 2 ^ 21)) = input then
      setWord none ((w.addr.toNat + v.2) % 2 ^ 21) v.1 t else t) s := by
  unfold applyWrite
  simp only [hw, if_true, ne_eq, ite_not]

theorem applyWrite_rests (input : Bool) (w : HostWrite) {s : State} (h : Rests s) : Rests (applyWrite input w s) := by
  cases hw : w.word
  · rw [applyWrite_bits input hw]
    refine foldl_inv Rests _ (fun t v ht => ?_) _ s h
    split
    · exact hostBit_rests _ _ ht
    · exact ht
  · rw [applyWrite_words input hw]
    refine foldl_inv Rests _ (fun t v ht => ?_) _ s h
    split
    · exact setWord_rests none _ _ ht
    · exact ht

theorem applyWrites_rests (input : Bool) (ws : List HostWrite) {s : State} (h : Rests s) :
    Rests (ws.foldl (fun s w => applyWrite input w s) s) :=
  foldl_inv Rests _ (fun _ w ht => applyWrite_rests input w ht) ws s h

theorem latchInputs_rests {s : State} (h : Rests s) : Rests (latchInputs s) := by
  have hbits : Rests (latchBits s) :=
    foldl_inv Rests _ (fun _ e ht => setBit_rests none e.1 e.2 ht) _ _
      (foldl_inv Rests _ (fun _ e ht => setBit_rests none e.1 false ht) _ s h)
  exact foldl_inv Rests _ (fun _ e ht => setWord_rests none e.1 e.2 ht) _ _
    (foldl_inv Rests _ (fun _ e ht => setWord_rests none e.1 _ ht) _ (latchBits s) hbits)

/-! ## The end of the edge -/

/-- A task without a release does not want the cluster (R101). -/
theorem bestTask_unheld {s : State} (h : Unheld s) : bestTask s = none := by
  have hw : (List.range 32).filter (fun n => wants (task s n)) = [] := by
    refine List.filter_eq_nil_iff.mpr fun n _ hn => ?_
    have hr := h n
    simp only [released, wants, decide_eq_false_iff_not, Bool.and_eq_true, Bool.or_eq_true, decide_eq_true_eq] at hr hn
    obtain ⟨-, (hs | hs) | hs⟩ := hn
    · exact hr (.inl hs)
    · exact hr (.inr (.inl hs))
    · exact hr (.inr (.inr (.inl hs)))
  rw [bestTask, hw]
  rfl

/-- With no release held the cluster is given to no task. -/
theorem giveCluster_unheld {s : State} (h : Unheld s) : giveCluster s = { s with scan.served := none } := by
  have hone : giveOnce s = { s with scan.served := none } := by rw [giveOnce, bestTask_unheld h]
  have hnext : bestTask { s with scan.served := none } = none := bestTask_unheld h
  simp [giveCluster, giveLoop, hone, hnext]

theorem drainEnd_noEdit {s : State} (h : s.prog.edit = .none) : drainEnd s = settleRemoved s := by
  simp [drainEnd, h]

/-- A module alone compares no digests with a partner: a mismatch is counted, and nothing comes of it (R381). -/
theorem compareDigests_alone {s : State} (h : s.red.role = 0) : (compareDigests s).tsk = s.tsk := by
  unfold compareDigests
  refine (foldl_inv (fun t : State => t.red.role = 0 ∧ t.tsk = s.tsk) _ (fun t e ht => ?_) s.red.peerDig
    { s with red.peerDig := [] } ⟨h, rfl⟩).2
  split
  · exact ht
  · simp [digestMismatch, ht]

/-- A module alone sends no record (R375). -/
theorem sendRecord_alone (items : List RecItem) {s : State} (h : s.red.role = 0) : sendRecord items s = { s with red.items := [] } := by
  simp [sendRecord, h]

/-- What follows the latch of a quiet edge leaves no host write to wait. -/
theorem edgeEnd_writes (items : List RecItem) {s : State} (h : Rests s) :
    (compareDigests (drainEnd (giveCluster (sendRecord items (ownReleases false s))))).tsk.writes = [] := by
  have hreleased : Rests (ownReleases false s) := by
    rw [ownReleases_stopped h.alone h.stopped]
    exact h.of_keeps rfl rfl ⟨rfl, rfl, rfl⟩
  have hsent : Rests (sendRecord items (ownReleases false s)) := by
    rw [sendRecord_alone items hreleased.alone]
    exact hreleased.of_keeps rfl rfl ⟨rfl, rfl, rfl⟩
  have hgiven : Rests (giveCluster (sendRecord items (ownReleases false s))) := by
    rw [giveCluster_unheld hsent.unheld]
    exact hsent.of_keeps rfl rfl ⟨rfl, rfl, rfl⟩
  rw [compareDigests_alone (by simpa using hgiven.alone), drainEnd_noEdit hgiven.noEdit]
  exact hgiven.written

end Sys2Proof.Proofs
end

section
/-! The host writes of a tick edge, point by point (R90, R175). -/

namespace Sys2Proof.Proofs

open Sys2Proof.Machine Sys2Proof.Safety Sys2Proof.Laws

/-- Induction on a list from its end: the last write of a list stands over the others. -/
theorem list_append_induction {α : Type} {motive : List α → Prop} (nil : motive [])
    (append_singleton : ∀ l x, motive l → motive (l ++ [x])) (l : List α) : motive l := by
  have hrev : ∀ r : List α, motive r.reverse := fun r => by
    induction r with
    | nil => exact nil
    | cons x r ih => rw [List.reverse_cons]; exact append_singleton _ x ih
  rw [← List.reverse_reverse l]
  exact hrev l.reverse

/-! ## Addresses that wrap -/

/-- The place in a host write at b that point a of a space of M points takes, where b + n reaches a modulo M. -/
theorem wraps_to_iff {M a n : Nat} (b : Nat) (ha : a < M) (hn : n < M) : a = (b + n) % M ↔ (a + M - b % M) % M = n := by
  have hc : b % M < M := Nat.mod_lt _ (by omega)
  rw [← Nat.mod_add_mod]
  generalize b % M = c at hc
  have hsum : (c + n) % M = if c + n < M then c + n else c + n - M := by
    split
    · exact Nat.mod_eq_of_lt ‹_›
    · rw [Nat.mod_eq_sub_mod (by omega), Nat.mod_eq_of_lt (by omega)]
  have hdiff : (a + M - c) % M = if c ≤ a then a - c else a + M - c := by
    split
    · rw [Nat.mod_eq_sub_mod (by omega), Nat.mod_eq_of_lt (by omega)]; omega
    · exact Nat.mod_eq_of_lt (by omega)
  rw [hsum, hdiff]
  split <;> split <;> omega

/-- The writes of consecutive points from b of a space of M points, which wrap: a point of the pass that the list reaches takes the
value there, and the others stay. -/
theorem foldl_wrapped {β γ : Type} {P : State → Prop} {get : State → Nat → β} {set : Nat → β → State → State} (hset : Writes P get set)
    (f : γ → β) {q : State → Nat → Bool} {input : Bool} {s : State} (hq : ∀ t a, P t → q t a = q s a) (hs : P s) (M b : Nat) (l : List γ)
    (hl : l.length ≤ M) :
    let t := l.zipIdx.foldl (fun t v => if q t ((b + v.2) % M) = input then set ((b + v.2) % M) (f v.1) t else t) s
    P t ∧ ∀ a, get t a =
      if q s a = input then ((if M ≤ a then none else l[(a + M - b % M) % M]?).map f).getD (get s a) else get s a := by
  induction l using list_append_induction with
  | nil => exact ⟨hs, fun a => by simp⟩
  | append_singleton l x ih =>
    have hn : l.length < M := by
      rw [List.length_append, List.length_singleton] at hl
      omega
    obtain ⟨hp, hget⟩ := ih (Nat.le_of_lt hn)
    simp only [List.zipIdx_append, List.foldl_append, List.zipIdx_cons, List.zipIdx_nil, List.foldl_cons, List.foldl_nil, Nat.zero_add]
    generalize l.zipIdx.foldl (fun t v => if q t ((b + v.2) % M) = input then set ((b + v.2) % M) (f v.1) t else t) s = t at hp hget
    have hM : (b + l.length) % M < M := Nat.mod_lt _ (Nat.zero_lt_of_lt hn)
    have hlast : (l ++ [x])[((b + l.length) % M + M - b % M) % M]? = some x := by
      rw [(wraps_to_iff b hM hn).mp rfl, List.getElem?_concat_length]
    have hothers : ∀ a, a ≠ (b + l.length) % M → (if M ≤ a then none else (l ++ [x])[(a + M - b % M) % M]?) =
        if M ≤ a then none else l[(a + M - b % M) % M]? := fun a ha => by
      split
      · rfl
      · have hk : (a + M - b % M) % M ≠ l.length := mt (wraps_to_iff b (by omega) hn).mpr ha
        rw [List.getElem?_append]
        split
        · rfl
        · rw [List.getElem?_eq_none (by simp; omega), List.getElem?_eq_none (by omega)]
    rw [hq t _ hp]
    split
    · rename_i hin
      obtain ⟨hp', hget'⟩ := hset ((b + l.length) % M) (f x) t hp
      refine ⟨hp', fun a => ?_⟩
      rw [hget']
      split
      · rename_i ha
        subst ha
        rw [if_pos hin, if_neg (Nat.not_le_of_lt hM), hlast]
        rfl
      · rename_i ha
        rw [hget, hothers a ha]
    · rename_i hin
      refine ⟨hp, fun a => ?_⟩
      by_cases ha : a = (b + l.length) % M
      · subst ha
        rw [hget, if_neg hin, if_neg hin]
      · rw [hget, hothers a ha]

/-! ## One host write -/

theorem bitWritten_single (w : HostWrite) (a : Nat) : bitWritten [w] a = (if w.word ∨ 2 ^ 22 ≤ a then none else
    w.vals[(a + 2 ^ 22 - w.addr.toNat % 2 ^ 22) % 2 ^ 22]?).map fun v => decide (v ≠ 0) := by
  simp [bitWritten]

theorem wordWritten_single (w : HostWrite) (a : Nat) : wordWritten [w] a = if w.word = false ∨ 2 ^ 21 ≤ a then none else
    w.vals[(a + 2 ^ 21 - w.addr.toNat % 2 ^ 21) % 2 ^ 21]? := by
  simp [wordWritten]

/-- The last host write to a point stands. -/
theorem bitWritten_append (ws : List HostWrite) (w : HostWrite) (a : Nat) :
    bitWritten (ws ++ [w]) a = (bitWritten [w] a).or (bitWritten ws a) := by
  rw [bitWritten_single, bitWritten, List.foldl_append]
  rfl

theorem wordWritten_append (ws : List HostWrite) (w : HostWrite) (a : Nat) :
    wordWritten (ws ++ [w]) a = (wordWritten [w] a).or (wordWritten ws a) := by
  rw [wordWritten_single, wordWritten, List.foldl_append]
  rfl

/-- What a pass over host writes does to the images: the points of its class, INPUT or not, take what was written to them last. -/
structure WritesTake (input : Bool) (ws : List HostWrite) (s t : State) : Prop where
  latching : Latching s t
  bits     : ∀ a, Tab.get false t.tsk.bits a =
    if isInput (bitRegion s a) = input then (bitWritten ws a).getD (Tab.get false s.tsk.bits a) else Tab.get false s.tsk.bits a
  words    : ∀ a, Tab.get 0 t.tsk.words a =
    if isInput (wordRegion s a) = input then (wordWritten ws a).getD (Tab.get 0 s.tsk.words a) else Tab.get 0 s.tsk.words a

theorem latching_refl {s : State} (hb : Rising s.tsk.bits) (hw : Rising s.tsk.words) : Latching s s :=
  ⟨hb, hw, ⟨rfl, rfl⟩, rfl, rfl, rfl, rfl⟩

theorem Latching.trans {s t u : State} (h : Latching s t) (k : Latching t u) : Latching s u :=
  ⟨k.rbits, k.rwords, ⟨k.regions.1.trans h.regions.1, k.regions.2.trans h.regions.2⟩, k.inBits.trans h.inBits,
    k.inWords.trans h.inWords, k.outBits.trans h.outBits, k.outWords.trans h.outWords⟩

theorem hostBit_latching {s t : State} (a : Nat) (v : Bool) (h : Latching s t) : Latching s (hostBit a v t) :=
  setBit_latching a v ⟨h.rbits, h.rwords, h.regions, h.inBits, h.inWords, h.outBits, h.outWords⟩

theorem hostBit_writes (s : State) :
    Writes (fun t => Latching s t ∧ t.tsk.words = s.tsk.words) (fun t => Tab.get false t.tsk.bits) hostBit := fun a v t h =>
  ⟨⟨hostBit_latching a v h.1, by unfold hostBit; rw [setBit_tsk]; exact h.2⟩, by unfold hostBit; exact setBit_get none a v _ h.1.rbits⟩

/-- One host write, of bits or of words. -/
theorem applyWrite_takes (input : Bool) {w : HostWrite} (hl : w.vals.length ≤ 2 ^ 21) {s : State} (hb : Rising s.tsk.bits)
    (hw : Rising s.tsk.words) : WritesTake input [w] s (applyWrite input w s) := by
  cases hk : w.word
  · rw [applyWrite_bits input hk]
    obtain ⟨⟨hlatch, hwords⟩, hbits⟩ := foldl_wrapped (hostBit_writes s) (fun v : W24 => decide (v ≠ 0))
      (q := fun t a => isInput (bitRegion t a)) (input := input) (fun t a h => by rw [bitRegion_congr h.1.regions])
      ⟨latching_refl hb hw, rfl⟩ (2 ^ 22) w.addr.toNat w.vals (by omega)
    refine ⟨hlatch, fun a => ?_, fun a => ?_⟩
    · rw [hbits, bitWritten_single]
      simp [hk]
    · rw [hwords, wordWritten_single]
      simp [hk]
  · rw [applyWrite_words input hk]
    obtain ⟨⟨hlatch, hbits⟩, hwords⟩ := foldl_wrapped (setWord_writes s) (id : W24 → W24)
      (q := fun t a => isInput (wordRegion t a)) (input := input) (fun t a h => by rw [wordRegion_congr h.1.regions])
      ⟨latching_refl hb hw, rfl⟩ (2 ^ 21) w.addr.toNat w.vals hl
    simp only [id_eq, Option.map_id_apply] at hbits hwords
    refine ⟨hlatch, fun a => ?_, fun a => ?_⟩
    · rw [hbits, bitWritten_single]
      simp [hk]
    · rw [hwords, wordWritten_single]
      simp [hk]

/-- The host writes in their order: the last one to a point stands (R90). -/
theorem applyWrites_take (input : Bool) {ws : List HostWrite} (hl : ∀ w ∈ ws, w.vals.length ≤ 2 ^ 21) {s : State}
    (hb : Rising s.tsk.bits) (hw : Rising s.tsk.words) : WritesTake input ws s (ws.foldl (fun s w => applyWrite input w s) s) := by
  induction ws using list_append_induction with
  | nil => exact ⟨latching_refl hb hw, fun a => (ite_self _).symm, fun a => (ite_self _).symm⟩
  | append_singleton ws w ih =>
    obtain ⟨hlatch, hbits, hwords⟩ := ih fun x hx => hl x (by simp [hx])
    rw [List.foldl_append, List.foldl_cons, List.foldl_nil]
    obtain ⟨hlatch', hbits', hwords'⟩ := applyWrite_takes input (hl w (by simp)) hlatch.rbits hlatch.rwords
    refine ⟨hlatch.trans hlatch', fun a => ?_, fun a => ?_⟩
    · rw [hbits', bitRegion_congr hlatch.regions, hbits, bitWritten_append, Option.getD_or]
      split <;> rfl
    · rw [hwords', wordRegion_congr hlatch.regions, hwords, wordWritten_append, Option.getD_or]
      split <;> rfl

end Sys2Proof.Proofs
end

section
/-! The tick edge that applies the host writes (R84, R87, R88, R90). -/

namespace Sys2Proof.Proofs

open Sys2Proof.Machine Sys2Proof.Safety Sys2Proof.Laws

/-! ## The edge by its steps -/

/-- The first step of an edge at which a module alone has no STOP, no edit, no RUN and no STEP to meet. -/
theorem firstStep_alone {s : State} (ha : s.red.role = 0) (he : s.prog.edit = .none) (hr : s.tsk.runAt = none) (hs : s.tsk.steps = [])
    (hstop : stopsAt s.tsk.tick s = false) : (firstStep (dioEdge s)).1 = edgeHead s := by
  have hedit : editAt s.tsk.tick (dioEdge s) = dioEdge s := by simp [editAt, he]
  have hstays : stopsAt s.tsk.tick (timebaseEdge (dioEdge s)) = false := by
    unfold stopsAt at hstop ⊢
    rw [handsOver_alone ha] at hstop
    rw [handsOver_alone (by simp [ha]), timebaseEdge_tsk]
    simpa using hstop
  have hhead : applyTaskControl (timebaseEdge (dioEdge s)) = edgeHead s := rfl
  have hrun : (edgeHead s).tsk.runAt = none := by rw [edgeHead_tsk]; exact hr
  have hsteps : (edgeHead s).tsk.steps = [] := by rw [edgeHead_tsk]; exact hs
  simp [firstStep, hedit, hstays, hhead, runDue, hrun, hsteps]

/-- The module after the first step of the edge, which takes up the host writes that wait. -/
def edgeOpened (s : State) : State := { edgeHead s with tsk.writes := [] }

/-- The module after the first pass of the host writes, over the points that are not of class INPUT. -/
def edgeWritten (s : State) : State := s.tsk.writes.foldl (fun s w => applyWrite false w s) (edgeOpened s)

/-- The module after the latch and the second pass, over the INPUT points. -/
def edgeGiven (inp : TickIn) (s : State) : State :=
  s.tsk.writes.foldl (fun s w => applyWrite true w s) (latchInputs (edgeLatched inp (edgeWritten s)))

theorem edgeHead_program (s : State) : (edgeHead s).red = s.red ∧ (edgeHead s).prog = s.prog := by
  simp [edgeHead]

/-- The first step of the edge of a quiet module leaves it at rest. -/
theorem edgeOpened_rests {s : State} (h : EdgeQuiet s) : Rests (edgeOpened (ticked s)) := by
  obtain ⟨hred, hprog⟩ := edgeHead_program (ticked s)
  have hmode : (edgeHead (ticked s)).tsk.mode = .stop := by rw [edgeHead_tsk]; exact h.stays.1
  have hedit : (edgeHead (ticked s)).prog.edit = .none := by rw [hprog]; exact h.program.1
  have howned : (edgeHead (ticked s)).prog.owned = [] := by rw [hprog]; exact h.program.2
  have hrole : (edgeHead (ticked s)).red.role = 0 := by rw [hred]; exact h.alone.1
  have hunheld : Unheld (edgeHead (ticked s)) := edgeHead_unheld (s := ticked s) h.unheld
  unfold edgeOpened
  generalize edgeHead (ticked s) = u at *
  exact ⟨hrole, hmode, hedit, howned, hunheld, rfl⟩

theorem edgeWritten_rests {s : State} (h : EdgeQuiet s) : Rests (edgeWritten (ticked s)) :=
  applyWrites_rests false _ (edgeOpened_rests h)

theorem edgeGiven_rests (inp : TickIn) {s : State} (h : EdgeQuiet s) : Rests (edgeGiven inp (ticked s)) :=
  applyWrites_rests true _ (latchInputs_rests (edgeLatched_rests inp (edgeWritten_rests h)))

/-- The edge of a quiet module: its first step, the host writes around the latch, and what follows them and changes no image (R84). -/
theorem edgeBody_written (inp : TickIn) {s : State} (h : EdgeQuiet s) : ∃ items, edgeBody inp (ticked s) =
    compareDigests (drainEnd (giveCluster (sendRecord items (ownReleases false (edgeGiven inp (ticked s)))))) := by
  obtain ⟨halone, hswap, -, -⟩ := h.alone
  obtain ⟨-, hsteps, hrun, hstop⟩ := h.stays
  have hstop' : stopsAt (ticked s).tsk.tick (ticked s) = false := hstop
  obtain ⟨⟨a, items⟩, hf⟩ : ∃ x, firstStep (dioEdge (ticked s)) = x := ⟨_, rfl⟩
  have ha : a = edgeHead (ticked s) := by rw [← firstStep_alone (s := ticked s) halone h.program.1 hrun hsteps hstop', hf]
  have hred : (edgeHead (ticked s)).red = s.red := (edgeHead_program (ticked s)).1
  have hwrites : (edgeHead (ticked s)).tsk.writes = (ticked s).tsk.writes := by rw [edgeHead_tsk]
  have hover : handOver (ticked s) = ticked s := by simp [handOver, handsOver_alone (s := ticked s) halone]
  have howes : owesCommits false (edgeHead (ticked s)) = false := by simp [owesCommits, hred, halone]
  have hnow : switchoverNow (edgeHead (ticked s)) = edgeHead (ticked s) := by simp [switchoverNow, switchDue, hred, hswap]
  have hw := edgeWritten_rests h
  have hawait : awaitsRecord (edgeWritten (ticked s)) = false := by simp [awaitsRecord, hw.alone]
  have hlatch : ¬ (edgeWritten (ticked s)).red.role = 3 := by simp [hw.alone]
  have hfinal : finalCopy (afterCommits {} (gpioTick inp.mfp (gpioLatch (edgeWritten (ticked s))))) =
      afterCommits {} (gpioTick inp.mfp (gpioLatch (edgeWritten (ticked s)))) := by
    simp [finalCopy, afterCommits_nothing, hw.alone]
  have hpass : (ticked s).tsk.writes.foldl (fun s w => applyWrite false w s) (edgeOpened (ticked s)) =
      edgeWritten (ticked s) := rfl
  have hopen : { edgeHead (ticked s) with tsk.writes := [] } = edgeOpened (ticked s) := rfl
  unfold edgeBody
  simp only [hover, hf, ha, hstop', howes, commitPart_unheld (edgeHead_unheld (s := ticked s) h.unheld), hnow, hwrites, hopen, hpass, hawait,
    applyDirectives_none hw.noOwned, if_neg hlatch, hfinal, sendEvents_nil, List.any_nil, Bool.false_eq_true, if_false]
  exact ⟨_, rfl⟩

/-! ## The image after the edge -/

theorem edgeOpened_image (s : State) : Keeps.image s (edgeOpened s) := by
  have h := edgeHead_image s
  unfold edgeOpened
  generalize edgeHead s = u at h ⊢
  exact h

theorem edgeOpened_regions (s : State) : SameRegions s (edgeOpened s) := by
  simp [SameRegions, edgeOpened, edgeHead]

theorem SameRegions.trans {s t u : State} (h : SameRegions s t) (k : SameRegions t u) : SameRegions s u :=
  ⟨k.1.trans h.1, k.2.trans h.2⟩

/-- The image after the host writes of an edge around its latch (R84, R87, R88, R90). -/
theorem edgeGiven_edgeImage (inp : TickIn) {s : State} (hm : Memory.wf s = true) (hl : ∀ w ∈ s.tsk.writes, w.vals.length ≤ 2 ^ 21) :
    EdgeImage s (edgeGiven inp s) := by
  obtain ⟨hbits, hwords, hinBits, hinWords, -, -, -⟩ := (memory_wf_iff s).mp hm
  obtain ⟨-, kbits, kwords, kinBits, kinWords, -, -⟩ := edgeOpened_image s
  -- the first pass, over what was committed
  obtain ⟨wl, wbits, wwords⟩ : WritesTake false s.tsk.writes (edgeOpened s) (edgeWritten s) :=
    applyWrites_take false hl (by rw [kbits]; exact rising_of_wf hbits) (by rw [kwords]; exact rising_of_wf hwords)
  have hopened : SameRegions s (edgeOpened s) := edgeOpened_regions s
  have hwritten : SameRegions s (edgeWritten s) := hopened.trans wl.regions
  -- the output copy and the latch
  obtain ⟨lbits, lwords, linBits, linWords, loutBits, loutWords⟩ := edgeLatched_spec inp wl.rbits wl.rwords
  have hlatched : SameRegions s (edgeLatched inp (edgeWritten s)) := hwritten.trans (edgeLatched_regions inp _)
  obtain ⟨il, ibits, iwords⟩ := latchInputs_spec (s := edgeLatched inp (edgeWritten s)) (by rw [lbits]; exact wl.rbits)
    (by rw [lwords]; exact wl.rwords) (linBits (by rw [wl.inBits, kinBits]; exact rising_of_wf hinBits))
    (linWords (by rw [wl.inWords, kinWords]; exact rising_of_wf hinWords))
  have hinputs : SameRegions s (latchInputs (edgeLatched inp (edgeWritten s))) := hlatched.trans il.regions
  -- the second pass, over the latch
  obtain ⟨gl, gbits, gwords⟩ : WritesTake true s.tsk.writes (latchInputs (edgeLatched inp (edgeWritten s))) (edgeGiven inp s) :=
    applyWrites_take true hl il.rbits il.rwords
  simp only [bitRegion_congr hopened, wordRegion_congr hopened, kbits, kwords] at wbits wwords
  simp only [bitRegion_congr hwritten, wordRegion_congr hwritten] at loutBits loutWords
  simp only [bitRegion_congr hlatched, wordRegion_congr hlatched, lbits, lwords, wbits, wwords] at ibits iwords
  simp only [bitRegion_congr hinputs, wordRegion_congr hinputs, ibits, iwords] at gbits gwords
  refine ⟨fun a => ?_, fun a => ?_, fun a => ?_, fun a => ?_⟩
  · rw [gbits, gl.inBits, il.inBits]
    cases isInput (bitRegion s a) <;> rfl
  · rw [gwords, gl.inWords, il.inWords]
    cases isInput (wordRegion s a) <;> rfl
  · rw [gl.outBits, il.outBits, loutBits, gbits, wbits]
    split
    · rename_i ho; rw [isInput_of_isOutput ho]; rfl
    · rfl
  · rw [gl.outWords, il.outWords, loutWords, gwords, wwords]
    split
    · rename_i ho; rw [isInput_of_isOutput ho]; rfl
    · rfl

/-- What follows the second pass changes no image. -/
theorem edgeBody_edgeImage (inp : TickIn) {s : State} (h : EdgeQuiet s) (hl : ∀ w ∈ s.tsk.writes, w.vals.length ≤ 2 ^ 21) :
    EdgeImage s (edgeBody inp (ticked s)) := by
  have hgiven : EdgeImage s (edgeGiven inp (ticked s)) := edgeGiven_edgeImage (s := ticked s) inp h.memory hl
  obtain ⟨items, he⟩ := edgeBody_written inp h
  obtain ⟨-, tbits, twords, tinBits, tinWords, toutBits, toutWords⟩ : Keeps.image (edgeGiven inp (ticked s)) (edgeBody inp (ticked s)) := by
    rw [he]; simp
  unfold EdgeImage at hgiven ⊢
  rw [tbits, twords, tinBits, tinWords, toutBits, toutWords]
  exact hgiven

theorem edgeBody_writes (inp : TickIn) {s : State} (h : EdgeQuiet s) : (edgeBody inp (ticked s)).tsk.writes = [] := by
  obtain ⟨items, he⟩ := edgeBody_written inp h
  rw [he]
  exact edgeEnd_writes items (edgeGiven_rests inp h)

end Sys2Proof.Proofs
end

section
/-! The image commands (R87, R90, R307). -/

namespace Sys2Proof.Proofs

open Sys2Proof.Machine Sys2Proof.Safety Sys2Proof.Laws

/-! ## Reads and writes of the images -/

/-- The counts of an image command: bits in space 0, words in space 1 (R307). -/
theorem imageRange_bits {n : BitVec 16} (h1 : 1 ≤ n.toNat) (h2 : n.toNat ≤ 65488) : imageRange 0 n = true := by
  have hn : n ≠ 0 := fun h => by simp [h] at h1
  exact decide_eq_true ⟨by decide, hn, h2⟩

theorem imageRange_words {n : BitVec 16} (h1 : 1 ≤ n.toNat) (h2 : n.toNat ≤ 2728) : imageRange 1 n = true := by
  have hn : n ≠ 0 := fun h => by simp [h] at h1
  exact decide_eq_true ⟨by decide, hn, h2⟩

/-- IMG_READ returns the committed values with the present tick (R90). -/
theorem cmdImgRead_bits {c : Ctx} {a : W24} {n : BitVec 16} (s : State) (h1 : 1 ≤ n.toNat) (h2 : n.toNat ≤ 65488) :
    cmdImgRead c 0 a n s = (s, 0, tickBytes c s s.tsk.tick ++
      packBits ((List.range n.toNat).map fun k => Tab.get false s.tsk.bits ((a.toNat + k) % 2 ^ 22)), none) := by
  rw [cmdImgRead, imageRange_bits h1 h2]
  rfl

theorem cmdImgRead_words {c : Ctx} {a : W24} {n : BitVec 16} (s : State) (h1 : 1 ≤ n.toNat) (h2 : n.toNat ≤ 2728) :
    cmdImgRead c 1 a n s = (s, 0, tickBytes c s s.tsk.tick ++
      (List.range n.toNat).flatMap fun k => beBytes 3 (Tab.get 0 s.tsk.words ((a.toNat + k) % 2 ^ 21)).toNat, none) := by
  rw [cmdImgRead, imageRange_words h1 h2]
  rfl

/-- IMG_WRITE of bits waits for the tick edge at which a command accepted now acts, and so does its reply (R90). -/
theorem cmdImgWrite_bits {c : Ctx} {a : W24} {n : BitVec 16} {v : List Byte} (s : State) (h1 : 1 ≤ n.toNat) (h2 : n.toNat ≤ 65488)
    (hv : v.length = (n.toNat + 7) / 8) : cmdImgWrite c 0 a n v s =
      ({ s with tsk.writes := s.tsk.writes ++
          [{ word := false, addr := a, vals := ((unpackBits v).take n.toNat).map fun b => if b then 1 else 0 }] },
       0, tickBytes c s (actsAt s), some (.tick (actsAt s).toNat)) := by
  have hlen : ¬ ((0 : Byte).toNat ≤ 1 ∧ v.length ≠ if (0 : Byte) = 0 then (n.toNat + 7) / 8 else 3 * n.toNat) := by
    rw [if_pos rfl]
    exact fun h => h.2 hv
  rw [cmdImgWrite, if_neg hlen, imageRange_bits h1 h2, nextTick_eq_actsAt]
  rfl

theorem cmdImgWrite_words {c : Ctx} {a : W24} {n : BitVec 16} {v : List Byte} (s : State) (h1 : 1 ≤ n.toNat) (h2 : n.toNat ≤ 2728)
    (hv : v.length = 3 * n.toNat) : cmdImgWrite c 1 a n v s =
      ({ s with tsk.writes := s.tsk.writes ++ [{ word := true, addr := a, vals := words3 v }] },
       0, tickBytes c s (actsAt s), some (.tick (actsAt s).toNat)) := by
  have hlen : ¬ ((1 : Byte).toNat ≤ 1 ∧ v.length ≠ if (1 : Byte) = 0 then (n.toNat + 7) / 8 else 3 * n.toNat) := by
    rw [if_neg (by decide)]
    exact fun h => h.2 hv
  rw [cmdImgWrite, if_neg hlen, imageRange_words h1 h2, nextTick_eq_actsAt]
  rfl

/-! ## The tick edge -/

/-- The tick edge of a quiet module alone is that of its parts; start-up has no step to end there (R84). -/
theorem execTickEdge_of_quiet (inp : TickIn) {s : State} (h : EdgeQuiet s) :
    exec (.tickEdge inp) s = .next (settle (edgeBody inp (ticked s))) := by
  have hticks : ticks s = true := (ticks_iff s).mpr ⟨h.awake, by simp [h.ready], by simp [h.ready]⟩
  have hready : (edgeBody inp (ticked s)).sys.boot = .ready := by simp [ticked, h.ready]
  obtain ⟨-, -, -, -, hstays⟩ := startGoesOn_boot (edgeBody inp (ticked s))
  rw [execTickEdge_of_ticks inp hticks, tickEdge_quiet inp h, hstays hready]

/-- Settles O27: what each command answers at its unit, and the edge by its first step, its two passes of host writes and its latch. -/
theorem imageCommands : Obligations.ImageCommands := by
  unfold Obligations.ImageCommands
  refine ⟨fun r a n h1 h2 => ?_, fun r a n h1 h2 => ?_, fun r a n v h1 h2 hv => ?_, fun r a n v h1 h2 hv => ?_, fun inp s h hl => ?_,
    fun r => ?_⟩
  · exact serves_of_runCmd fun c seq t _ => cmdImgRead_bits t h1 h2
  · exact serves_of_runCmd fun c seq t _ => cmdImgRead_words t h1 h2
  · exact serves_of_runCmd fun c seq t _ => cmdImgWrite_bits t h1 h2 hv
  · exact serves_of_runCmd fun c seq t _ => cmdImgWrite_words t h1 h2 hv
  · exact ⟨edgeBody inp (ticked s), execTickEdge_of_quiet inp h, edgeBody_tick inp (ticked s), edgeBody_writes inp h,
      edgeBody_edgeImage inp h hl⟩
  · exact serves_of_runCmd fun c seq t _ => rfl

end Sys2Proof.Proofs
end

section
/-! REAL48 patterns: what a pattern of given fields reads as, and what the sign bit and the canonical form do to the value read (R171, R172, R174). -/

namespace Sys2Proof.Proofs

open Sys2Proof.Machine Sys2Proof.Safety Sys2Proof.Laws

/-! ## Reading a pattern -/

@[simp] theorem realVal_realNan : realVal realNan = .nan := by decide +kernel

@[simp] theorem realVal_realInf (neg : Bool) : realVal (realInf neg) = .inf neg := by cases neg <;> decide +kernel

@[simp] theorem realVal_realZero (neg : Bool) : realVal (realZero neg) = .fin neg 0 0 := by cases neg <;> decide +kernel

/-- The value read is a function of the sign bit and of the 47 bits below it. -/
theorem realVal_eq_of_setWidth (x : L48) : realVal x =
    let y := (x.setWidth 47).toNat
    if y / 2 ^ 36 = 0x7FF then (if y % 2 ^ 36 = 0 then .inf (x.getLsbD 47) else .nan)
    else if y / 2 ^ 36 = 0 then .fin (x.getLsbD 47) 0 0
    else .fin (x.getLsbD 47) (2 ^ 36 + y % 2 ^ 36) (Int.ofNat (y / 2 ^ 36) - 1059) := by
  have hexp : x.toNat % 2 ^ 47 / 2 ^ 36 = x.toNat / 2 ^ 36 % 2 ^ 11 := by omega
  have hfrac : x.toNat % 2 ^ 47 % 2 ^ 36 = x.toNat % 2 ^ 36 := by omega
  simp only [realVal, BitVec.toNat_setWidth, hexp, hfrac]

/-- The pattern of a normal value: sign, exponent field and fraction (R171). -/
theorem realVal_ofNat_normal (neg : Bool) {e f : Nat} (he : 1 ≤ e) (he' : e ≤ 2046) (hf : f < 2 ^ 36) :
    realVal (BitVec.ofNat 48 ((if neg then 2 ^ 47 else 0) + e * 2 ^ 36 + f)) = .fin neg (2 ^ 36 + f) (Int.ofNat e - 1059) := by
  have hsign : (BitVec.ofNat 48 ((if neg then 2 ^ 47 else 0) + e * 2 ^ 36 + f)).getLsbD 47 = neg := by
    rw [BitVec.getLsbD_ofNat, Nat.testBit_eq_decide_div_mod_eq, decide_eq_true (show 47 < 48 by decide), Bool.true_and]
    cases neg
    · rw [decide_eq_false_iff_not, if_neg Bool.false_ne_true]
      omega
    · rw [decide_eq_true_iff, if_pos rfl]
      omega
  have hlow : ((BitVec.ofNat 48 ((if neg then 2 ^ 47 else 0) + e * 2 ^ 36 + f)).setWidth 47).toNat = e * 2 ^ 36 + f := by
    rw [BitVec.toNat_setWidth, BitVec.toNat_ofNat]
    split <;> omega
  have hexp : (e * 2 ^ 36 + f) / 2 ^ 36 = e := by omega
  have hfrac : (e * 2 ^ 36 + f) % 2 ^ 36 = f := by omega
  rw [realVal_eq_of_setWidth, hsign, hlow]
  simp only [hexp, hfrac]
  rw [if_neg (by omega), if_neg (by omega)]

/-- A finite operand is a zero, with exponent 0, or has a significand of 37 bits (R172). -/
theorem realVal_fin_bounds {x : L48} {neg : Bool} {m : Nat} {e : Int} (h : realVal x = .fin neg m e) :
    m = 0 ∧ e = 0 ∨ 2 ^ 36 ≤ m ∧ m < 2 ^ 37 := by
  simp only [realVal] at h
  split at h
  · split at h <;> cases h
  · split at h
    · cases h
      exact .inl ⟨rfl, rfl⟩
    · cases h
      exact .inr ⟨by omega, by omega⟩

/-! ## The sign -/

/-- The value with the sign inverted. -/
def negVal : RVal → RVal
  | .nan => .nan
  | .inf neg => .inf !neg
  | .fin neg m e => .fin (!neg) m e

/-- The value without its sign. -/
def absVal : RVal → RVal
  | .nan => .nan
  | .inf _ => .inf false
  | .fin _ m e => .fin false m e

@[simp] theorem negVal_eq_nan {v : RVal} : negVal v = .nan ↔ v = .nan := by
  cases v <;> simp only [negVal, reduceCtorEq]

@[simp] theorem absVal_eq_nan {v : RVal} : absVal v = .nan ↔ v = .nan := by
  cases v <;> simp only [absVal, reduceCtorEq]

theorem realVal_flipSign (x : L48) : realVal (flipSign x) = negVal (realVal x) := by
  have hsign : (flipSign x).getLsbD 47 = !x.getLsbD 47 := by
    have htop : (0x800000000000#48).getLsbD 47 = true := by decide
    rw [flipSign, BitVec.getLsbD_xor, htop, Bool.xor_true]
  have hlow : (flipSign x).setWidth 47 = x.setWidth 47 := by
    have hzeros : (0x800000000000#48).setWidth 47 = 0#47 := by decide
    rw [flipSign, BitVec.setWidth_xor, hzeros, BitVec.xor_zero]
  simp only [realVal_eq_of_setWidth, hsign, hlow]
  split
  · split <;> rfl
  · split <;> rfl

theorem realVal_clearSign (x : L48) : realVal (x &&& 0x7FFFFFFFFFFF#48) = absVal (realVal x) := by
  have hsign : (x &&& 0x7FFFFFFFFFFF#48).getLsbD 47 = false := by
    have htop : (0x7FFFFFFFFFFF#48).getLsbD 47 = false := by decide
    rw [BitVec.getLsbD_and, htop, Bool.and_false]
  have hlow : (x &&& 0x7FFFFFFFFFFF#48).setWidth 47 = x.setWidth 47 := by
    have hones : (0x7FFFFFFFFFFF#48).setWidth 47 = BitVec.allOnes 47 := by decide
    rw [BitVec.setWidth_and, hones, BitVec.and_allOnes]
  simp only [realVal_eq_of_setWidth, hsign, hlow]
  split
  · split <;> rfl
  · split <;> rfl

/-! ## The canonical form -/

/-- The canonical form has the value that the pattern is read as (R172). -/
@[simp] theorem realVal_realCanon (x : L48) : realVal (realCanon x).1 = realVal x := by
  unfold realCanon
  split
  next h => rw [h, realVal_realNan]
  next neg h => rw [h, realVal_realInf]
  next neg m e h =>
    obtain ⟨rfl, rfl⟩ | ⟨hm, -⟩ := realVal_fin_bounds h
    · rw [if_pos rfl, h, realVal_realZero]
    · rw [if_neg (by omega)]

end Sys2Proof.Proofs
end

section
/-! One rounding to 37 bits (R173): the significand that `realRound` takes is the nearest one, and the pattern that it writes has that value. -/

namespace Sys2Proof.Proofs

open Sys2Proof.Machine Sys2Proof.Safety Sys2Proof.Laws

/-! ## Rounding a magnitude -/

/-- q × D is nearest to m, plus a part below one when `sticky`, among the multiples of the even D; an exact tie goes to the even q. -/
structure NearestMultiple (m D : Nat) (sticky : Bool) (q : Nat) : Prop where
  below : 2 * (q * D) ≤ 2 * m + D
  above : 2 * (m + sticky.toNat) ≤ 2 * (q * D) + D
  even  : sticky = false → 2 * (q * D) = 2 * m + D ∨ 2 * m = 2 * (q * D) + D → q % 2 = 0

theorem roundShift_nearest (m d : Nat) (sticky : Bool) : NearestMultiple m (2 ^ (d + 1)) sticky (roundShift m (d + 1) sticky) := by
  have hdiv : 2 ^ (d + 1) * (m / 2 ^ (d + 1)) + m % 2 ^ (d + 1) = m := Nat.div_add_mod m _
  have hlt : m % 2 ^ (d + 1) < 2 ^ (d + 1) := Nat.mod_lt _ (Nat.two_pow_pos _)
  have hhalf : 2 ^ (d + 1) = 2 * 2 ^ d := Nat.pow_succ'
  have hs : sticky.toNat ≤ 1 := Bool.toNat_le sticky
  simp only [roundShift, Nat.add_one_ne_zero, if_false, Nat.add_sub_cancel]
  generalize hD : 2 ^ (d + 1) = D at *
  generalize m / D = q at *
  generalize m % D = r at *
  have hup : (q + 1) * D = D * q + D := by rw [Nat.succ_mul, Nat.mul_comm]
  have hdown : q * D = D * q := Nat.mul_comm _ _
  split
  next hcond =>
    refine ⟨by omega, by omega, fun hexact htie => ?_⟩
    have hr : r = 2 ^ d := by omega
    have hodd : q % 2 = 1 := hcond.elim (fun h => absurd h (by omega)) fun ⟨_, h⟩ => h.resolve_left (by rw [hexact]; exact Bool.false_ne_true)
    omega
  next hcond =>
    have hr : r < 2 ^ d ∨ r = 2 ^ d ∧ sticky = false ∧ q % 2 = 0 := by
      rcases Nat.lt_trichotomy r (2 ^ d) with h | h | h
      · exact .inl h
      · refine .inr ⟨h, Bool.eq_false_iff.mpr fun hs => hcond (.inr ⟨h, .inl hs⟩), ?_⟩
        exact (Nat.mod_two_eq_zero_or_one q).resolve_right fun hodd => hcond (.inr ⟨h, .inr hodd⟩)
      · exact absurd (.inl h) hcond
    refine ⟨by omega, ?_, fun hexact htie => by omega⟩
    rcases hr with h | ⟨h, hexact, -⟩
    · omega
    · simp only [hexact, Bool.toNat_false]
      omega

/-- A significand that is rounded up to 2^37 is 2^36 with the next exponent. -/
theorem NearestMultiple.carry {m D : Nat} {sticky : Bool} (h : NearestMultiple m D sticky (2 ^ 37)) :
    NearestMultiple m (2 * D) sticky (2 ^ 36) := by
  obtain ⟨hbelow, habove, -⟩ := h
  exact ⟨by omega, by omega, fun _ _ => by decide⟩

/-- Of a magnitude of d + 37 bits the nearest multiple of 2^d has a quotient of 37 bits, or is 2^37. -/
theorem NearestMultiple.bounds {m d : Nat} {sticky : Bool} {q : Nat} (h : NearestMultiple m (2 ^ d) sticky q)
    (hlo : 2 ^ (d + 36) ≤ m) (hhi : m < 2 ^ (d + 37)) : 2 ^ 36 ≤ q ∧ q ≤ 2 ^ 37 := by
  obtain ⟨hbelow, habove, -⟩ := h
  have hpos : 0 < 2 ^ d := Nat.two_pow_pos d
  rw [Nat.pow_add] at hlo hhi
  generalize 2 ^ d = D at *
  constructor
  · refine Nat.le_of_not_lt fun hq => ?_
    have hnext : (q + 1) * D ≤ 2 ^ 36 * D := Nat.mul_le_mul_right D hq
    rw [Nat.succ_mul] at hnext
    omega
  · refine Nat.le_of_not_lt fun hq => ?_
    have hover : (2 ^ 37 + 1) * D ≤ q * D := Nat.mul_le_mul_right D hq
    omega

/-! ## Writing the rounded value -/

/-- The pattern that `realRound` writes for the rounded value (−1)^neg × q × 2^k. -/
def packReal (neg : Bool) (q : Nat) (k : Int) : L48 × Sticky :=
  if k + 36 + 1023 < 1 then (realZero neg, 0)
  else if k + 36 + 1023 > 2046 then (realInf neg, stOvf)
  else (BitVec.ofNat 48 ((if neg then 2 ^ 47 else 0) + (k + 36 + 1023).toNat * 2 ^ 36 + (q - 2 ^ 36)), 0)

/-- The patterns of `Packs37` are those of the model. -/
theorem zeroPattern_eq (neg : Bool) : (if neg then (0x800000000000 : L48) else 0) = realZero neg := by cases neg <;> rfl

theorem infPattern_eq (neg : Bool) : (if neg then (0xFFF000000000 : L48) else 0x7FF000000000) = realInf neg := by cases neg <;> rfl

theorem packReal_packs (neg : Bool) {q : Nat} (k : Int) (hlo : 2 ^ 36 ≤ q) (hhi : q < 2 ^ 37) : Packs37 neg q k (packReal neg q k) := by
  unfold Packs37 packReal
  by_cases hsmall : k + 36 < -1022
  · rw [if_pos hsmall, if_pos (show k + 36 + 1023 < 1 by omega), zeroPattern_eq]
  · rw [if_neg hsmall, if_neg (show ¬ k + 36 + 1023 < 1 by omega)]
    by_cases hlarge : k + 36 > 1023
    · rw [if_pos hlarge, if_pos (show k + 36 + 1023 > 2046 by omega), infPattern_eq]
      rfl
    · rw [if_neg hlarge, if_neg (show ¬ k + 36 + 1023 > 2046 by omega)]
      refine ⟨?_, rfl⟩
      have hq : 2 ^ 36 + (q - 2 ^ 36) = q := by omega
      have hk : Int.ofNat (k + 36 + 1023).toNat - 1059 = k := by rw [Int.ofNat_eq_natCast]; omega
      rw [realVal_ofNat_normal neg (by omega) (by omega) (by omega), hq, hk]

/-- No result of a rounding is a NaN. -/
theorem realVal_ne_nan_of_packs {neg : Bool} {q : Nat} {k : Int} {r : L48 × Sticky} (h : Packs37 neg q k r) : realVal r.1 ≠ .nan := by
  unfold Packs37 at h
  split at h
  · rw [h, zeroPattern_eq, realVal_realZero]
    nofun
  · split at h
    · rw [h, infPattern_eq, realVal_realInf]
      nofun
    · rw [h.1]
      nofun

/-! ## Rounding a value -/

/-- A magnitude of at most 37 bits is written as it is. -/
theorem realRound_of_lt (neg sticky : Bool) {m : Nat} (e : Int) (h0 : m ≠ 0) (h : m < 2 ^ 37) :
    ∃ j : Nat, 2 ^ 36 ≤ m * 2 ^ j ∧ m * 2 ^ j < 2 ^ 37 ∧ realRound neg m e sticky = packReal neg (m * 2 ^ j) (e - j) := by
  have hlen : Nat.log2 m + 1 ≤ 37 := (Nat.log2_lt h0).mpr h
  have hlo : 2 ^ 36 ≤ m * 2 ^ (37 - (Nat.log2 m + 1)) := by
    calc 2 ^ 36 = 2 ^ Nat.log2 m * 2 ^ (37 - (Nat.log2 m + 1)) := by
          rw [← Nat.pow_add, show Nat.log2 m + (37 - (Nat.log2 m + 1)) = 36 by omega]
      _ ≤ _ := Nat.mul_le_mul_right _ (Nat.log2_self_le h0)
  have hhi : m * 2 ^ (37 - (Nat.log2 m + 1)) < 2 ^ 37 := by
    calc _ < 2 ^ (Nat.log2 m + 1) * 2 ^ (37 - (Nat.log2 m + 1)) := Nat.mul_lt_mul_of_pos_right Nat.lt_log2_self (Nat.two_pow_pos _)
      _ = 2 ^ 37 := by rw [← Nat.pow_add, Nat.add_sub_cancel' hlen]
  refine ⟨_, hlo, hhi, ?_⟩
  simp only [realRound, if_neg h0, if_pos hlen, if_neg (Nat.ne_of_lt hhi)]
  rfl

/-- A longer magnitude is rounded to the nearest multiple of some 2^(d + 1), which has a significand of 37 bits. -/
theorem realRound_of_le (neg sticky : Bool) {m : Nat} (e : Int) (h : 2 ^ 37 ≤ m) :
    ∃ q d : Nat, 2 ^ 36 ≤ q ∧ q < 2 ^ 37 ∧ NearestMultiple m (2 ^ (d + 1)) sticky q ∧
      realRound neg m e sticky = packReal neg q (e + (d + 1 : Nat)) := by
  have h0 : m ≠ 0 := by omega
  obtain ⟨d, hd⟩ : ∃ d, Nat.log2 m + 1 = d + 1 + 37 := ⟨Nat.log2 m - 37, by have := (Nat.le_log2 h0).mpr h; omega⟩
  have hnear := roundShift_nearest m d sticky
  obtain ⟨hlo, hhi⟩ := hnear.bounds
    (calc 2 ^ (d + 1 + 36) = 2 ^ Nat.log2 m := by rw [Nat.succ.inj hd]
      _ ≤ m := Nat.log2_self_le h0)
    (calc m < 2 ^ (Nat.log2 m + 1) := Nat.lt_log2_self
      _ = 2 ^ (d + 1 + 37) := by rw [hd])
  have hround : realRound neg m e sticky = if roundShift m (d + 1) sticky = 2 ^ 37 then packReal neg (2 ^ 36) (e + (d + 1 : Nat) + 1)
      else packReal neg (roundShift m (d + 1) sticky) (e + (d + 1 : Nat)) := by
    simp only [realRound, if_neg h0, hd, if_neg (show ¬ d + 1 + 37 ≤ 37 by omega), Nat.add_sub_cancel]
    split <;> rfl
  rw [hround]
  split
  next hcarry =>
    rw [hcarry] at hnear
    have hexp : e + (d + 1 : Nat) + 1 = e + (d + 1 + 1 : Nat) := by omega
    refine ⟨2 ^ 36, d + 1, Nat.le_refl _, by decide, ?_, by rw [hexp]⟩
    rw [Nat.pow_succ' (n := d + 1)]
    exact hnear.carry
  next hfits => exact ⟨_, d, hlo, Nat.lt_of_le_of_ne hhi hfits, hnear, rfl⟩

/-- The rounding of R173: nearest to the exact value, ties to even. -/
theorem realRound_nearest (neg : Bool) {m : Nat} (e : Int) (h0 : m ≠ 0) :
    ∃ q k, Nearest37 m e q k ∧ Packs37 neg q k (realRound neg m e false) := by
  rcases Nat.lt_or_ge m (2 ^ 37) with h | h
  · obtain ⟨j, hlo, hhi, hround⟩ := realRound_of_lt neg false e h0 h
    refine ⟨m * 2 ^ j, e - j, ⟨hlo, hhi, ?_⟩, hround ▸ packReal_packs neg _ hlo hhi⟩
    rw [if_pos (by omega), show (e - (e - (j : Int))).toNat = j by omega]
  · obtain ⟨q, d, hlo, hhi, ⟨hbelow, habove, heven⟩, hround⟩ := realRound_of_le neg false e h
    refine ⟨q, e + (d + 1 : Nat), ⟨hlo, hhi, ?_⟩, hround ▸ packReal_packs neg _ hlo hhi⟩
    rw [if_neg (by omega), show (e + ((d + 1 : Nat) : Int) - e).toNat = d + 1 by omega]
    exact ⟨hbelow, habove, heven rfl⟩

theorem realRound_zero (neg sticky : Bool) (e : Int) : realRound neg 0 e sticky = (realZero neg, 0) := rfl

/-- No rounded result is a NaN. -/
theorem realVal_realRound_ne_nan (neg sticky : Bool) (m : Nat) (e : Int) : realVal (realRound neg m e sticky).1 ≠ .nan := by
  by_cases h0 : m = 0
  · rw [h0, realRound_zero, realVal_realZero]
    nofun
  rcases Nat.lt_or_ge m (2 ^ 37) with h | h
  · obtain ⟨j, hlo, hhi, hround⟩ := realRound_of_lt neg sticky e h0 h
    rw [hround]
    exact realVal_ne_nan_of_packs (packReal_packs neg _ hlo hhi)
  · obtain ⟨q, d, hlo, hhi, -, hround⟩ := realRound_of_le neg sticky e h
    rw [hround]
    exact realVal_ne_nan_of_packs (packReal_packs neg _ hlo hhi)

end Sys2Proof.Proofs
end

section
/-! ADDF, SUBF, MULF, DIVF and SQRTF of finite operands: the exact result rounded once (R173, R214, R215). -/

namespace Sys2Proof.Proofs

open Sys2Proof.Machine Sys2Proof.Safety Sys2Proof.Laws

/-! ## Sums and products -/

theorem realAdd_of_fin {x y : L48} {a b : Bool} {ma mb : Nat} {ea eb : Int} (hx : realVal x = .fin a ma ea) (hy : realVal y = .fin b mb eb) :
    realAdd x y = if ma = 0 ∧ mb = 0 then (realZero (a && b), 0) else if ma = 0 then realRound b mb eb false
      else if mb = 0 then realRound a ma ea false
      else realRoundInt (signed a (ma * 2 ^ (ea - min ea eb).toNat) + signed b (mb * 2 ^ (eb - min ea eb).toNat)) (min ea eb) false := by
  simp only [realAdd, hx, hy]
  rfl

theorem realSub_of_fin {x y : L48} {a b : Bool} {ma mb : Nat} {ea eb : Int} (hx : realVal x = .fin a ma ea) (hy : realVal y = .fin b mb eb) :
    realSub x y = if ma = 0 ∧ mb = 0 then (realZero (a && !b), 0) else if ma = 0 then realRound (!b) mb eb false
      else if mb = 0 then realRound a ma ea false
      else realRoundInt (signed a (ma * 2 ^ (ea - min ea eb).toNat) - signed b (mb * 2 ^ (eb - min ea eb).toNat)) (min ea eb) false := by
  have hneg : ∀ m, signed (!b) m = -signed b m := fun m => by
    cases b
    · rfl
    · exact (Int.neg_neg _).symm
  rw [realSub, realAdd_of_fin hx (by rw [realVal_flipSign, hy]; rfl), hneg, ← Int.sub_eq_add_neg]

theorem realMul_of_fin {x y : L48} {a b : Bool} {ma mb : Nat} {ea eb : Int} (hx : realVal x = .fin a ma ea) (hy : realVal y = .fin b mb eb) :
    realMul x y = realRound (xor a b) (ma * mb) (ea + eb) false := by
  simp only [realMul, hx, hy]

/-- A signed magnitude at a smaller exponent. -/
theorem signed_mul_two_pow (neg : Bool) (m j : Nat) : signed neg (m * 2 ^ j) = (if neg then -1 else 1) * (m : Int) * 2 ^ j := by
  have hcast : ((m * 2 ^ j : Nat) : Int) = m * 2 ^ j := by rw [Int.natCast_mul, Int.natCast_pow]; rfl
  cases neg
  · simp only [signed, hcast, Bool.false_eq_true, if_false, Int.one_mul]
  · simp only [signed, hcast, if_true, Int.neg_mul, Int.one_mul]

/-! ## Quotients -/

theorem realDiv_of_fin {x y : L48} {a b : Bool} {ma mb : Nat} {ea eb : Int} (hx : realVal x = .fin a ma ea) (hy : realVal y = .fin b mb eb) :
    realDiv x y = if mb = 0 then (if ma = 0 then (realNan, stFinv) else (realInf (xor a b), stFdz))
      else realRound (xor a b) (ma * 2 ^ 80 / mb) (ea - eb - 80) (decide (ma * 2 ^ 80 % mb ≠ 0)) := by
  simp only [realDiv, hx, hy]

/-- A multiple that is nearest to the integer quotient, with the remainder as the part below one, is nearest to the exact quotient. -/
theorem NearestMultiple.quotient {n c D q : Nat} (hc : 0 < c) (h : NearestMultiple (n / c) D (decide (n % c ≠ 0)) q) :
    2 * (q * (c * D)) ≤ 2 * n + c * D ∧ 2 * n ≤ 2 * (q * (c * D)) + c * D ∧
    (2 * (q * (c * D)) = 2 * n + c * D ∨ 2 * n = 2 * (q * (c * D)) + c * D → q % 2 = 0) := by
  obtain ⟨hbelow, habove, heven⟩ := h
  have hdiv : c * (n / c) + n % c = n := Nat.div_add_mod n c
  have hlt : n % c < c := Nat.mod_lt n hc
  have hbelow' := Nat.mul_le_mul_left c hbelow
  have habove' := Nat.mul_le_mul_left c habove
  have hassoc : c * (2 * (q * D)) = 2 * (q * (c * D)) := by ac_rfl
  have hquot : c * (2 * (n / c)) = 2 * (c * (n / c)) := Nat.mul_left_comm _ _ _
  by_cases hexact : n % c = 0
  · simp only [hexact, ne_eq, not_true, decide_false, Bool.toNat_false, Nat.add_zero, Nat.mul_add, hassoc, hquot] at hbelow' habove' hdiv
    refine ⟨by omega, by omega, fun htie => heven (decide_eq_false (not_not_intro hexact)) ?_⟩
    rcases htie with h | h
    · exact .inl (Nat.eq_of_mul_eq_mul_left hc (by rw [Nat.mul_add, hassoc, hquot]; omega))
    · exact .inr (Nat.eq_of_mul_eq_mul_left hc (by rw [Nat.mul_add, hassoc, hquot]; omega))
  · simp only [hexact, ne_eq, not_false_eq_true, decide_true, Bool.toNat_true, Nat.mul_add, hassoc, hquot] at hbelow' habove'
    exact ⟨by omega, by omega, fun htie => by omega⟩

/-- `NearestQuotient37` compares at the smaller of the two exponents; any common exponent serves. -/
theorem nearestQuotient37_of_scale {n d q : Nat} {e k : Int} (i j : Nat) (hij : e - k = i - j) (hlo : 2 ^ 36 ≤ q) (hhi : q < 2 ^ 37)
    (h : 2 * (q * (d * 2 ^ j)) ≤ 2 * (n * 2 ^ i) + d * 2 ^ j ∧ 2 * (n * 2 ^ i) ≤ 2 * (q * (d * 2 ^ j)) + d * 2 ^ j ∧
      (2 * (q * (d * 2 ^ j)) = 2 * (n * 2 ^ i) + d * 2 ^ j ∨ 2 * (n * 2 ^ i) = 2 * (q * (d * 2 ^ j)) + d * 2 ^ j → q % 2 = 0)) :
    NearestQuotient37 n d e q k := by
  obtain ⟨c, hi, hj⟩ : ∃ c, i = (e - min k e).toNat + c ∧ j = (k - min k e).toNat + c := ⟨i - (e - min k e).toNat, by omega, by omega⟩
  have hc : 0 < 2 ^ c := Nat.two_pow_pos c
  rw [hi, hj, Nat.pow_add, Nat.pow_add, ← Nat.mul_assoc n, ← Nat.mul_assoc d] at h
  generalize hx : n * 2 ^ (e - min k e).toNat = x at h
  generalize hu : d * 2 ^ (k - min k e).toNat = u at h
  have hleft : 2 * (q * (u * 2 ^ c)) = 2 ^ c * (2 * (q * u)) := by ac_rfl
  have hright : 2 * (x * 2 ^ c) = 2 ^ c * (2 * x) := by ac_rfl
  rw [hleft, hright, Nat.mul_comm u, ← Nat.mul_add, ← Nat.mul_add] at h
  obtain ⟨hbelow, habove, heven⟩ := h
  simp only [NearestQuotient37, hx, hu]
  refine ⟨hlo, hhi, Nat.le_of_mul_le_mul_left hbelow hc, Nat.le_of_mul_le_mul_left habove hc, fun htie => heven ?_⟩
  exact htie.imp (congrArg _) (congrArg _)

theorem realDiv_nearest {x y : L48} {a b : Bool} {ma mb : Nat} {ea eb : Int} (hx : realVal x = .fin a ma ea) (hy : realVal y = .fin b mb eb)
    (ha : ma ≠ 0) (hb : mb ≠ 0) : ∃ q k, NearestQuotient37 ma mb (ea - eb) q k ∧ Packs37 (xor a b) q k (realDiv x y) := by
  have hma : 2 ^ 36 ≤ ma := by have := realVal_fin_bounds hx; omega
  have hmb : mb < 2 ^ 37 := by have := realVal_fin_bounds hy; omega
  have hlong : 2 ^ 37 ≤ ma * 2 ^ 80 / mb := (Nat.le_div_iff_mul_le (Nat.pos_of_ne_zero hb)).mpr (by omega)
  obtain ⟨q, d, hlo, hhi, hnear, hround⟩ := realRound_of_le (xor a b) (decide (ma * 2 ^ 80 % mb ≠ 0)) (ea - eb - 80) hlong
  rw [realDiv_of_fin hx hy, if_neg hb, hround]
  exact ⟨q, _, nearestQuotient37_of_scale 80 (d + 1) (by omega) hlo hhi (hnear.quotient (Nat.pos_of_ne_zero hb)),
    packReal_packs _ _ hlo hhi⟩

/-! ## Roots -/

/-- The root that is found bit by bit (R214). -/
theorem isqrt_bounds (k n : Nat) : ∀ r, r * r ≤ n → n < (r + 2 ^ k) * (r + 2 ^ k) →
    isqrt k n r * isqrt k n r ≤ n ∧ n < (isqrt k n r + 1) * (isqrt k n r + 1) := by
  induction k with
  | zero => exact fun r hlo hhi => ⟨hlo, hhi⟩
  | succ k ih =>
    intro r hlo hhi
    have htwo : r + 2 ^ (k + 1) = r + 2 ^ k + 2 ^ k := by rw [Nat.pow_succ]; omega
    rw [htwo] at hhi
    rw [isqrt]
    split
    next hbit => exact ih _ hbit hhi
    next hbit => exact ih _ hlo (Nat.lt_of_not_le hbit)

/-- `NearestRoot37` compares at the smaller of the two exponents; any common exponent serves. -/
theorem nearestRoot37_of_scale {m q : Nat} {e k : Int} (i j : Nat) (hij : e - 2 * k = i - j) (hlo : 2 ^ 36 ≤ q) (hhi : q < 2 ^ 37)
    (hbelow : (2 * q - 1) ^ 2 * 2 ^ j ≤ 4 * (m * 2 ^ i)) (habove : 4 * (m * 2 ^ i) ≤ (2 * q + 1) ^ 2 * 2 ^ j) : NearestRoot37 m e q k := by
  obtain ⟨c, hi, hj⟩ : ∃ c, i = (e - min (2 * k) e).toNat + c ∧ j = (2 * k - min (2 * k) e).toNat + c :=
    ⟨i - (e - min (2 * k) e).toNat, by omega, by omega⟩
  have hc : 0 < 2 ^ c := Nat.two_pow_pos c
  rw [hi, hj, Nat.pow_add, Nat.pow_add, ← Nat.mul_assoc m, ← Nat.mul_assoc 4, ← Nat.mul_assoc (_ ^ 2)] at hbelow habove
  exact ⟨hlo, hhi, Nat.le_of_mul_le_mul_right hbelow hc, Nat.le_of_mul_le_mul_right habove hc⟩

/-- A multiple that is nearest to the integer root, with the remainder as the part below one, is nearest to the exact root. -/
theorem NearestMultiple.root {n r D q : Nat} (hlo : r * r ≤ n) (hhi : n < (r + 1) * (r + 1))
    (h : NearestMultiple r D (decide (r * r ≠ n)) q) : (2 * q - 1) ^ 2 * D ^ 2 ≤ 4 * n ∧ 4 * n ≤ (2 * q + 1) ^ 2 * D ^ 2 := by
  obtain ⟨hbelow, habove, -⟩ := h
  have hsquare : ∀ a : Nat, (2 * a) ^ 2 = 4 * (a * a) := fun a => by rw [Nat.mul_pow, Nat.pow_two a]
  constructor
  · have hroot : (2 * q - 1) * D ≤ 2 * r := by
      rw [Nat.sub_mul, Nat.mul_assoc]
      omega
    calc (2 * q - 1) ^ 2 * D ^ 2 = ((2 * q - 1) * D) ^ 2 := (Nat.mul_pow _ _ _).symm
      _ ≤ (2 * r) ^ 2 := Nat.pow_le_pow_left hroot 2
      _ = 4 * (r * r) := hsquare r
      _ ≤ 4 * n := Nat.mul_le_mul_left 4 hlo
  · have hroot : 2 * (r + (decide (r * r ≠ n)).toNat) ≤ (2 * q + 1) * D := by
      rw [Nat.add_mul, Nat.mul_assoc, Nat.one_mul]
      exact habove
    have hn : n ≤ (r + (decide (r * r ≠ n)).toNat) * (r + (decide (r * r ≠ n)).toNat) := by
      by_cases hexact : r * r = n
      · simp only [hexact, ne_eq, not_true_eq_false, decide_false, Bool.toNat_false, Nat.add_zero, Nat.le_refl]
      · simp only [hexact, ne_eq, not_false_eq_true, decide_true, Bool.toNat_true]
        exact Nat.le_of_lt hhi
    calc 4 * n ≤ 4 * ((r + _) * (r + _)) := Nat.mul_le_mul_left 4 hn
      _ = (2 * (r + _)) ^ 2 := (hsquare _).symm
      _ ≤ ((2 * q + 1) * D) ^ 2 := Nat.pow_le_pow_left hroot 2
      _ = (2 * q + 1) ^ 2 * D ^ 2 := Nat.mul_pow _ _ _

/-- The root of m × 2^(2f + p), p = 0 or 1, as SQRTF takes it: the integer root r of m × 2^(80 + p). -/
theorem realSqrt_of_fin {x : L48} {m : Nat} {e : Int} (hx : realVal x = .fin false m e) (hm : m ≠ 0) :
    ∃ (f : Int) (p r : Nat), e = 2 * f + p ∧ r * r ≤ m * 2 ^ (80 + p) ∧ m * 2 ^ (80 + p) < (r + 1) * (r + 1) ∧
      realSqrt x = realRound false r (f - 40) (decide (r * r ≠ m * 2 ^ (80 + p))) := by
  have hlt : m < 2 ^ 37 := by have := realVal_fin_bounds hx; omega
  by_cases heven : e % 2 = 0
  · obtain ⟨hlo, hhi⟩ := isqrt_bounds 60 (m * 2 ^ (80 + 0)) 0 (Nat.zero_le _) (by omega)
    refine ⟨e / 2, 0, _, by omega, hlo, hhi, ?_⟩
    have hexp : (e - 80) / 2 = e / 2 - 40 := by omega
    simp only [realSqrt, hx, if_neg hm, if_pos heven, Bool.false_eq_true, if_false, hexp]
  · obtain ⟨hlo, hhi⟩ := isqrt_bounds 60 (m * 2 ^ (80 + 1)) 0 (Nat.zero_le _) (by omega)
    refine ⟨e / 2, 1, _, by omega, hlo, hhi, ?_⟩
    have hexp : (e - 1 - 80) / 2 = e / 2 - 40 := by omega
    have hodd : 2 * m * 2 ^ 80 = m * 2 ^ (80 + 1) := by omega
    simp only [realSqrt, hx, if_neg hm, if_neg heven, Bool.false_eq_true, if_false, hexp, hodd]

/-- The integer root has more than 37 bits. -/
theorem two_pow_37_le_root {m p r : Nat} (hm : m ≠ 0) (h : m * 2 ^ (80 + p) < (r + 1) * (r + 1)) : 2 ^ 37 ≤ r := by
  refine Nat.le_of_not_lt fun hsmall => ?_
  have hroot : (r + 1) * (r + 1) ≤ 2 ^ 37 * 2 ^ 37 := Nat.mul_le_mul hsmall hsmall
  have hpow : 1 * 2 ^ 80 ≤ m * 2 ^ (80 + p) :=
    Nat.mul_le_mul (Nat.pos_of_ne_zero hm) (Nat.pow_le_pow_right (by decide) (Nat.le_add_right _ _))
  omega

theorem realSqrt_nearest {x : L48} {m : Nat} {e : Int} (hx : realVal x = .fin false m e) (hm : m ≠ 0) :
    ∃ q k, NearestRoot37 m e q k ∧ Packs37 false q k (realSqrt x) := by
  obtain ⟨f, p, r, rfl, hfloor, hceil, hsqrt⟩ := realSqrt_of_fin hx hm
  obtain ⟨q, d, hlo, hhi, hnear, hround⟩ :=
    realRound_of_le false (decide (r * r ≠ m * 2 ^ (80 + p))) (f - 40) (two_pow_37_le_root hm hceil)
  obtain ⟨hbelow, habove⟩ := hnear.root hfloor hceil
  rw [← Nat.pow_mul] at hbelow habove
  rw [hsqrt, hround]
  exact ⟨q, _, nearestRoot37_of_scale (80 + p) ((d + 1) * 2) (by omega) hlo hhi hbelow habove, packReal_packs _ _ hlo hhi⟩

theorem realSqrt_of_zero {x : L48} {neg : Bool} {e : Int} (hx : realVal x = .fin neg 0 e) : realSqrt x = (realZero neg, 0) := by
  simp only [realSqrt, hx, if_true]

/-! ## The statement -/

/-- Settles O7: each operation on its operands' values, and one rounding lemma for whole results, quotients and roots. -/
theorem realRounded : Obligations.RealRounded := by
  unfold Obligations.RealRounded
  refine ⟨fun neg m e h0 => realRound_nearest neg e h0, fun neg sticky e => realRound_zero neg sticky e,
    fun b c nb mb eb nc mc ec hb hc => realMul_of_fin hb hc, fun b c nb mb eb nc mc ec hb hc h0 h0' => ?_,
    fun b c nb mb eb nc mc ec hb hc h0 h0' => ?_, fun b c nb eb nc ec hb hc => ⟨?_, ?_⟩,
    fun b c nb eb nc mc ec hb hc h0 => ⟨?_, ?_, ?_, ?_, ?_⟩,
    fun b c nb mb eb nc mc ec hb hc h0 h0' => realDiv_nearest hb hc h0 h0', fun b m e hb h0 => realSqrt_nearest hb h0,
    fun b neg e hb => realSqrt_of_zero hb⟩
  · rw [realAdd_of_fin hb hc, if_neg (fun h : mb = 0 ∧ mc = 0 => h0 h.1), if_neg h0, if_neg h0', signed_mul_two_pow, signed_mul_two_pow]
    rfl
  · rw [realSub_of_fin hb hc, if_neg (fun h : mb = 0 ∧ mc = 0 => h0 h.1), if_neg h0, if_neg h0', signed_mul_two_pow, signed_mul_two_pow]
    rfl
  · rw [realAdd_of_fin hb hc, if_pos ⟨rfl, rfl⟩]
    rfl
  · rw [realSub_of_fin hb hc, if_pos ⟨rfl, rfl⟩]
    rfl
  · rw [realAdd_of_fin hb hc, if_neg (fun h => h0 h.2), if_pos rfl]
  · rw [realAdd_of_fin hc hb, if_neg (fun h => h0 h.1), if_neg h0, if_pos rfl]
  · rw [realSub_of_fin hb hc, if_neg (fun h => h0 h.2), if_pos rfl]
  · rw [realSub_of_fin hc hb, if_neg (fun h => h0 h.1), if_neg h0, if_pos rfl]
  · rw [realDiv_of_fin hb hc, if_neg h0, Nat.zero_mul, Nat.zero_div, realRound_zero]
    rfl

end Sys2Proof.Proofs
end

section
/-! The special results of the REAL48 group (R174, R214, R215): NaN operands, infinities and zeros, and the canonical NaN. -/

namespace Sys2Proof.Proofs

open Sys2Proof.Machine Sys2Proof.Safety Sys2Proof.Laws

/-! ## NaN operands -/

theorem isNan_eq_true_iff {x : L48} : isNan x = true ↔ realVal x = .nan := decide_eq_true_iff

theorem isNan_or_of_nan {x y : L48} (h : realVal x = .nan ∨ realVal y = .nan) : (isNan x || isNan y) = true := by
  rw [Bool.or_eq_true, isNan_eq_true_iff, isNan_eq_true_iff]
  exact h

theorem realAdd_of_nan {x y : L48} (h : realVal x = .nan ∨ realVal y = .nan) : realAdd x y = (realNan, stFinv) := by
  unfold realAdd
  rcases h with h | h
  · rw [h]
  · rw [h]
    cases realVal x <;> rfl

theorem realSub_of_nan {x y : L48} (h : realVal x = .nan ∨ realVal y = .nan) : realSub x y = (realNan, stFinv) :=
  realAdd_of_nan (by rwa [realVal_flipSign, negVal_eq_nan])

theorem realMul_of_nan {x y : L48} (h : realVal x = .nan ∨ realVal y = .nan) : realMul x y = (realNan, stFinv) := by
  unfold realMul
  rcases h with h | h
  · rw [h]
  · rw [h]
    cases realVal x <;> rfl

theorem realDiv_of_nan {x y : L48} (h : realVal x = .nan ∨ realVal y = .nan) : realDiv x y = (realNan, stFinv) := by
  unfold realDiv
  rcases h with h | h
  · rw [h]
  · rw [h]
    cases realVal x <;> rfl

theorem realMin_of_nan {x y : L48} (h : realVal x = .nan ∨ realVal y = .nan) : realMin x y = (realNan, stFinv) := by
  rw [realMin, if_pos (isNan_or_of_nan h)]

theorem realMax_of_nan {x y : L48} (h : realVal x = .nan ∨ realVal y = .nan) : realMax x y = (realNan, stFinv) := by
  rw [realMax, if_pos (isNan_or_of_nan h)]

theorem realCompare_of_nan (sub : Nat) {x y : L48} (h : realVal x = .nan ∨ realVal y = .nan) : realCompare sub x y = (sub == 1, stFinv) := by
  rw [realCompare, if_pos (isNan_or_of_nan h)]
  rfl

theorem realCanon_of_nan {x : L48} (h : realVal x = .nan) : realCanon x = (realNan, stFinv) := by simp only [realCanon, h]

theorem realNeg_of_nan {x : L48} (h : realVal x = .nan) : realNeg x = (realNan, stFinv) := by simp only [realNeg, h]

theorem realAbs_of_nan {x : L48} (h : realVal x = .nan) : realAbs x = (realNan, stFinv) := by simp only [realAbs, h]

theorem realSqrt_of_nan {x : L48} (h : realVal x = .nan) : realSqrt x = (realNan, stFinv) := by simp only [realSqrt, h]

theorem realIntegral_of_nan (trunc : Bool) {x : L48} (h : realVal x = .nan) : realIntegral trunc x = (realNan, stFinv) := by
  simp only [realIntegral, h]

/-! ## Infinities and zeros -/

theorem realAdd_of_inf {x y : L48} {a b : Bool} (hx : realVal x = .inf a) (hy : realVal y = .inf b) :
    realAdd x y = if a = b then (realInf a, 0) else (realNan, stFinv) := by simp only [realAdd, hx, hy]

theorem realSub_of_inf {x y : L48} {a b : Bool} (hx : realVal x = .inf a) (hy : realVal y = .inf b) :
    realSub x y = if a = !b then (realInf a, 0) else (realNan, stFinv) :=
  realAdd_of_inf hx (by rw [realVal_flipSign, hy]; rfl)

theorem realMul_zero_inf {x y : L48} {a b : Bool} {e : Int} (hx : realVal x = .fin a 0 e) (hy : realVal y = .inf b) :
    realMul x y = (realNan, stFinv) := by simp only [realMul, hx, hy, if_true]

theorem realMul_inf_zero {x y : L48} {a b : Bool} {e : Int} (hx : realVal x = .inf a) (hy : realVal y = .fin b 0 e) :
    realMul x y = (realNan, stFinv) := by simp only [realMul, hx, hy, if_true]

theorem realDiv_inf_inf {x y : L48} {a b : Bool} (hx : realVal x = .inf a) (hy : realVal y = .inf b) :
    realDiv x y = (realNan, stFinv) := by simp only [realDiv, hx, hy]

theorem realDiv_fin_inf {x y : L48} {a b : Bool} {m : Nat} {e : Int} (hx : realVal x = .fin a m e) (hy : realVal y = .inf b) :
    realDiv x y = (realZero (xor a b), 0) := by simp only [realDiv, hx, hy]

theorem realSqrt_of_neg {x : L48} {m : Nat} {e : Int} (hx : realVal x = .fin true m e) (hm : m ≠ 0) : realSqrt x = (realNan, stFinv) := by
  simp only [realSqrt, hx, if_neg hm, if_true]

theorem realSqrt_of_neg_inf {x : L48} (hx : realVal x = .inf true) : realSqrt x = (realNan, stFinv) := by simp only [realSqrt, hx]

/-! ## The canonical NaN -/

/-- A result that is a NaN is the canonical one (R174). -/
def NanIsCanonical (r : L48 × Sticky) : Prop := realVal r.1 = .nan → r.1 = realNan

theorem nanIsCanonical_nan (st : Sticky) : NanIsCanonical (realNan, st) := fun _ => rfl

theorem nanIsCanonical_of_ne {r : L48 × Sticky} (h : realVal r.1 ≠ .nan) : NanIsCanonical r := fun hnan => absurd hnan h

theorem nanIsCanonical_inf (neg : Bool) (st : Sticky) : NanIsCanonical (realInf neg, st) :=
  nanIsCanonical_of_ne (by rw [realVal_realInf]; nofun)

theorem nanIsCanonical_zero (neg : Bool) (st : Sticky) : NanIsCanonical (realZero neg, st) :=
  nanIsCanonical_of_ne (by rw [realVal_realZero]; nofun)

theorem nanIsCanonical_round (neg sticky : Bool) (m : Nat) (e : Int) : NanIsCanonical (realRound neg m e sticky) :=
  nanIsCanonical_of_ne (realVal_realRound_ne_nan neg sticky m e)

theorem nanIsCanonical_ite {c : Prop} [Decidable c] {r t : L48 × Sticky} (hr : NanIsCanonical r) (ht : NanIsCanonical t) :
    NanIsCanonical (if c then r else t) := by
  split
  · exact hr
  · exact ht

theorem nanIsCanonical_roundInt (n e : Int) (zeroNeg : Bool) : NanIsCanonical (realRoundInt n e zeroNeg) :=
  nanIsCanonical_ite (nanIsCanonical_zero _ _) (nanIsCanonical_round _ _ _ _)

theorem nanIsCanonical_realAdd (x y : L48) : NanIsCanonical (realAdd x y) := by
  unfold realAdd
  split
  · exact nanIsCanonical_nan _
  · exact nanIsCanonical_nan _
  · exact nanIsCanonical_ite (nanIsCanonical_inf _ _) (nanIsCanonical_nan _)
  · exact nanIsCanonical_inf _ _
  · exact nanIsCanonical_inf _ _
  · exact nanIsCanonical_ite (nanIsCanonical_zero _ _) (nanIsCanonical_ite (nanIsCanonical_round _ _ _ _)
      (nanIsCanonical_ite (nanIsCanonical_round _ _ _ _) (nanIsCanonical_roundInt _ _ _)))

theorem nanIsCanonical_realMul (x y : L48) : NanIsCanonical (realMul x y) := by
  unfold realMul
  split
  · exact nanIsCanonical_nan _
  · exact nanIsCanonical_nan _
  · exact nanIsCanonical_inf _ _
  · exact nanIsCanonical_ite (nanIsCanonical_nan _) (nanIsCanonical_inf _ _)
  · exact nanIsCanonical_ite (nanIsCanonical_nan _) (nanIsCanonical_inf _ _)
  · exact nanIsCanonical_round _ _ _ _

theorem nanIsCanonical_realDiv (x y : L48) : NanIsCanonical (realDiv x y) := by
  unfold realDiv
  split
  · exact nanIsCanonical_nan _
  · exact nanIsCanonical_nan _
  · exact nanIsCanonical_nan _
  · exact nanIsCanonical_inf _ _
  · exact nanIsCanonical_zero _ _
  · exact nanIsCanonical_ite (nanIsCanonical_ite (nanIsCanonical_nan _) (nanIsCanonical_inf _ _)) (nanIsCanonical_round _ _ _ _)

theorem nanIsCanonical_realSqrt (x : L48) : NanIsCanonical (realSqrt x) := by
  unfold realSqrt
  split
  · exact nanIsCanonical_nan _
  · exact nanIsCanonical_nan _
  · exact nanIsCanonical_inf _ _
  · exact nanIsCanonical_ite (nanIsCanonical_zero _ _) (nanIsCanonical_ite (nanIsCanonical_nan _) (nanIsCanonical_round _ _ _ _))

theorem nanIsCanonical_realCanon (x : L48) (st : Sticky) : NanIsCanonical ((realCanon x).1, st) := by
  intro h
  rw [realVal_realCanon] at h
  rw [realCanon_of_nan h]

theorem nanIsCanonical_realMin (x y : L48) : NanIsCanonical (realMin x y) :=
  nanIsCanonical_ite (nanIsCanonical_nan _) (nanIsCanonical_realCanon _ _)

theorem nanIsCanonical_realMax (x y : L48) : NanIsCanonical (realMax x y) :=
  nanIsCanonical_ite (nanIsCanonical_nan _) (nanIsCanonical_realCanon _ _)

theorem nanIsCanonical_realNeg (x : L48) : NanIsCanonical (realNeg x) := by
  unfold realNeg
  split
  · exact nanIsCanonical_nan _
  next h => exact nanIsCanonical_of_ne (by rwa [realVal_flipSign, ne_eq, negVal_eq_nan, realVal_realCanon])

theorem nanIsCanonical_realAbs (x : L48) : NanIsCanonical (realAbs x) := by
  unfold realAbs
  split
  · exact nanIsCanonical_nan _
  next h => exact nanIsCanonical_of_ne (by rwa [realVal_clearSign, ne_eq, absVal_eq_nan, realVal_realCanon])

theorem nanIsCanonical_realIntegral (trunc : Bool) (x : L48) : NanIsCanonical (realIntegral trunc x) := by
  unfold realIntegral
  split
  · exact nanIsCanonical_nan _
  · exact nanIsCanonical_inf _ _
  · exact nanIsCanonical_ite (nanIsCanonical_realCanon _ _) (nanIsCanonical_round _ _ _ _)

/-! ## Compares -/

theorem isNan_negZero : isNan 0x800000000000 = isNan 0 := by decide +kernel

theorem realCmpKey_negZero : realCmpKey 0x800000000000 = realCmpKey 0 := by decide +kernel

theorem realCompare_negZero_left (sub : Nat) (y : L48) : realCompare sub 0x800000000000 y = realCompare sub 0 y := by
  simp only [realCompare, isNan_negZero, realCmpKey_negZero]

theorem realCompare_negZero_right (sub : Nat) (x : L48) : realCompare sub x 0x800000000000 = realCompare sub x 0 := by
  simp only [realCompare, isNan_negZero, realCmpKey_negZero]

/-! ## The statement -/

/-- Settles O8: each operation on the classes of its operands, and of every result that it is a rounded value, an infinity, a zero, a
canonical form or the canonical NaN. -/
theorem realSpecialResults : Obligations.RealSpecialResults := by
  unfold Obligations.RealSpecialResults
  refine ⟨fun b c h => ⟨realAdd_of_nan h, realSub_of_nan h, realMul_of_nan h, realDiv_of_nan h, realMin_of_nan h, realMax_of_nan h,
      fun sub => realCompare_of_nan sub h⟩,
    fun b h => ⟨realCanon_of_nan h, realNeg_of_nan h, realAbs_of_nan h, realSqrt_of_nan h, realIntegral_of_nan false h,
      realIntegral_of_nan true h⟩,
    fun neg => ⟨?_, ?_⟩, fun b c nb eb nc hb hc => ⟨realMul_zero_inf hb hc, realMul_inf_zero hc hb⟩,
    fun b c nb eb nc ec hb hc => ?_, fun b c nb nc hb hc => realDiv_inf_inf hb hc, fun b c nb mb eb nc ec hb h0 hc => ?_,
    fun b c nb mb eb nc hb hc => realDiv_fin_inf hb hc, fun b m e hb h0 => realSqrt_of_neg hb h0,
    realSqrt_of_neg_inf (realVal_realInf true), realSqrt_of_zero (realVal_realZero true), fun b c => ?_,
    fun sub b => ⟨realCompare_negZero_left sub b, realCompare_negZero_right sub b⟩⟩
  · exact (realAdd_of_inf (realVal_realInf neg) (realVal_realInf !neg)).trans (if_neg (by cases neg <;> decide))
  · exact (realSub_of_inf (realVal_realInf neg) (realVal_realInf neg)).trans (if_neg (by cases neg <;> decide))
  · rw [realDiv_of_fin hb hc, if_pos rfl, if_pos rfl]
    rfl
  · rw [realDiv_of_fin hb hc, if_pos rfl, if_neg h0]
    rfl
  · simp only [List.forall_mem_cons]
    exact ⟨nanIsCanonical_realAdd b c, nanIsCanonical_realAdd b (flipSign c), nanIsCanonical_realMul b c, nanIsCanonical_realDiv b c,
      nanIsCanonical_realMin b c, nanIsCanonical_realMax b c, nanIsCanonical_realCanon b _, nanIsCanonical_realNeg b,
      nanIsCanonical_realAbs b, nanIsCanonical_realSqrt b, nanIsCanonical_realIntegral false b, nanIsCanonical_realIntegral true b, nofun⟩

end Sys2Proof.Proofs
end

section
/-! The four steps of an instruction (R192). -/

namespace Sys2Proof.Proofs

open Sys2Proof.Machine Sys2Proof.Safety Sys2Proof.Laws

theorem formUsed_some (env : Env) (t : Ty) (o : Opnd) (x : X) : formUsed env (some t) o x = formOp env t false o x := rfl

theorem readUsed_some (env : Env) (t : Ty) (l : Loc) (x : X) : readUsed env (some t) l x = readLoc env t l x := rfl

theorem raise_eq (st : Sticky) (x : X) : raise st x = { x with raised := x.raised ||| st } := rfl

/-- Settles O1: with every operand used, forming and reading a used operand is forming and reading it. -/
theorem fourStepsInOrder : Obligations.FourStepsInOrder := by
  unfold Obligations.FourStepsInOrder
  intro ta tb tc f env i x
  simp only [insAlu, formUsed_some, readUsed_some, raise_eq, if_true]

end Sys2Proof.Proofs
end

section
/-! The edit from its build to its drain and its store, and the store of the settings (R256 to R262, R267, R268, R561, R623). -/

namespace Sys2Proof.Proofs

open Sys2Proof.Machine Sys2Proof.Safety Sys2Proof.Laws

/-! ## The checks of a change set (R255, R256) -/

/-- A change set that fails a check of its framing is refused with a status that is not ST_OK. -/
theorem takeFramed_status_ne_zero {load : Bool} {magic limit : Nat} {buf : Tab (Option Byte)} {st : BitVec 16}
    (h : takeFramed load magic limit buf = .inl st) : st ≠ 0 := by
  unfold takeFramed at h
  dsimp only at h
  repeat' split at h
  all_goals cases h
  all_goals decide

/-- Every rule of R256 that a fault names has a status that is not ST_OK. -/
def StatusNamed (o : Option (BitVec 16 × Option Rec)) : Prop := ∀ e, o = some e → e.1 ≠ 0

theorem statusNamed_orElse {o p : Option (BitVec 16 × Option Rec)} (ho : StatusNamed o) (hp : StatusNamed p) :
    StatusNamed (o.orElse fun _ => p) := by
  cases o with
  | none => exact hp
  | some _ => exact ho

theorem statusNamed_map {st : BitVec 16} (h : st ≠ 0) (r : Option Rec) : StatusNamed (r.map fun r => (st, some r)) := by
  rintro e he
  obtain ⟨r, -, rfl⟩ := Option.map_eq_some_iff.mp he
  exact h

theorem statusNamed_none : StatusNamed none := nofun

theorem statusNamed_some {st : BitVec 16} (h : st ≠ 0) (r : Option Rec) : StatusNamed (some (st, r)) := by
  rintro e ⟨rfl⟩
  exact h

theorem statusNamed_ite {c : Prop} [Decidable c] {o p : Option (BitVec 16 × Option Rec)} (ho : StatusNamed o) (hp : StatusNamed p) :
    StatusNamed (if c then o else p) := by
  split
  · exact ho
  · exact hp

theorem firstFault_statusNamed (simplex ecc : Bool) (bitReg wordReg : List Region) (old b : Bank) (rs : List Rec) :
    StatusNamed (firstFault simplex ecc bitReg wordReg old b rs) := by
  unfold firstFault
  exact statusNamed_orElse (statusNamed_map (by decide) _) <|
    statusNamed_orElse (statusNamed_ite statusNamed_none (statusNamed_map (by decide) _)) <|
    statusNamed_orElse (statusNamed_ite (statusNamed_some (by decide) _) statusNamed_none) <|
    statusNamed_orElse (statusNamed_map (by decide) _) <|
    statusNamed_orElse (statusNamed_map (by decide) _) <|
    statusNamed_orElse (statusNamed_map (by decide) _) <|
    statusNamed_orElse (statusNamed_map (by decide) _) <|
    statusNamed_orElse (statusNamed_map (by decide) _) <|
    statusNamed_orElse (statusNamed_map (by decide) _) <|
    statusNamed_ite (statusNamed_some (by decide) _) statusNamed_none

theorem isSome_orElse {α : Type} (o : Option α) {p : Option α} (hp : p.isSome = true) : (o.orElse fun _ => p).isSome = true := by
  cases o with
  | none => exact hp
  | some _ => rfl

/-- A bank that has met an uncorrectable error breaks the last rule if no other (R256). -/
theorem firstFault_of_ecc (simplex : Bool) (bitReg wordReg : List Region) (old b : Bank) (rs : List Rec) :
    (firstFault simplex true bitReg wordReg old b rs).isSome = true := by
  unfold firstFault
  iterate 9 apply isSome_orElse
  rfl

/-! ## The end of a build (R256, R257) -/

theorem setShadow_prog (b : Bank) (s : State) :
    (setShadow b s).prog = if s.prog.active then { s.prog with bank0 := b } else { s.prog with bank1 := b } := by
  unfold setShadow updBank
  cases s.prog.active <;> rfl

theorem bankOf_of_prog {s t : State} (h : t.prog = s.prog) (k : Bool) : bankOf t k = bankOf s k := by
  unfold bankOf
  rw [h]

/-- t runs the bank that s runs. -/
def KeepsActiveBank (s t : State) : Prop := bankOf t t.prog.active = bankOf s s.prog.active ∧ t.prog.active = s.prog.active

theorem keepsActiveBank_setShadow (b : Bank) (s : State) : KeepsActiveBank s (setShadow b s) := by
  have ha : (setShadow b s).prog.active = s.prog.active := updBank_active _ _ s
  exact ⟨by rw [ha]; exact bankOf_setShadow_active b s, ha⟩

theorem KeepsActiveBank.of_prog {s t u : State} (h : KeepsActiveBank s t) (hu : u.prog = t.prog) : KeepsActiveBank s u :=
  ⟨by rw [bankOf_of_prog hu, hu]; exact h.1, by rw [hu]; exact h.2⟩

/-- The state in which a build has made the edit BUILT. -/
def builtEdit (b : Bank) (dirs : List Directive) (puts : List (BitVec 14)) (s : State) : State :=
  { setShadow b s with prog.held := true, prog.edit := .built, prog.dirs := dirs, prog.puts := puts, prog.editBuf := [] }

/-- The state in which a build has made the edit FAILED, for a status and the record that it names. -/
def failedEdit (st : BitVec 16) (r : Option Rec) (s : State) : State :=
  { dropShadow s with
    prog.edit := .failed, prog.editErr := st, prog.errType := BitVec.ofNat 8 ((r.map (·.type)).getD 0),
    prog.errOfs := BitVec.ofNat 21 ((r.map (·.ofs)).getD 0) }

theorem keepsActiveBank_builtEdit (b : Bank) (dirs : List Directive) (puts : List (BitVec 14)) (s : State) :
    KeepsActiveBank s (builtEdit b dirs puts s) := keepsActiveBank_setShadow b s

theorem keepsActiveBank_failedEdit (st : BitVec 16) (r : Option Rec) (s : State) : KeepsActiveBank s (failedEdit st r s) :=
  keepsActiveBank_setShadow {} s

theorem buildFailed_prog (st : BitVec 16) (r : Option Rec) (s : State) : (buildFailed st r s).prog = (failedEdit st r s).prog := by
  simp only [buildFailed, sendBuilt_frame, accession_frame, failedEdit]

/-- A build fails with a status that is not ST_OK, or, where the shadow bank met no error, makes the edit BUILT. -/
theorem buildDone_cases (ecc : Bool) (s : State) :
    (∃ st r, st ≠ 0 ∧ buildDone ecc s = buildFailed st r s) ∨
    ((ecc || s.prog.shadowEcc) = false ∧
      ∃ b dropped dirs puts, buildDone ecc s = sendBuilt b.digest (noteDropped dropped (builtEdit b dirs puts s))) := by
  unfold buildDone
  cases ht : takeFramed false 0x5E7C 2097152 s.prog.editBuf with
  | inl st => exact .inl ⟨st, none, takeFramed_status_ne_zero ht, rfl⟩
  | inr f =>
    dsimp only
    split
    next e he => exact .inl ⟨e.1, e.2, firstFault_statusNamed _ _ _ _ _ _ _ e he, rfl⟩
    next hn =>
      refine .inr ⟨Bool.eq_false_iff.mpr fun hecc => ?_, _, _, _, _, rfl⟩
      rw [hecc] at hn
      have hs := firstFault_of_ecc (decide (s.red.role = 0)) s.prog.bitReg s.prog.wordReg (activeBank s)
        (runLoader false f.recs (activeBank s) (f.recs.foldl applyRec (activeBank s))).1 f.recs
      rw [hn] at hs
      exact Bool.noConfusion hs

theorem buildDone_prog (ecc : Bool) (s : State) :
    (∃ st r, st ≠ 0 ∧ (buildDone ecc s).prog = (failedEdit st r s).prog) ∨
    ((ecc || s.prog.shadowEcc) = false ∧ ∃ b dirs puts, (buildDone ecc s).prog = (builtEdit b dirs puts s).prog) := by
  rcases buildDone_cases ecc s with ⟨st, r, hst, h⟩ | ⟨hecc, b, dropped, dirs, puts, h⟩
  · exact .inl ⟨st, r, hst, by rw [h, buildFailed_prog]⟩
  · exact .inr ⟨hecc, b, dirs, puts, by rw [h]; simp only [sendBuilt_frame, noteDropped_frame]⟩

/-- EDIT_BUILD_DONE makes the edit BUILT or FAILED and leaves the bank that runs. -/
theorem buildDone_ends (ecc : Bool) (s : State) :
    ((buildDone ecc s).prog.edit = .built ∧ (buildDone ecc s).prog.held = true ∨
      (buildDone ecc s).prog.edit = .failed ∧ (buildDone ecc s).prog.held = false ∧ (buildDone ecc s).prog.editErr ≠ 0) ∧
    KeepsActiveBank s (buildDone ecc s) := by
  rcases buildDone_prog ecc s with ⟨st, r, hst, h⟩ | ⟨-, b, dirs, puts, h⟩
  · refine ⟨.inr ?_, (keepsActiveBank_failedEdit st r s).of_prog h⟩
    rw [h]
    exact ⟨rfl, rfl, hst⟩
  · refine ⟨.inl ?_, (keepsActiveBank_builtEdit b dirs puts s).of_prog h⟩
    rw [h]
    exact ⟨rfl, rfl⟩

/-- A build whose shadow bank met an uncorrectable error fails. -/
theorem buildDone_of_ecc {ecc : Bool} {s : State} (h : ecc = true ∨ s.prog.shadowEcc = true) : (buildDone ecc s).prog.edit = .failed := by
  rcases buildDone_prog ecc s with ⟨st, r, -, hp⟩ | ⟨hecc, -⟩
  · rw [hp]; rfl
  · rcases h with h | h <;> simp [h] at hecc

theorem execEditBuildDone_of_building {s : State} (e : Bool) (h : s.prog.edit = .building) :
    exec (.editBuildDone e) s = .next (buildDone e s) := congrArg _ (if_pos h)

theorem execEditBuildDone_of_not_building {s : State} (e : Bool) (h : s.prog.edit ≠ .building) :
    exec (.editBuildDone e) s = .next s := congrArg _ (if_neg h)

/-! ## The switch (R259 to R262) -/

/-- At the switch the banks change places, with the marks that pass to the new one, and its store begins. -/
theorem switchBanks_prog (s : State) : ∃ b, (switchBanks s).prog =
    { (setShadow b s).prog with
      active := !s.prog.active, gen := s.prog.gen + 1, edit := .draining, undone := s.prog.armUndo, editCount := satInc s.prog.editCount,
      owned := (switchBanks s).prog.owned, dirs := [], storing := true } := by
  refine ⟨carryRevoked s.prog.puts (activeBank s) (clearRerun (shadowBank s)), ?_⟩
  simp only [switchBanks, accession_frame, startStore, fullAll_frame, setShadow_prog]
  cases s.prog.active <;> rfl

/-- The bank that ran stays as it was. -/
theorem bankOf_switchBanks (s : State) : bankOf (switchBanks s) s.prog.active = bankOf s s.prog.active := by
  obtain ⟨b, h⟩ := switchBanks_prog s
  refine Eq.trans ?_ (bankOf_setShadow_active b s)
  unfold bankOf
  rw [h]

theorem execEditTick_of_due {s : State} (ha : s.prog.edit = .armed) (ht : s.prog.armTick = s.tsk.tick + 1) :
    exec .editTick s = .next (switchBanks s) := congrArg _ (if_pos ⟨ha, ht⟩)

theorem execEditTick_of_not_due {s : State} (h : s.prog.edit ≠ .armed ∨ s.prog.armTick ≠ s.tsk.tick + 1) :
    exec .editTick s = .next s := congrArg _ (if_neg fun hd => h.elim (· hd.1) (· hd.2))

/-! ## The drain (R260) -/

/-- A task that enters ABSENT held no release, so the drain goes on as before. -/
theorem draining_settleRemoved (s : State) : draining (settleRemoved s) = draining s := by
  unfold draining settleRemoved
  dsimp only
  rw [List.any_filter, List.any_map]
  congr 1
  funext e
  cases hr : released e.2 with
  | true =>
    have hheld : e.2 ≠ {} := fun he => by rw [he] at hr; exact Bool.noConfusion hr
    have hkept : decide (e.2 ≠ {}) = true := decide_eq_true hheld
    simp only [Function.comp_apply, hr, Bool.true_or, if_true, hkept, Bool.true_and]
  | false =>
    have hidle : released (if (false || present (taskDef s e.1)) = true then e else (e.1, { peak := e.2.peak })).2 = false := by
      split
      · exact hr
      · rfl
    simp only [Function.comp_apply, hr, hidle, Bool.false_and, Bool.and_false]

/-- The state in which a drain has ended. -/
def drainedEdit (s : State) : State :=
  { releaseFeature 0x22 0 (settleRemoved s) with prog.edit := .none, prog.undoAvail := !s.prog.undone, prog.armUndo := false }

theorem drainEnd_eq (s : State) :
    drainEnd s = if s.prog.edit = .draining ∧ (!draining s) = true then drainedEdit s else settleRemoved s := by
  rw [← draining_settleRemoved]
  rfl

theorem drainEnd_of_drained {s : State} (he : s.prog.edit = .draining) (hd : draining s = false) : drainEnd s = drainedEdit s := by
  rw [drainEnd_eq, hd]
  exact if_pos ⟨he, rfl⟩

theorem drainEnd_of_draining {s : State} (hd : draining s = true) : drainEnd s = settleRemoved s := by
  rw [drainEnd_eq, hd]
  exact if_neg fun h => Bool.noConfusion h.2

theorem draining_eq_false {s : State} (h : s.tsk.tasks.all (fun e => !released e.2 || e.2.bank == s.prog.active) = true) :
    draining s = false := by
  refine List.any_eq_false.mpr fun e he hrun => ?_
  have hdone := List.all_eq_true.mp h e he
  cases hr : released e.2 <;> simp_all

theorem draining_eq_true {s : State} (h : ∃ e ∈ s.tsk.tasks, released e.2 = true ∧ e.2.bank ≠ s.prog.active) : draining s = true := by
  obtain ⟨e, he, hr, hb⟩ := h
  exact List.any_eq_true.mpr ⟨e, he, by simp [hr, hb]⟩

/-- A feature that is released is not enabled (R34). -/
theorem enabled_releaseFeature (code inst : Nat) (s : State) : enabled (releaseFeature code inst s) code inst = false := by
  unfold releaseFeature
  split
  · dsimp only
    split <;> simp [enabled, setEnabled, touchSettings]
  next h => simpa using h

/-! ## The store of the program (R268) -/

/-- The program that runs, as it is stored. -/
def storedForm (s : State) : Stored :=
  { bank := clearMarks (activeBank s), bitReg := s.prog.bitReg, wordReg := s.prog.wordReg, inits := s.prog.inits }

/-- The store fills the slot that the selector does not name. -/
theorem execEditStored_of_storing {s : State} (h : s.prog.storing = true) : ∃ t, exec .editStored s = .next t ∧
    t.prog = if storedSlot s = some false then { s.prog with storing := false, storedB := some (storedForm s) }
      else { s.prog with storing := false, storedA := some (storedForm s) } := by
  refine ⟨_, congrArg Host.Outcome.next (if_pos h), ?_⟩
  simp only [accession_frame, twinWrite_frame]
  by_cases hb : storedSlot s = some false <;> simp [hb, storedForm]

theorem execEditStored_of_not_storing {s : State} (h : s.prog.storing = false) : exec .editStored s = .next s :=
  congrArg _ (if_neg (by simp [h]))

/-! ## The store of the settings (R561, R623) -/

theorem firmwareWrite_twins (p : Nat) (data : List Byte) (s : State) : (firmwareWrite p data s).depot.twins = s.depot.twins := by
  unfold firmwareWrite queueOrWait depotEnter
  (repeat' split) <;> rfl

/-- The store of the settings begins with its page writes; a generation holds its settings when the last of them has ended. -/
theorem beginStoring_starts {g : Bool} {x : Stores} {s : State} (h : s.depot.pfail = false) :
    (beginStoring g x s).upd = { s.upd with storing := some (g, x) } ∧ (beginStoring g x s).depot.twins = s.depot.twins := by
  rw [beginStoring, if_neg (by simp [h])]
  exact ⟨foldl_keeps (fun t : State => t.upd) _ (fun t i => by simp only [firmwareWrite_frame]) _ _,
    foldl_keeps (fun t : State => t.depot.twins) _ (fun t i => firmwareWrite_twins _ _ t) _ _⟩

/-- The last page of a generation that is being stored has been written. -/
theorem finishStoring_of_written {s : State} {g : Bool} {x : Stores} (h : s.upd.storing = some (g, x))
    (hw : ∀ i < 96, firmwareWaits s (generationPage g + i) = false) :
    finishStoring s =
      let t := { s with upd := if g then { s.upd with storing := none, gen1 := x } else { s.upd with storing := none, gen0 := x } }
      if inTrial s then t else twinWrite 4 (.settings g (formatOf (runVer s 0))) t := by
  have hnone : ((List.range 96).any fun i => firmwareWaits s (generationPage g + i)) = false := by
    simpa using hw
  unfold finishStoring
  rw [h]
  dsimp only
  rw [hnone]
  cases g <;> rfl

/-- The generation that was being stored holds its settings. -/
theorem finishStoring_upd {s : State} {g : Bool} {x : Stores} (h : s.upd.storing = some (g, x))
    (hw : ∀ i < 96, firmwareWaits s (generationPage g + i) = false) :
    (finishStoring s).upd = if g then { s.upd with storing := none, gen1 := x } else { s.upd with storing := none, gen0 := x } := by
  rw [finishStoring_of_written h hw]
  dsimp only
  split <;> simp only [twinWrite_frame]

/-- A part in TRIAL keeps the selector where it is. -/
theorem finishStoring_depot_of_trial {s : State} {g : Bool} {x : Stores} (h : s.upd.storing = some (g, x))
    (hw : ∀ i < 96, firmwareWaits s (generationPage g + i) = false) (hi : inTrial s = true) : (finishStoring s).depot = s.depot := by
  rw [finishStoring_of_written h hw]
  dsimp only
  rw [if_pos hi]

/-- The settings are stored when they have changed, no part is in TRIAL, start-up has ended and no earlier store is in progress, unless
the supply fails. -/
theorem storeSettings_eq (s : State) : storeSettings s =
    if s.upd.dirty = true ∧ inTrial s = false ∧ s.sys.boot = .ready ∧ s.upd.storing = none ∧ s.depot.pfail = false ∧ twinEnded 4 s = true
    then beginStoring (!(settingsSel s).1) (collectStores s) { s with upd.dirty := false } else s := by
  simp only [storeSettings, Bool.and_eq_true, Bool.not_eq_true', decide_eq_true_eq, Option.isNone_iff_eq_none, and_assoc]

theorem execSettingsStore_eq (s : State) : exec .settingsStore s = .next (storeSettings s) := rfl

theorem execEditDrainEnd_eq (s : State) : exec .editDrainEnd s = .next (drainEnd s) := rfl

/-- Settles O45: each row in the cases of its guard, with what the state after it holds read off its program and its settings. -/
theorem editRows : Obligations.EditRows := by
  unfold Obligations.EditRows
  refine ⟨fun e s h => execEditBuildDone_of_not_building e h, fun e s h => ?_, fun e s h he => ?_, fun s ha ht => ?_,
    fun s h => execEditTick_of_not_due h, fun s he hd => ?_, fun s he hd => ?_, fun s h => ?_, fun s h => execEditStored_of_not_storing h,
    fun s h1 h2 h3 h4 h5 h6 => ?_, fun s h => ?_, fun s g x h hw => ?_⟩
  · obtain ⟨hend, hbank, hactive⟩ := buildDone_ends e s
    exact ⟨_, execEditBuildDone_of_building e h, hend, hbank, hactive, by simp only [buildDone_frame]⟩
  · exact ⟨_, execEditBuildDone_of_building e h, buildDone_of_ecc he⟩
  · obtain ⟨b, hp⟩ := switchBanks_prog s
    obtain ⟨-, hbits, hwords, -⟩ := switchBanks_image s
    refine ⟨_, execEditTick_of_due ha ht, ?_, ?_, ?_, bankOf_switchBanks s, ?_, ?_, hbits, hwords⟩ <;> rw [hp]
  · exact ⟨drainedEdit s, by rw [execEditDrainEnd_eq, drainEnd_of_drained he (draining_eq_false hd)], rfl, rfl, enabled_releaseFeature 0x22 0 _⟩
  · exact ⟨settleRemoved s, by rw [execEditDrainEnd_eq, drainEnd_of_draining (draining_eq_true hd)], he⟩
  · obtain ⟨t, ht, hp⟩ := execEditStored_of_storing h
    refine ⟨t, ht, ?_, storedForm s, ?_, rfl, rfl, rfl, rfl⟩ <;> rw [hp]
    · split <;> rfl
    · split <;> exact ⟨rfl, rfl⟩
  · obtain ⟨hupd, htwins⟩ := beginStoring_starts (g := !(settingsSel s).1) (x := collectStores s) (s := { s with upd.dirty := false }) h5
    refine ⟨_, (execSettingsStore_eq s).trans (congrArg _ ((storeSettings_eq s).trans (if_pos ⟨h1, h2, h3, h4, h5, h6⟩))), ?_⟩
    rw [hupd]
    exact ⟨rfl, rfl, rfl, rfl, htwins⟩
  · rw [execSettingsStore_eq, storeSettings_eq, if_neg]
    rintro ⟨h1, h2, h3, h4, h5, h6⟩
    simp [h1, h2, h3, h4, h5, h6] at h
  · have hupd := finishStoring_upd h hw
    refine ⟨?_, ?_, finishStoring_depot_of_trial h hw⟩ <;> rw [hupd]
    · cases g <;> rfl
    · cases g <;> exact ⟨rfl, rfl⟩

end Sys2Proof.Proofs
end

section
/-! The edit commands outside a pair (R266, R271): EDIT_ABORT takes back what waits for a record, too. -/

namespace Sys2Proof.Proofs

open Sys2Proof.Machine Sys2Proof.Safety

/-- A session on USB. -/
def usbSession : Session := { ep := .usb, idx := 4, major := 3, minor := 2, maxPkt := 8192 }
/-- A request of that session to the module. -/
def usbRequest : Req := { ep := .usb, major := 3, minor := 2, seq := 1, hops := [], ext := false, bcast := false, auth := false }
/-- How the request reaches the unit of the module. -/
def usbCtx : Ctx := { whom := .session .usb, kind := 1, idx := 0xFF, unit := none, basin := false }

/-- A module alone with an armed edit, and with an edit tick that waits for the next record. -/
def strayEditTick : State :=
  { State.reset with sys.boot := .ready, sys.usbVbus := true, host.sessions := [usbSession], prog.edit := .armed, red.items := [.editTick 0] }

theorem quiet_strayEditTick : Quiet strayEditTick usbSession usbRequest 0x0314 (.editAbort usbRequest) usbCtx where
  answers := by decide +kernel
  started := rfl
  session := by decide +kernel
  tagged := by decide +kernel
  counts := by decide +kernel
  fresh := rfl
  room := by decide
  version := by decide
  rights := by decide +kernel
  single := rfl
  place := by decide +kernel
  reached := ⟨rfl, by decide +kernel⟩
  known := by decide +kernel
  here := by decide +kernel
  idle := by decide +kernel
  calm := ⟨rfl, rfl⟩

/-- The items that wait for a record where a step has ended. -/
def itemsAfter : Host.Outcome State Fault Refusal → List RecItem
  | .next t => t.red.items
  | _ => []

/-- Refutes O29: EDIT_ABORT also strikes the edit ticks that wait for the next record (R271), and no hypothesis of its two clauses says
that none waits. Of the module alone in `strayEditTick` the clause of an armed edit says that the item stays; the run strikes it. -/
theorem not_editCommands : ¬ Obligations.EditCommands := by
  unfold Obligations.EditCommands
  rintro ⟨-, -, -, -, habort, -⟩
  have hclaim := habort usbRequest strayEditTick usbSession usbRequest 0x0314 usbCtx rfl quiet_strayEditTick (by decide +kernel)
  have hrun : itemsAfter (exec (.editAbort usbRequest) strayEditTick) = [] := by decide +kernel
  rw [hclaim] at hrun
  exact absurd hrun (by decide +kernel)

end Sys2Proof.Proofs
end

section
/-! The frames of the sync link (R372), and the settings that the old active partner hands over at a switchover (R390). -/

namespace Sys2Proof.Proofs

open Sys2Proof.Machine Sys2Proof.Safety

/-- A frame of the sync link that is heard is taken, and shows that the other partner is alive (R372, R379). -/
theorem syncRx_of_heard {mgmt : Bool} {h : SyncHdr} {s : State} (hs : HeardSync mgmt h s) (f : State → State) :
    syncRx mgmt h s f = f (alive s) := by
  have hpeer : peerAlive s = alive s := if_neg (by simp [hs.calm])
  have hcarried : ¬ (h.src = s.sys.partner ∨ (s.red.syncMgmt && !mgmt) = true) := by
    simpa [hs.other] using hs.carried
  simp only [syncRx, hs.pair, hs.runs, hs.up, hs.crc, if_neg hcarried, hpeer, Bool.not_true, Bool.false_eq_true, or_self, if_false]

/-- A shared setting that the old active partner hands over is taken by the new one as an item of a record is (R110, R390). -/
theorem execState_of_handedOver {h : SyncHdr} {d : ResyncData} {s : State} (hs : HeardSync false h s) (hr : s.red.role = 1)
    (hp : s.red.peerRole = 3) (hd : handedOver d = true) (hd' : sharedSettings d = true) :
    exec (.state h d) s = .next (followItem (.settings d) (alive s)) := by
  have hr' : (alive s).red.role = 1 := hr
  have hp' : (alive s).red.peerRole = 3 := hp
  have hsyncing : ¬ ((1 : BitVec 3) = 2) := by decide
  have hstep : ¬ ((1 : BitVec 3) = 3) := by decide
  change execState h d s = _
  simp only [execState, syncRx_of_heard hs, hr', hp', hd, hd', hsyncing, hstep, false_and, or_self, and_self, if_false, if_true]

/-- The active partner after a switchover, with the other one in step. -/
def switchedOver : State :=
  { State.reset with sys.boot := .ready, red.pairEn := true, red.syncUp := true, red.role := 1, red.peerRole := 3 }

/-- A frame of the other partner. -/
def peerHdr : SyncHdr := { crcOk := true, ver := 0x10, src := true, more := false, tick := 0 }

theorem heardSync_switchedOver : HeardSync false peerHdr switchedOver :=
  ⟨rfl, by decide, rfl, rfl, by decide, by decide, rfl⟩

/-- Refutes O55: the clause that a partner neither syncing nor in step leaves STATE frames alone forgets the active one whose other
partner is in step, which takes the shared settings that the old active partner hands over (R390, log entry 254): in `switchedOver` it
takes the redundancy settings. -/
theorem not_pairStep : ¬ Obligations.PairStep := by
  unfold Obligations.PairStep
  rintro ⟨-, -, -, -, -, -, -, -, -, -, -, -, -, -, -, -, hstate, -⟩
  have hleft := hstate peerHdr (.redundancy 0x40000000) switchedOver heardSync_switchedOver (by decide) (by decide)
  have htaken := execState_of_handedOver (d := .redundancy 0x40000000) heardSync_switchedOver rfl rfl rfl rfl
  have heq := Host.Outcome.next.inj (htaken.symm.trans hleft)
  have hwarm : true = false := congrArg (fun t : State => t.red.warmTake) heq
  exact Bool.noConfusion hwarm

end Sys2Proof.Proofs
end

section
/-! The way of an answer (R294, R298, R305): it goes into the reply cache and out as packets. And the requests that are refused before
any command runs (R293, R303, R304). -/

namespace Sys2Proof.Proofs

open Sys2Proof.Machine Sys2Proof.Safety Sys2Proof.Laws

/-- Settles O22: the way of the request of a quiet session. -/
theorem requestServed : Obligations.RequestServed := by
  unfold Obligations.RequestServed
  exact fun i s x r op c h q => exec_of_quiet h q

/-! ## Requests that are refused (R293, R303, R304) -/

/-- A request that is no broadcast is served, once start-up has ended, at the place that its path leads to, and is counted there. -/
theorem serveFrom12_of_ready {r : Req} {op : BitVec 16} {s : State} (whom : ReplyTo) (body : List Byte ⊕ Instr) (hb : r.bcast = false)
    (hs : s.sys.boot = .ready) :
    serveFrom12 whom r op body s =
      serveAt whom r op body (placeRequest r op.toNat s) (countAt r op (placeRequest r op.toNat s) s) := by
  have hspread : spreads r = false := by simp [spreads, hb]
  have hready (p : Place) : notReady r op.toNat p s = false := if_pos hs
  unfold serveFrom12
  cases placeRequest r op.toNat s with
  | nowhere st => rfl
  | unit kind idx u => simp only [hspread, hready, Bool.false_eq_true, if_false]
  | ring dst => simp only [hspread, hready, Bool.false_eq_true, if_false]
  | partner => simp only [hspread, hready, Bool.false_eq_true, if_false]

/-- An opcode that the unit does not implement is refused, and is not counted. -/
theorem serveAt_of_unknown {r : Req} {op : BitVec 16} {kind : Nat} {idx : Byte} {u : Option Nat} (whom : ReplyTo)
    (body : List Byte ⊕ Instr) (s : State) (hk : known r op.toNat kind = false) :
    serveAt whom r op body (.unit kind idx u) (countAt r op (.unit kind idx u) s) = (s, 0x09, [], none) := by
  simp [serveAt, countAt, hk, no]

/-- Parameters that spell no command are refused; the packet has passed step 13 and is counted (R604). -/
theorem serveAt_of_no_command {r : Req} {op : BitVec 16} {kind : Nat} {idx : Byte} {u : Option Nat} {body : List Byte ⊕ Instr}
    (whom : ReplyTo) (s : State) (hk : known r op.toNat kind = true) (hc : bodyCmd r op body = none) :
    serveAt whom r op body (.unit kind idx u) (countAt r op (.unit kind idx u) s) =
      ({ s with sys.cmdCount := satInc s.sys.cmdCount }, 0x01, [], none) := by
  simp [serveAt, countAt, hk, hc, no, countCmd]

/-- Settles O38: the request is served at its place, in the cases of step 12 and step 13 of R293. -/
theorem refusalsChangeNothing : Obligations.RefusalsChangeNothing := by
  unfold Obligations.RefusalsChangeNothing
  refine fun whom r op body s hb hs => ⟨fun st hp => ?_, fun kind idx u hp => ⟨fun hk => ?_, fun hk hc => ?_⟩⟩ <;>
    rw [serveFrom12_of_ready whom body hb hs, hp]
  · rfl
  · exact serveAt_of_unknown whom body s hk
  · exact serveAt_of_no_command whom s hk hc

/-! ## Reply packets (R280, R286, R298) -/

theorem chunks_ne_nil {α : Type} {l : List α} (k : Nat) (h : l ≠ []) : chunks k l.length l ≠ [] := by
  cases l with
  | nil => exact absurd rfl h
  | cons a l => simp [chunks]

/-- A reply is sent as one packet or more. -/
theorem sendReply_eq_transmits (r : Req) (op st : BitVec 16) (ps : List Byte) (cached : Bool) (s : State) :
    ∃ l : List (List Byte), l ≠ [] ∧ sendReply r op st ps cached s = l.foldl (fun t b => transmit r.ep r.tag b t) s := by
  unfold sendReply
  dsimp only
  rw [← List.foldl_map (g := fun t b => transmit r.ep r.tag b t)]
  refine ⟨_, ?_, rfl⟩
  rw [Ne, List.map_eq_nil_iff, List.zipIdx_eq_nil_iff]
  split
  · simp
  next h => exact chunks_ne_nil _ (by simpa using h)

theorem transmit_of_ne_spi {ep : Endpoint} (tag : Option (BitVec 32)) (b : List Byte) (s : State) (h : ep ≠ .spi) :
    transmit ep tag b s = emit (.packet ep tag (withTrailer ep b)) s := by
  cases ep with
  | spi => exact absurd rfl h
  | eth mac => rfl
  | udp addr port => rfl
  | usb => rfl

/-- Packets for a port other than SPI leave by the wire, the last one first in the list of what has been sent. -/
theorem foldl_transmit_sent {ep : Endpoint} (tag : Option (BitVec 32)) (l : List (List Byte)) (s : State) (h : ep ≠ .spi) :
    (l.foldl (fun t b => transmit ep tag b t) s).sent = (l.map fun b => .packet ep tag (withTrailer ep b)).reverse ++ s.sent := by
  induction l generalizing s with
  | nil => rfl
  | cons b l ih => rw [List.foldl_cons, ih, transmit_of_ne_spi tag b s h]; simp

/-- Packets for SPI wait in its outbound queue (R280). -/
theorem foldl_transmit_spi (tag : Option (BitVec 32)) (l : List (List Byte)) (s : State) :
    l.foldl (fun t b => transmit .spi tag b t) s =
      { s with host.spiOut := s.host.spiOut ++ l.map (withTrailer .spi) } := by
  induction l generalizing s with
  | nil => simp
  | cons b l ih => rw [List.foldl_cons, ih]; simp [transmit]

theorem sendReply_sessions (r : Req) (op st : BitVec 16) (ps : List Byte) (cached : Bool) (s : State) :
    (sendReply r op st ps cached s).host.sessions = s.host.sessions := by
  obtain ⟨l, -, h⟩ := sendReply_eq_transmits r op st ps cached s
  rw [h]
  exact foldl_keeps (·.host.sessions) _ (fun t b => transmit_sessions _ _ _ t) l s

theorem noteReset_host (ep : Endpoint) (op : BitVec 16) (s : State) :
    (noteReset ep op s).host = { s.host with resetLeft := (noteReset ep op s).host.resetLeft } := by
  unfold noteReset; split <;> rfl

/-! ## Sessions that end (R290, R291, R305, R527) -/

theorem endSession_host (ep : Endpoint) (s : State) :
    (endSession ep s).host = { s.host with sessions := s.host.sessions.filter (·.ep ≠ ep) } := by
  unfold endSession; dsimp only; split <;> rfl

theorem sessionOf_endSession_self (ep : Endpoint) (s : State) : sessionOf (endSession ep s) ep = none := by
  rw [sessionOf, endSession_host, List.find?_eq_none]
  intro x hx
  simpa using (List.mem_filter.mp hx).2

theorem sessionOf_endSession_ne {e ep : Endpoint} (s : State) (h : e ≠ ep) : sessionOf (endSession ep s) e = sessionOf s e := by
  rw [sessionOf, endSession_host, List.find?_filter, sessionOf]
  congr 1
  funext x
  by_cases hx : x.ep = e <;> simp [hx, h]

/-- With a session end its writes that wait for a place in the depot and a freeze of the log that it set. -/
theorem endSession_of_host_sent (ep : Endpoint) (s : State) (h : HostIf) (l : List Sent) :
    endSession ep { s with host := h, sent := l } =
    { s with host := { h with sessions := h.sessions.filter (·.ep ≠ ep) }, sent := l,
             depot.waiters := s.depot.waiters.filter fun w => (match w with | .host whom _ => decide (whom ≠ .session ep) | _ => true),
             log := if s.log.freezer = some ep then { s.log with frozen := false, freezer := none, freezeEnd := 0 } else s.log } := by
  unfold endSession
  dsimp only
  split <;> rfl

/-! ## Answers of a session -/

/-- A session that keeps an answer in its reply cache (R294). -/
def keepAnswer (seq : W32) (st : BitVec 16) (ps : List Byte) (x : Session) : Session :=
  { x with waiting := none, cache := x.cache.map fun e => if e.seq = seq then { e with reply := some (st, ps) } else e }

/-- The state in which the answer of a session stands in its cache and has gone out. -/
def answered (ep : Endpoint) (r : Req) (op st : BitVec 16) (ps : List Byte) (s : State) : State :=
  noteReset ep op (sendReply r op st ps false (updSession ep (keepAnswer r.seq st ps) s))

theorem conclude_of_session {ep : Endpoint} {s : State} {x : Session} (r : Req) (op st : BitVec 16) (ps : List Byte)
    (h : sessionOf s ep = some x) : conclude (.session ep) r op (s, st, ps, none) =
      if x.ending then endSession ep (answered ep r op st ps s) else answered ep r op st ps s := by
  simp only [conclude, answerTo, h]
  rfl

/-- An answer that goes out changes only the host interface and its outputs. -/
theorem answered_only (ep : Endpoint) (r : Req) (op st : BitVec 16) (ps : List Byte) (s : State) :
    ∃ h l, answered ep r op st ps s = { s with host := h, sent := l } := by
  have honly : Only.sent_host s (answered ep r op st ps s) := by simp [answered, updSession]
  generalize answered ep r op st ps s = t at honly
  refine ⟨t.host, t.sent, ?_⟩
  cases s; cases t
  simp_all

theorem sessionOf_answered (ep e : Endpoint) (r : Req) (op st : BitVec 16) (ps : List Byte) (s : State) :
    sessionOf (answered ep r op st ps s) e =
      (sessionOf s e).map fun x => if x.ep = ep then keepAnswer r.seq st ps x else x := by
  rw [← sessionOf_updSession ep e (keepAnswer r.seq st ps) s fun _ => rfl, sessionOf, answered, noteReset_host, sendReply_sessions,
    sessionOf]

theorem sessionOf_answered_ne {ep e : Endpoint} (r : Req) (op st : BitVec 16) (ps : List Byte) (s : State) (h : e ≠ ep) :
    sessionOf (answered ep r op st ps s) e = sessionOf s e := by
  rw [sessionOf_answered]
  cases hx : sessionOf s e with
  | none => rfl
  | some x => rw [Option.map_some, if_neg (ep_of_sessionOf hx ▸ h)]

/-- The reply leaves in packets of the request's port under its tag. -/
theorem answered_sent {ep : Endpoint} {r : Req} (op st : BitVec 16) (ps : List Byte) (s : State) (hr : r.ep = ep) (h : ep ≠ .spi) :
    ∃ l, l ≠ [] ∧ (answered ep r op st ps s).sent = l ++ s.sent ∧ ∀ p ∈ l, ∃ b, p = .packet ep r.tag b := by
  rw [answered]
  generalize hu : updSession ep (keepAnswer r.seq st ps) s = u
  have hsent : u.sent = s.sent := by rw [← hu]; rfl
  obtain ⟨l, hl, he⟩ := sendReply_eq_transmits r op st ps false u
  refine ⟨(l.map fun b => .packet ep r.tag (withTrailer ep b)).reverse, by simpa using hl, ?_, ?_⟩
  · simp only [noteReset_frame, he, hr, foldl_transmit_sent r.tag l u h, hsent]
  · intro p hp
    obtain ⟨b, -, rfl⟩ := List.mem_map.mp (List.mem_reverse.mp hp)
    exact ⟨_, rfl⟩

/-- The reply over SPI waits in the outbound queue (R280). -/
theorem answered_spiOut {r : Req} (op st : BitVec 16) (ps : List Byte) (s : State) (hr : r.ep = .spi) :
    (answered .spi r op st ps s).sent = s.sent ∧ s.host.spiOut.length < (answered .spi r op st ps s).host.spiOut.length := by
  rw [answered]
  generalize hu : updSession .spi (keepAnswer r.seq st ps) s = u
  have hsent : u.sent = s.sent := by rw [← hu]; rfl
  have hout : u.host.spiOut = s.host.spiOut := by rw [← hu]; rfl
  obtain ⟨l, hl, he⟩ := sendReply_eq_transmits r op st ps false u
  rw [hr, foldl_transmit_spi] at he
  have hpos := List.length_pos_iff.mpr hl
  refine ⟨by simp only [noteReset_frame, he, hsent], ?_⟩
  rw [noteReset_host, he]
  simp [hout, hpos]

/-- Settles O23: the answer goes into the cache and out, and the session then ends where BYE ends it. -/
theorem answerGoesOut : Obligations.AnswerGoesOut := by
  unfold Obligations.AnswerGoesOut
  intro ep r op st ps s x hx hr t
  have hep := ep_of_sessionOf hx
  obtain ⟨h, l, honly⟩ := answered_only ep r op st ps s
  have ht : t = if x.ending then endSession ep (answered ep r op st ps s) else answered ep r op st ps s :=
    conclude_of_session r op st ps hx
  have hother : ∀ e, e ≠ ep → sessionOf t e = sessionOf s e := by
    intro e he
    rw [ht, ← sessionOf_answered_ne r op st ps s he]
    split
    · exact sessionOf_endSession_ne _ he
    · rfl
  have hsent : t.sent = (answered ep r op st ps s).sent := by
    rw [ht]; split <;> simp only [endSession_frame]
  have hspi : t.host.spiOut = (answered ep r op st ps s).host.spiOut := by
    rw [ht]; split
    · rw [endSession_host]
    · rfl
  refine ⟨fun hend => ?_, fun hend => ?_, hother, fun he => ?_, fun he => ?_⟩
  · rw [hend, if_neg Bool.false_ne_true] at ht
    rw [ht]
    refine ⟨?_, by rw [honly]⟩
    rw [sessionOf_answered, hx, Option.map_some, if_pos hep]
    exact ⟨_, rfl, rfl, rfl, rfl⟩
  · rw [hend, if_pos rfl] at ht
    rw [ht]
    refine ⟨sessionOf_endSession_self ep _, ?_⟩
    rw [honly, endSession_of_host_sent] <;> rfl
  · rw [hsent]
    exact answered_sent op st ps s hr he
  · subst he
    rw [hsent, hspi]
    exact answered_spiOut op st ps s hr

end Sys2Proof.Proofs
end

section
/-! HELLO (R290, R299): it opens a session at the module that receives it, or is refused. -/

namespace Sys2Proof.Proofs

open Sys2Proof.Machine Sys2Proof.Safety Sys2Proof.Laws

/-- A HELLO to the root or by the path of this module is for the receiving module (R287, R290). -/
theorem helloHere_of_path {r : Req} {s : State} (hb : r.bcast = false)
    (hp : (r.hops = [] ∧ r.ext = false) ∨ (r.hops ≠ [] ∧ ∃ idx, placeRequest r 1 s = .unit 1 idx none)) : helloHere r s = true := by
  have hspread : spreads r = false := by simp [spreads, hb]
  rcases hp with ⟨hroot, hext⟩ | ⟨hhops, idx, hplace⟩
  · simp [helloHere, hspread, hroot, hext]
  · simp [helloHere, hspread, hhops, hplace]

/-- A HELLO that passes the steps 4 to 7 of R293, with or without a session at its port, is answered at once. -/
theorem request_hello {r : Req} {body : List Byte ⊕ Instr} {s : State} (ha : portAnswers s r.ep = true)
    (hx : ∀ x, sessionOf s r.ep = some x → x.cache.find? (·.seq = r.seq) = none ∧ seqPasses x r.seq = false ∧
      (guardedSession x = true → r.auth = true ∧ inWindow x r.seq = true)) :
    request r 1 body s = helloNow r body s := by
  unfold request
  rw [ha]
  cases hs : sessionOf s r.ep with
  | none => rfl
  | some x =>
    obtain ⟨hcache, hseq, hguard⟩ := hx x hs
    have hauth : ¬ (guardedSession x = true ∧ (!r.auth) = true) := fun ⟨hg, hn⟩ => by simp [hguard hg] at hn
    have hwin : ¬ (guardedSession x = true ∧ (!inWindow x r.seq) = true) := fun ⟨hg, hn⟩ => by simp [hguard hg] at hn
    simp only [Bool.not_true, Bool.false_eq_true, if_false, if_neg hauth, passSeq, hseq, hcache, if_neg hwin]
    rfl

/-- A HELLO without a fault opens a session. -/
theorem helloNow_of_no_fault {r : Req} {n : Byte} {m : BitVec 16} {l : List VerRange} {s : State} (hh : helloHere r s = true)
    (hf : helloFault r (some (.hello r n m l)) s = none) :
    helloNow r (.inr (.hello r n m l)) s = openSession r m l (paramsOf (.hello r n m l)) s := by
  simp only [helloNow, hh, bodyCmd, hf, Bool.not_true, Bool.false_eq_true, if_false]
  rfl

/-- A HELLO with a fault is refused with its status. -/
theorem helloNow_of_fault {r : Req} {n : Byte} {m : BitVec 16} {l : List VerRange} {s : State} {st : BitVec 16}
    (hh : helloHere r s = true) (hf : helloFault r (some (.hello r n m l)) s = some st) :
    helloNow r (.inr (.hello r n m l)) s = refuseHello r st s := by
  simp only [helloNow, hh, bodyCmd, hf, Bool.not_true, Bool.false_eq_true, if_false]

theorem helloFault_of_length {r : Req} {n : Byte} (m : BitVec 16) {l : List VerRange} (s : State) (hn : n.toNat ≠ l.length) :
    helloFault r (some (.hello r n m l)) s = some 0x01 := if_pos hn

theorem helloFault_of_short {r : Req} {n : Byte} {m : BitVec 16} {l : List VerRange} (s : State) (hn : n.toNat = l.length)
    (hm : m.toNat < 512) : helloFault r (some (.hello r n m l)) s = some 0x10 := by
  simp [helloFault, hn, hm]

theorem helloFault_of_full {r : Req} {n : Byte} {m : BitVec 16} {l : List VerRange} {s : State} (hn : n.toNat = l.length)
    (hm : 512 ≤ m.toNat) (hk : freeIndex r.ep s = none) : helloFault r (some (.hello r n m l)) s = some 0x11 := by
  simp [helloFault, hn, Nat.not_lt.mpr hm, hk]

theorem helloFault_of_free {r : Req} {n : Byte} {m : BitVec 16} {l : List VerRange} {s : State} {k : Nat} (hn : n.toNat = l.length)
    (hm : 512 ≤ m.toNat) (hk : freeIndex r.ep s = some k) : helloFault r (some (.hello r n m l)) s = none := by
  simp [helloFault, hn, Nat.not_lt.mpr hm, hk]

/-- A refused HELLO leaves a port without a session as it is. -/
theorem refuseHello_of_none {r : Req} {s : State} (st : BitVec 16) (h : sessionOf s r.ep = none) :
    refuseHello r st s = sendReply r 1 st [] false s := by
  simp only [refuseHello, h]

/-- Settles O24: the HELLO is answered at once, in the cases of its faults. -/
theorem helloOpensSession : Obligations.HelloOpensSession := by
  unfold Obligations.HelloOpensSession
  intro r n m l s ha hb hp hx
  have hh := helloHere_of_path hb hp
  have hrun : exec (.hello r n m l) s = .next (helloNow r (.inr (.hello r n m l)) s) := congrArg _ (request_hello ha hx)
  rw [hrun]
  refine ⟨fun k hn hm hk => ?_, fun hs hn => ?_, fun hs hn hm => ?_, fun hs hn hm hk => ?_⟩
  · have henc : (endSession r.ep s).upd.encReq = s.upd.encReq := by simp only [endSession_frame]
    have hmgmt : (negotiate protocolRanges l).isNone = decide (negotiate protocolRanges l = none) := by
      cases negotiate protocolRanges l <;> rfl
    rw [helloNow_of_no_fault hh (helloFault_of_free hn hm hk)]
    simp only [openSession, hk, henc, hmgmt, decide_eq_true_eq, Option.getD_some]
  · rw [helloNow_of_fault hh (helloFault_of_length m s hn), refuseHello_of_none 0x01 hs]
  · rw [helloNow_of_fault hh (helloFault_of_short s hn hm), refuseHello_of_none 0x10 hs]
  · rw [helloNow_of_fault hh (helloFault_of_full hn hm hk), refuseHello_of_none 0x11 hs]

end Sys2Proof.Proofs
end

section
/-! The session commands (R305, R542 to R546). -/

namespace Sys2Proof.Proofs

open Sys2Proof.Machine Sys2Proof.Safety Sys2Proof.Laws

/-! ## The session that a command came by -/

theorem ctxSession_of_session {c : Ctx} {ep : Endpoint} (t : State) (h : c.whom = .session ep) : ctxSession c t = sessionOf t ep := by
  simp only [ctxSession, h]

theorem exists_sessionOf_updSession {ep e : Endpoint} {f : Session → Session} {s : State} (hf : ∀ x, (f x).ep = x.ep)
    (h : ∃ x, sessionOf s e = some x) : ∃ y, sessionOf (updSession ep f s) e = some y := by
  obtain ⟨x, hx⟩ := h
  exact ⟨_, by rw [sessionOf_updSession ep e f s hf, hx, Option.map_some]⟩

/-- The session of a quiet request is still open when the command runs (R294). -/
theorem sessionOf_taken {s : State} {x : Session} {r : Req} {op : BitVec 16} {i : Instr} {c : Ctx} (q : Quiet s x r op i c) :
    ∃ y, sessionOf (taken r op i x s) r.ep = some y := by
  have hadmitted : ∃ y, sessionOf (admitTo r op i x s) r.ep = some y := exists_sessionOf_updSession (fun _ => rfl) ⟨x, q.session⟩
  exact exists_sessionOf_updSession (s := admitTo r op i x s) (fun _ => rfl) hadmitted

/-- What a command does at its unit is what the module answers to it (R293); it came by a session of its own port, under its own SEQ. -/
theorem serves_of_session {i : Instr} {r : Req} {op : BitVec 16} {P : Ctx → State → Prop} {f : Ctx → State → Ans}
    (hi : requestOf i = some (r, op))
    (h : ∀ c t y, c.whom = .session r.ep → ctxSession c t = some y → sessionOf t r.ep = some y → P c t →
      runCmd c r.seq i t = f c t) :
    Serves i P f := by
  intro s x r' op' c hr q hP
  obtain ⟨rfl, rfl⟩ : r = r' ∧ op = op' := by simpa using hi.symm.trans hr
  obtain ⟨y, hy⟩ := sessionOf_taken q
  have hw := q.reached.1
  rw [exec_of_quiet hr q, h c _ y hw ((ctxSession_of_session _ hw).trans hy) hy hP]

theorem ofNat_b01 (w : Nat) (b : Bool) : BitVec.ofNat w (b01 b) = if b then 1 else 0 := by
  cases b <;> rfl

/-! ## The handshake (R542 to R544) -/

/-- A draw of free values leaves the depot, and what its enrolment slots hold. -/
theorem depotByte_draw (t : State) (n a : Nat) : depotByte { t with free := n } a = depotByte t a := rfl

theorem depotBytes_draw (t : State) (n a k : Nat) : depotBytes { t with free := n } a k = depotBytes t a k := by
  induction k generalizing a with
  | zero => rfl
  | succ k ih => rw [depotBytes, depotBytes, ih, depotByte_draw]

theorem slotOf_draw (t : State) (n key : Nat) : slotOf { t with free := n } key = slotOf t key := by
  have huse : slotInUse { t with free := n } = slotInUse t := by
    funext i
    unfold slotInUse
    rw [depotByte_draw t n, depotBytes_draw t n, depotBytes_draw t n, depotBytes_draw t n]
  have hkey : slotKey { t with free := n } = slotKey t := by
    funext i
    unfold slotKey
    rw [depotByte_draw t n, depotBytes_draw t n]
  unfold slotOf
  rw [huse, hkey]

/-- The slot of the challenged key proves the session where both halves of the signature verify under its keys (R536). -/
theorem provenSlot_of_valid {t : State} {key i : Nat} {th2 sig : List Byte} (hl : sig.length = 3373) (hs : slotOf t key = some i)
    (hv : (edVerify (slotKeys t i).1 th2 (sig.take 64) && dsaVerify (slotKeys t i).2 th2 (sig.drop 64)) = true) :
    provenSlot t key th2 sig = some i := by
  simpa [provenSlot, hs, dualVerify, hl] using hv

theorem provenSlot_of_invalid {t : State} {key i : Nat} {th2 sig : List Byte} (hl : sig.length = 3373)
    (h : slotOf t key = none ∨ slotOf t key = some i ∧
      (edVerify (slotKeys t i).1 th2 (sig.take 64) && dsaVerify (slotKeys t i).2 th2 (sig.drop 64)) = false) :
    provenSlot t key th2 sig = none := by
  rcases h with hs | ⟨hs, hv⟩
  · simp [provenSlot, hs]
  · simpa [provenSlot, hs, dualVerify, hl] using hv

section
variable {c : Ctx} {t : State} {y : Session} (hy : ctxSession c t = some y)
include hy

/-- AUTH_PROVE with a valid proof makes the session a proved one, under the keys that the handshake gives (R542, R546). -/
theorem cmdAuthProve_of_valid {sig : List Byte} {ch : Challenge} {i : Nat} (hl : sig.length = 3373) (hc : y.chal = some ch)
    (hp : provenSlot t ch.key.toNat (sha512 (ascii "TLH-6424 S2" ++ ch.th1 ++ ch.sig)) sig = some i) :
    cmdAuthProve c sig t = (updSession y.ep (fun x => { x with
      proved := true, enc := t.upd.encReq && decide (y.ep ≠ .usb), keyIdx := BitVec.ofNat 16 (slotKey t i).1,
      role := BitVec.ofNat 8 (slotKey t i).2, chal := none,
      keys := hkdfSha256 ch.secret ch.nonce (ascii "TLH-6424 keys" ++ sha512 (ascii "TLH-6424 S2" ++ ch.th1 ++ ch.sig)) }) t,
      0, [], none) := by
  simp only [cmdAuthProve, hy, hl, hc, hp, ne_eq, not_true_eq_false, if_false, ok]

/-- A failed one counts and logs the failure (R544). -/
theorem cmdAuthProve_of_invalid {sig : List Byte} {ch : Challenge} (hl : sig.length = 3373) (hc : y.chal = some ch)
    (hp : provenSlot t ch.key.toNat (sha512 (ascii "TLH-6424 S2" ++ ch.th1 ++ ch.sig)) sig = none) :
    cmdAuthProve c sig t = (authFailed t, 0x04, [], none) := by
  simp only [cmdAuthProve, hy, hl, hc, hp, ne_eq, not_true_eq_false, if_false, no]

/-! ## BYE and SESSION_INFO (R305) -/

/-- BYE of the own session ends it after its reply. -/
theorem cmdBye_own {n : Byte} (hn : n = 0xFF ∨ n = y.idx) :
    cmdBye c n t = (updSession y.ep (fun x => { x with ending := true }) t, 0, [], none) := by
  simp only [cmdBye, hy, if_pos hn, ok]

/-- BYE of another session ends it at once. -/
theorem cmdBye_other {n : Byte} {z : Session} (h1 : n ≠ 0xFF) (h2 : n ≠ y.idx) (hz : t.host.sessions.find? (·.idx = n) = some z) :
    cmdBye c n t = (endSession z.ep t, 0, [], none) := by
  simp only [cmdBye, hy, h1, h2, or_self, if_false, hz, ok]

theorem cmdSessionInfo_of_session : cmdSessionInfo c t =
    (t, 0, [y.major, y.minor] ++ beBytes 2 y.maxPkt.toNat ++ [y.idx, if y.proved then 1 else 0] ++ beBytes 4 (y.high.getD 0).toNat ++
      [BitVec.ofNat 8 y.cache.length, BitVec.ofNat 8 y.reasm.length] ++ beBytes 4 y.dis1.toNat ++ beBytes 4 y.dis5.toNat ++
      beBytes 4 y.dis7.toNat ++ beBytes 4 y.disQ.toNat, none) := by
  simp only [cmdSessionInfo, hy, ofNat_b01, ok]

end

/-- Settles O25: what each command answers by its session, in the cases of its row. -/
theorem sessionCommands : Obligations.SessionCommands := by
  unfold Obligations.SessionCommands
  refine ⟨fun r key share ek z slot y => ?_, fun r sig ch y i hl => ⟨?_, ?_⟩, fun r n y z => ⟨?_, ?_⟩, fun r y => ?_⟩ <;>
    refine serves_of_session rfl fun c t x _ hc hx hP => ?_
  · obtain ⟨hy, hproved, hshare, hek, hlock, hslot, hz⟩ := hP
    obtain rfl : x = y := Option.some.inj (hx.symm.trans hy)
    change cmdAuthChallenge c key share ek t = _
    simp only [cmdAuthChallenge, hc, hshare, hek, hproved, hlock, slotOf_draw, hslot, hz, ne_eq, not_true_eq_false, or_self, if_false,
      Bool.false_eq_true, ok]
  · obtain ⟨hy, hch, hs, hv⟩ := hP
    obtain rfl : x = y := Option.some.inj (hx.symm.trans hy)
    exact cmdAuthProve_of_valid hc hl hch (provenSlot_of_valid hl hs hv)
  · obtain ⟨hy, hch, hs⟩ := hP
    obtain rfl : x = y := Option.some.inj (hx.symm.trans hy)
    exact cmdAuthProve_of_invalid hc hl hch (provenSlot_of_invalid hl hs)
  · obtain ⟨hy, hn⟩ := hP
    obtain rfl : x = y := Option.some.inj (hx.symm.trans hy)
    exact cmdBye_own hc hn
  · obtain ⟨hy, h1, h2, hz⟩ := hP
    obtain rfl : x = y := Option.some.inj (hx.symm.trans hy)
    exact cmdBye_other hc h1 h2 hz
  · obtain rfl : x = y := Option.some.inj (hx.symm.trans hP)
    exact cmdSessionInfo_of_session hc

end Sys2Proof.Proofs
end

section
/-! The commands of the units, the program banks and the time (R306, R308, R309, R311). -/

namespace Sys2Proof.Proofs

open Sys2Proof.Machine Sys2Proof.Safety

/-! ## Units (R304, R306, R362, R607) -/

/-- UNIT_STATUS of the module, and of one of its internal units (R607). -/
theorem cmdUnitStatus_module {c : Ctx} (t : State) (h : c.unit = none) : cmdUnitStatus c t =
    ({ t with host.highSev := 0 }, 0, [BitVec.ofNat 8 (worstHealth t), BitVec.ofNat 8 (modeCode t.tsk.mode),
      t.red.role.setWidth 8, 0] ++ beBytes 4 (bitMap 6 fun u => health t u ≠ 0) ++ [t.host.highSev], none) := by
  simp only [cmdUnitStatus, h, ok]

theorem cmdUnitStatus_unit {c : Ctx} {u : Nat} (t : State) (h : c.unit = some u) : cmdUnitStatus c t =
    ({ t with host.highSev := 0 }, 0, [BitVec.ofNat 8 (health t u), BitVec.ofNat 8 (modeCode t.tsk.mode),
      t.red.role.setWidth 8, 0] ++ beBytes 4 (unitStatus t u) ++ [t.host.highSev], none) := by
  simp only [cmdUnitStatus, h, ok]

/-- START_MODE stores 0 or 1. -/
theorem cmdStartMode_of_le {m : Byte} (t : State) (h : m.toNat ≤ 1) :
    cmdStartMode m t = ({ t with sys.startMode := m, upd.dirty := true }, 0, [m], none) := by
  have hm : m = 0 ∨ m = 1 := by bv_omega
  exact if_pos hm

theorem cmdReset_of_ne {k : Byte} (t : State) (h : k ≠ 0) : cmdReset k t = (t, 0x10, [], none) := if_neg h

/-- Settles O26: what each command answers at its unit, by the branches of its row. -/
theorem unitCommands : Obligations.UnitCommands := by
  unfold Obligations.UnitCommands
  refine ⟨fun r => ?_, fun r => ?_, fun r u => ?_, fun r => ?_, fun r m hm => ?_, fun r => ?_, fun r => ?_, fun r k hk => ?_⟩ <;>
    refine serves_of_runCmd fun c seq t hP => ?_
  · rfl
  · exact cmdUnitStatus_module t hP
  · exact cmdUnitStatus_unit t hP
  · rfl
  · exact cmdStartMode_of_le t hm
  · rfl
  · rfl
  · exact cmdReset_of_ne t hk

/-! ## Program loads and banks (R247, R308, R309) -/

theorem cmdPrgLoadOpen_of_stop {t : State} (h : t.tsk.mode = .stop) :
    cmdPrgLoadOpen t = ({ t with prog.loadOpen := true, prog.loadBuf := [] }, 0, [], none) := if_neg (not_not_intro h)

theorem cmdPrgLoadOpen_of_running {t : State} (h : t.tsk.mode ≠ .stop) : cmdPrgLoadOpen t = (t, 0x301, [], none) := if_pos h

/-- A block of 512 to 8,192 bytes that lies within the limit is taken while the load is open (R308). -/
theorem blockStatus_of_open {limit : Nat} {o : W32} {d : List Byte} (h1 : 512 ≤ d.length) (h2 : d.length ≤ 8192)
    (h3 : o.toNat + d.length ≤ limit) : blockStatus limit true o d = 0 := by
  have hlen : ¬ (d.length < 512 ∨ 8192 < d.length) := by omega
  rw [blockStatus, if_neg hlen, if_neg (Nat.not_lt.mpr h3), if_pos rfl]

theorem cmdPrgLoadBlock_of_open {o : W32} {d : List Byte} {t : State} (h1 : 512 ≤ d.length) (h2 : d.length ≤ 8192)
    (h3 : o.toNat + d.length ≤ 8388608) (ho : t.prog.loadOpen = true) : cmdPrgLoadBlock o d t =
      ({ t with prog.loadBuf := Tab.setRange none t.prog.loadBuf o.toNat (d.map some) }, 0, [], none) := by
  rw [cmdPrgLoadBlock, ho, blockStatus_of_open h1 h2 h3]
  rfl

/-- PRG_LOAD_CLOSE of an image that passes its checks loads it and begins its store (R309). -/
theorem loadClose_of_loaded {t : State} {f : Framed} {l : Loaded} (hm : t.tsk.mode = .stop) (ho : t.prog.loadOpen = true)
    (hf : takeFramed true 0x5E7D 8388608 t.prog.loadBuf = .inr f) (hl : loadImage (decide (t.red.role = 0)) f.recs = .inr l) :
    loadClose t = (0, startStore (installProgram l { t with prog.loadOpen := false, prog.loadBuf := [] })) := by
  simp only [loadClose, hm, ho, hf, hl, ne_eq, not_true_eq_false, Bool.not_true, Bool.false_eq_true, if_false]

theorem cmdPrgLoadClose_of_loaded {t u : State} (h : loadClose t = (0, u)) :
    cmdPrgLoadClose t = (u, 0, beBytes 8 (activeBank u).digest.toNat, none) := by
  rw [cmdPrgLoadClose, h]
  rfl

theorem activeBank_eq_bankOf (t : State) : activeBank t = bankOf t t.prog.active := rfl

theorem shadowBank_eq_bankOf (t : State) : shadowBank t = bankOf t !t.prog.active := by
  unfold shadowBank bankOf
  cases t.prog.active <;> rfl

theorem cmdPrgInfo_eq (t : State) : cmdPrgInfo t =
    (t, 0, beBytes 4 (prgStatus t) ++ beBytes 4 t.prog.gen.toNat ++ beBytes 8 (bankOf t t.prog.active).digest.toNat ++
      beBytes 8 (bankOf t !t.prog.active).digest.toNat ++
      beBytes 8 (((Machine.storedPrg t).map fun (p : Stored) => p.bank.digest).getD 0).toNat, none) := by
  unfold cmdPrgInfo
  rw [shadowBank_eq_bankOf]
  cases storedPrg t <;> rfl

/-- PRG_READ of items that lie within their part, of a bank that is held (R308). -/
theorem cmdPrgRead_of_held {b q : Byte} {f : W24} {n : BitVec 16} {t : State} (hb : b.toNat ≤ 1) (hq : q.toNat ≤ 5) (hn : n ≠ 0)
    (hf : f.toNat + n.toNat ≤ (partShape q.toNat).1) (hs : n.toNat * (partShape q.toNat).2 ≤ 8192) (hh : b = 0 ∨ t.prog.held = true) :
    cmdPrgRead b q f n t = (t, 0, (List.range n.toNat).flatMap fun k =>
      bankItem (bankOf t (if b = 0 then t.prog.active else !t.prog.active)) q.toNat (f.toNat + k), none) := by
  have hrange : ¬ (b.toNat > 1 ∨ q.toNat > 5 ∨ n = 0 ∨ (partShape q.toNat).1 < f.toNat + n.toNat ∨
      8192 < n.toNat * (partShape q.toNat).2) := by
    rintro (h | h | h | h | h)
    · omega
    · omega
    · exact hn h
    · omega
    · omega
  have hheld : ¬ (b = 1 ∧ (!t.prog.held) = true) := by
    rintro ⟨rfl, h⟩
    rcases hh with h0 | h0
    · exact absurd h0 (by decide)
    · simp [h0] at h
  have hbank : (if b = 0 then activeBank t else shadowBank t) = bankOf t (if b = 0 then t.prog.active else !t.prog.active) := by
    rw [activeBank_eq_bankOf, shadowBank_eq_bankOf, apply_ite (bankOf t)]
  simp only [cmdPrgRead, if_neg hrange, if_neg hheld, hbank, ok]

/-- Settles O28: what each command answers at its unit, in the cases of its row. -/
theorem programCommands : Obligations.ProgramCommands := by
  unfold Obligations.ProgramCommands
  refine ⟨fun r => ?_, fun r => ?_, fun r o d h1 h2 h3 => ?_, fun r f l => ?_, fun r => ?_, fun r b q f n hb hq hn hf hs => ?_⟩ <;>
    refine serves_of_runCmd fun c seq t hP => ?_
  · exact cmdPrgLoadOpen_of_stop hP
  · exact cmdPrgLoadOpen_of_running hP
  · exact cmdPrgLoadBlock_of_open h1 h2 h3 hP
  · obtain ⟨hm, ho, hf, hl⟩ := hP
    exact cmdPrgLoadClose_of_loaded (loadClose_of_loaded hm ho hf hl)
  · exact cmdPrgInfo_eq t
  · exact cmdPrgRead_of_held hb hq hn hf hs hP

/-! ## Time (R311, R476 to R482) -/

theorem cmdTimeGet_eq (c : Ctx) (t : State) : cmdTimeGet c t =
    (t, 0, beBytes 4 (t.bkd.rtc.toNat / 32768) ++ beBytes 2 (t.bkd.rtc.toNat % 32768) ++ beBytes 6 t.bkd.rtc.toNat ++
      [if t.bkd.osf then 1 else 0] ++ tickBytes c t t.tsk.tick ++ beBytes 4 (tbStatus t), none) := by
  simp only [cmdTimeGet, ofNat_b01, ok]
  rfl

theorem cmdTimeSet_binary {sec : W32} {frac : BitVec 16} (t : State) (h : frac.getLsbD 15 = false) :
    cmdTimeSet (.binary sec frac) t =
      (rtcCommitOp { t with bkd.setSec := sec, bkd.setFrac := frac.setWidth 15 }, 0, [], none) := if_neg (by rw [h]; exact Bool.false_ne_true)

section
variable {y : BitVec 16} {m d h mi sec : Byte}

/-- A possible date sets the RTC, an impossible one is refused (R479). -/
theorem cmdTimeSet_calendar (t : State) (hd : dateOk y.toNat m.toNat d.toNat h.toNat mi.toNat sec.toNat = true) :
    cmdTimeSet (.calendar y m d h mi sec) t = (rtcCommitOp { t with
      bkd.setFrac := 0, bkd.setSec := BitVec.ofNat 32 (calendarSeconds y.toNat m.toNat d.toNat h.toNat mi.toNat sec.toNat) },
      0, [], none) := if_pos hd

theorem cmdTimeSet_impossible (t : State) (hd : dateOk y.toNat m.toNat d.toNat h.toNat mi.toNat sec.toNat = false) :
    cmdTimeSet (.calendar y m d h mi sec) t = (t, 0x501, [], none) := if_neg (by simp [hd])

end

/-- WAKE_SET loads the wake timer and returns the seconds of the first firing (R481). -/
theorem cmdWakeSet_of_ne {n : W24} (t : State) (h : n ≠ 0) : cmdWakeSet n t =
    ({ t with bkd.wakeN := n, bkd.wakeLeft := wakeFull n }, 0, beBytes 4 ((t.bkd.rtc.toNat + wakeFull n) / 32768), none) := if_neg h

/-- Settles O31: what each command answers at its unit, by the form of its parameters. -/
theorem timeCommands : Obligations.TimeCommands := by
  unfold Obligations.TimeCommands
  refine ⟨fun r => ?_, fun r sec frac hf => ?_, fun r y m d h mi sec hd => ?_, fun r y m d h mi sec hd => ?_, fun r n hn => ?_,
    fun r => ?_, fun r => ?_⟩ <;> refine serves_of_runCmd fun c seq t _ => ?_
  · exact cmdTimeGet_eq c t
  · exact cmdTimeSet_binary t hf
  · exact cmdTimeSet_calendar t hd
  · exact cmdTimeSet_impossible t hd
  · exact cmdWakeSet_of_ne t hn
  · rfl
  · rfl

end Sys2Proof.Proofs
end

section
/-! The commands of the depot, the log, the pair and the identity (R312, R313, R315, R320, R321). -/

namespace Sys2Proof.Proofs

open Sys2Proof.Machine Sys2Proof.Safety

/-! ## Depot (R312, R505 to R508) -/

/-- A count of 1 to m at a place that ends by `limit` is within range. -/
theorem not_out_of_range {n : Byte} {m p limit : Nat} (h1 : 1 ≤ n.toNat) (h2 : n.toNat ≤ m) (h3 : p + n.toNat ≤ limit) :
    ¬ (n = 0 ∨ m < n.toNat ∨ limit < p + n.toNat) := by
  rintro (rfl | h | h)
  · exact absurd h1 (by decide)
  · omega
  · omega

theorem cmdDepotRead_of_ready {p : BitVec 16} {n : Byte} {t : State} (h1 : 1 ≤ n.toNat) (h2 : n.toNat ≤ 31)
    (h3 : p.toNat + n.toNat ≤ 1024) (hs : t.depot.scan = false) :
    cmdDepotRead p n t =
      (((List.range n.toNat).map (p.toNat + ·)).foldl (fun t q => noteRead q t) t, 0,
       ((List.range n.toNat).map (p.toNat + ·)).flatMap fun q => (pageRead t q).1 ++ beBytes 4 (pageRead t q).2.toNat, none) := by
  simp only [cmdDepotRead, if_neg (not_out_of_range h1 h2 h3), hs, Bool.false_eq_true, if_false, ok]

/-- DEPOT_WRITE of a host page takes its place in the queue, or waits for one (R505, R507). -/
theorem cmdDepotWrite_of_host_page {c : Ctx} {seq : W32} {p : BitVec 16} {d : List Byte} {t : State} (hd : d.length = 256)
    (h1 : 384 ≤ p.toNat) (h2 : p.toNat ≤ 511) (hs : t.depot.scan = false) (hf : t.depot.pfail = false) :
    cmdDepotWrite c seq p d t = if depotRoom t p.toNat (.host c.whom seq) = true then
      (depotEnter p.toNat d (.host c.whom seq) t, 0, [], some (.depot p.toNat))
    else ({ t with depot.waiters := t.depot.waiters ++ [.host c.whom seq] }, 0, [], some (.depotPlace p.toNat d)) := by
  have hpage : ¬ (p.toNat < 384 ∨ 511 < p.toNat) := by omega
  simp only [cmdDepotWrite, hd, if_neg hpage, hs, hf, ne_eq, not_true_eq_false, Bool.false_eq_true, or_self, if_false, later]

theorem cmdDepotStatus_of_ready {t : State} (hs : t.depot.scan = false) : cmdDepotStatus t =
    (t, 0, [if t.depot.busy then 1 else 0] ++ beBytes 2 t.depot.patrol.toNat ++ beBytes 4 t.depot.refreshed.toNat ++
      beBytes 4 t.depot.corrected.toNat ++ beBytes 4 t.depot.uncorr.toNat, none) := by
  simp only [cmdDepotStatus, hs, Bool.false_eq_true, if_false, ofNat_b01, ok]

/-! ## Accession log (R313, R321, R526, R527) -/

theorem cmdLogRead_of_count {f : W32} {n v : Byte} {t : State} {l : List Acc} (h1 : 1 ≤ n.toNat) (h2 : n.toNat ≤ 127)
    (hl : logRecords t f n.toNat v.toNat = l) :
    cmdLogRead f n v t = (t, 0, beBytes 4 ((l.getLast?.map fun a => a.index + 1).getD t.log.next).toNat ++
      [BitVec.ofNat 8 l.length, 0, 0, 0] ++ l.flatMap accBytes, none) := by
  have hcount : ¬ (n = 0 ∨ 127 < n.toNat) := by
    rintro (rfl | h)
    · exact absurd h1 (by decide)
    · omega
  simp only [cmdLogRead, if_neg hcount, hl, ok]
  cases l.getLast? <;> rfl

/-- LOG_FREEZE 1 stops the flush for 60 s, in the name of the session (R527). -/
theorem cmdLogFreeze_one {c : Ctx} {ep : Endpoint} (t : State) (h : c.whom = .session ep) : cmdLogFreeze c 1 t =
    ({ t with log.frozen := true, log.freezer := some ep, log.freezeEnd := t.sys.upTicks + 6000000 }, 0, [60], none) := by
  rw [cmdLogFreeze, h]
  rfl

/-- NOTICE_SUBSCRIBE sets the lowest severity of the session's notices, or ends them (R321). -/
theorem cmdNoticeSubscribe_of_severity {c : Ctx} {v : Byte} {t : State} {x : Session} (hc : ctxSession c t = some x) (hv : v.toNat ≤ 7) :
    cmdNoticeSubscribe c v t = (updSession x.ep (fun y => { y with notice := some v, noticeNo := 0 }) t, 0, [], none) := by
  have hne : v ≠ 0xFF := by rintro rfl; exact absurd hv (by decide)
  simp only [cmdNoticeSubscribe, hc, if_neg hne, if_pos hv, ok]

theorem cmdNoticeSubscribe_none {c : Ctx} {t : State} {x : Session} (hc : ctxSession c t = some x) :
    cmdNoticeSubscribe c 0xFF t = (updSession x.ep (fun y => { y with notice := none }) t, 0, [], none) := by
  simp only [cmdNoticeSubscribe, hc, if_true, ok]

/-- Settles O32: what each command answers at its unit, in the cases of its row. -/
theorem depotAndLogCommands : Obligations.DepotAndLogCommands := by
  unfold Obligations.DepotAndLogCommands
  refine ⟨fun r p n h1 h2 h3 => ?_, fun r p d hd h1 h2 => ⟨?_, ?_⟩, fun r => ?_, fun r f n v h1 h2 => ?_, fun r => ?_, fun r => ?_,
    fun r => ?_, fun r v hv => ?_, fun r => ?_⟩ <;> refine serves_of_session rfl fun c t x hw hc hx hP => ?_
  · exact cmdDepotRead_of_ready h1 h2 h3 hP
  · obtain ⟨hs, hf, hroom⟩ := hP
    exact (cmdDepotWrite_of_host_page hd h1 h2 hs hf).trans (if_pos hroom)
  · obtain ⟨hs, hf, hroom⟩ := hP
    exact (cmdDepotWrite_of_host_page hd h1 h2 hs hf).trans (if_neg (by simp [hroom]))
  · exact cmdDepotStatus_of_ready hP
  · exact cmdLogRead_of_count h1 h2 rfl
  · exact cmdLogFreeze_one t hw
  · rfl
  · rfl
  · exact ep_of_sessionOf hx ▸ cmdNoticeSubscribe_of_severity hc hv
  · exact ep_of_sessionOf hx ▸ cmdNoticeSubscribe_none hc

/-! ## Pair (R315, R390, R394) -/

/-- PAIR_STATUS names partner 0 before partner 1. -/
theorem cmdPairStatus_partner_zero {t : State} (h : t.sys.partner = false) : cmdPairStatus t =
    (t, 0, [t.red.role.setWidth 8, t.red.peerRole.setWidth 8,
      BitVec.ofNat 8 ((if t.red.pathSync then 2 else 0) + if t.red.pathHb then 1 else 0), 0] ++ beBytes 2 t.red.epoch.toNat ++
      beBytes 2 (ownRdv t).toNat ++ beBytes 2 t.red.peerRdv.toNat ++ beBytes 4 t.red.digestMis.toNat, none) := by
  rw [cmdPairStatus, h]
  rfl

theorem cmdPairStatus_partner_one {t : State} (h : t.sys.partner = true) : cmdPairStatus t =
    (t, 0, [t.red.peerRole.setWidth 8, t.red.role.setWidth 8,
      BitVec.ofNat 8 ((if t.red.pathSync then 2 else 0) + if t.red.pathHb then 1 else 0), 0] ++ beBytes 2 t.red.epoch.toNat ++
      beBytes 2 t.red.peerRdv.toNat ++ beBytes 2 (ownRdv t).toNat ++ beBytes 4 t.red.digestMis.toNat, none) := by
  rw [cmdPairStatus, h]
  rfl

/-- PAIR_SWITCHOVER at the active partner with its standby in step sets the switch 100 ticks ahead (R390). -/
theorem cmdPairSwitchover_of_step {c : Ctx} {t : State} (h : t.red.role = 1 ∧ t.red.peerRole = 3) :
    let e := t.tsk.tick + 100
    cmdPairSwitchover c t =
      (sendControl 0x04 (beBytes 6 e.toNat) { t with red.switchAt := some e.toNat, red.items := t.red.items ++ [.switchover e] },
       0, tickBytes c t e, some (.recordAck (t.tsk.tick + 1).toNat)) := if_neg (by simp [h])

theorem cmdPairSwitchover_of_not_step {c : Ctx} {t : State} (h : ¬ (t.red.role = 1 ∧ t.red.peerRole = 3)) :
    cmdPairSwitchover c t = (t, 0x12, [], none) := if_pos (Decidable.not_and_iff_or_not.mp h)

/-- PAIR_RESYNC at a standby begins the resynchronisation; a warm one takes it with the sync link up alone (R394). -/
theorem cmdPairResync_of_standby {t : State} (hs : standby t = true) (h2 : t.red.role ≠ 2) (h4 : t.red.role = 4 → syncReady t = true) :
    cmdPairResync t = (enterSyncing t, 0, [], none) := by
  have hwarm : ¬ ((!standby t) = true ∨ t.red.role = 4 ∧ (!syncReady t) = true) := by
    rintro (h | ⟨h, hl⟩)
    · simp [hs] at h
    · simp [h4 h] at hl
  simp only [cmdPairResync, if_neg h2, if_neg hwarm, ok]

theorem cmdPairResync_of_warm {t : State} (h4 : t.red.role = 4) (hl : syncReady t = false) : cmdPairResync t = (t, 0x12, [], none) := by
  simp [cmdPairResync, h4, hl, no]

theorem cmdPairResync_of_syncing {t : State} (h : t.red.role = 2) : cmdPairResync t = (t, 0x11, [], none) := if_pos h

/-- Settles O34: what each command answers at its unit, in the cases of the roles. -/
theorem pairCommands : Obligations.PairCommands := by
  unfold Obligations.PairCommands
  refine ⟨fun r => ?_, fun r => ?_, fun r => ?_, fun r => ?_, fun r => ?_, fun r => ?_, fun r => ?_⟩ <;>
    refine serves_of_runCmd fun c seq t hP => ?_
  · exact cmdPairStatus_partner_zero hP
  · exact cmdPairStatus_partner_one hP
  · exact cmdPairSwitchover_of_step hP
  · exact cmdPairSwitchover_of_not_step hP
  · obtain ⟨hs, h2, h4⟩ := hP
    exact cmdPairResync_of_standby hs h2 h4
  · exact cmdPairResync_of_warm hP.1 hP.2
  · exact cmdPairResync_of_syncing hP

/-! ## Identity and keys (R320, R535 to R541) -/

theorem cmdAttest_of_length {n : List Byte} (t : State) (h : n.length = 32) :
    cmdAttest n t = ({ t with free := t.free + 1 }, 0, attestBytes n t, none) := if_pos h

theorem cmdCertRead_of_le {k p : Byte} (t : State) (hk : k.toNat ≤ 1) (hp : p.toNat ≤ 2) :
    cmdCertRead k p t = (t, 0, (Config.certificate (decide (k = 1)) p.toNat).take 8192, none) := if_neg (by omega)

/-- KEY_ENROL writes the key into the slot that holds its index, or else into the first free one, its page 0 last (R540, R541). -/
theorem keyEnrolOp_of_slot {i role slot : Nat} {ed ml : List Byte} {t : State} (h1 : 1 ≤ role) (h2 : role ≤ 3)
    (hs : ((slotOf t i).orElse fun _ => (List.range 16).find? fun j => !slotInUse t j) = some slot) :
    let b := slotImage i role ed ml
    let p0 := 256 + 8 * slot
    let u := [1, 2, 3, 4, 5, 6, 7, 0].foldl (fun u j => firmwareWrite (p0 + j) ((b.drop (256 * j)).take 256) u) t
    keyEnrolOp i role ed ml t = (0, p0, accession 0 0x0E03 3 (beBytes 2 i ++ beBytes 1 role) u) := by
  intro b p0 u
  have hrole : ¬ (role = 0 ∨ 3 < role) := by omega
  unfold keyEnrolOp
  rw [if_neg hrole]
  cases hk : slotOf t i with
  | none =>
    rw [hk] at hs
    simp only [Option.orElse_none] at hs
    simp only [hs]
    rfl
  | some k =>
    obtain rfl : k = slot := by simpa [hk] using hs
    rfl

theorem cmdKeyEnrol_of_enrolled {i : BitVec 16} {role : Byte} {ed ml : List Byte} {t u : State} {p0 : Nat} (he : ed.length = 32)
    (hm : ml.length = 1952) (h : keyEnrolOp i.toNat role.toNat ed ml t = (0, p0, u)) :
    cmdKeyEnrol i role ed ml t = (u, 0, [], some (if u.depot.pfail then .never else .depot p0)) := by
  simp only [cmdKeyEnrol, he, hm, h, ne_eq, not_true_eq_false, or_self, if_false, if_true, afterWrite, later]

/-- KEY_REMOVE of an index that no slot holds is refused; else the key ends, and the sessions proved with it (R540, R541). -/
theorem cmdKeyRemove_of_absent {i : BitVec 16} {t : State} (h : slotOf t i.toNat = none) :
    cmdKeyRemove i t = (t, 0x10, [], none) := by
  simp only [cmdKeyRemove, keyRemoveOp, h, replyWith]

theorem cmdKeyRemove_of_slot {i : BitVec 16} {slot : Nat} {t : State} (h : slotOf t i.toNat = some slot) :
    let b := depotBytes t (slotBase slot) 256
    let u := firmwareWrite (256 + 8 * slot) (b.take 3 ++ [0] ++ b.drop 4) t
    let u := (u.host.sessions.filter fun x => x.proved && x.keyIdx.toNat = i.toNat).foldl (fun u x => endSession x.ep u) u
    cmdKeyRemove i t = (accession 0 0x0E04 3 (beBytes 2 i.toNat ++ beBytes 1 (slotKey t slot).2) u, 0, [], none) := by
  simp only [cmdKeyRemove, keyRemoveOp, h, replyWith]

/-- Settles O37: what each command answers at its unit, by the slot that holds the key. -/
theorem identityCommands : Obligations.IdentityCommands := by
  unfold Obligations.IdentityCommands
  refine ⟨fun r => ?_, fun r n hn => ?_, fun r k p hk hp => ?_, fun r i role ed ml slot h1 h2 he hm => ?_, fun r i => ?_,
    fun r i slot => ?_, fun r => ?_⟩ <;> refine serves_of_runCmd fun c seq t hP => ?_
  · rfl
  · exact cmdAttest_of_length t hn
  · exact cmdCertRead_of_le t hk hp
  · exact cmdKeyEnrol_of_enrolled he hm (keyEnrolOp_of_slot h1 h2 hP)
  · exact cmdKeyRemove_of_absent hP
  · exact cmdKeyRemove_of_slot hP
  · rfl

end Sys2Proof.Proofs
end

section
/-! The switch bank while the self-test of start-up runs (R461, R469). -/

namespace Sys2Proof.Proofs

open Sys2Proof.Machine Sys2Proof.Safety

/-- Until the self-test has ended no switch setting is in force, so a reading is only stored, whatever it shows (R469). -/
theorem readSwitches_of_testing {d : Iod} (h : d.testing = true) (sw : Byte) : readSwitches sw d = { d with now := sw } := by
  simp only [readSwitches, h, if_true]

theorem exec_switchBankRead_of_testing {s : State} (hp : s.iod.powered = true) (h : s.iod.testing = true) (sw : Byte) :
    exec (.switchBankRead sw) s = .next { s with iod.now := sw } := by
  simp only [exec, execSwitchBankRead, hp, if_true, readSwitches_of_testing h]

/-- Refutes O50: its clause on changed switches leaves out that the self-test has ended. At reset the test still runs, and there the
reading 0x13, with S5 on beside the S1 and S2 of the setting held, is stored and leaves CFG_CHANGED clear (R461, R469). -/
theorem not_safetyRows : ¬ Obligations.SafetyRows := by
  unfold Obligations.SafetyRows
  rintro ⟨-, -, -, -, -, -, hchange, -⟩
  have hdiffer : ((0x13 : Byte) ^^^ State.reset.iod.inForce) &&& 0xBF#8 ≠ 0 := by decide
  obtain ⟨t, hstep, -, -, -, hchanged, -⟩ := hchange 0x13 State.reset rfl hdiffer
  have hstored : exec (.switchBankRead 0x13) State.reset = .next { State.reset with iod.now := 0x13 } :=
    exec_switchBankRead_of_testing rfl rfl 0x13
  obtain rfl : { State.reset with iod.now := 0x13 } = t := Host.Outcome.next.inj (hstored.symm.trans hstep)
  exact absurd hchanged (by decide)

end Sys2Proof.Proofs
end

section
/-! A step of the module by its queue, the edge of the backup domain's clock (R474, R485), and the limits and the LOCK of the watchdog
(R485, R495). -/

namespace Sys2Proof.Proofs

open Sys2Proof.Machine Sys2Proof.Safety

/-! ## The step by its queue -/

theorem step_of_front {s : State} {c : Instr} {q : List Instr} (h : s.pending = c :: q) : step s = exec c { s with pending := q } := by
  simp only [step, h]

theorem step_of_empty {s : State} (h : s.pending = []) : step s = .next (bkdClock s) := by
  simp only [step, h]

/-! ## An edge of the crystal clock -/

theorem wdtEdge_rtc (b : Bkd) : (wdtEdge b).rtc = b.rtc := by
  unfold wdtEdge
  split <;> rfl

theorem wdtEdge_c_of_counting {b : Bkd} (he : b.wdtEn = true) (hs : b.cStop = false) (hv : b.vin = true)
    (hc : b.c.toNat < b.periodNow.toNat) : (wdtEdge b).c = b.c + 1 := by
  simp only [wdtEdge, he, hs, hv, hc, Bool.not_false, Bool.and_self, decide_true, if_true]

theorem bkdEdge_of_stopped {b : Bkd} (h : b.running = false) : bkdEdge b = b := by
  simp only [bkdEdge, h, Bool.not_false, if_true]

/-- The watchdog counts the periods of the crystal, whether the trim lets the real-time clock advance or holds it. -/
theorem bkdEdge_of_running {b : Bkd} (h : b.running = true) :
    bkdEdge b = wdtEdge { (if b.hold = 0 then rtcStep 1 b else { b with hold := b.hold - 1 }) with trimAcc := b.trimAcc + 1 } := by
  simp only [bkdEdge, h, Bool.not_true, Bool.false_eq_true, if_false]

theorem bkdEdge_rtc_of_running {b : Bkd} (hr : b.running = true) (hh : b.hold = 0) : (bkdEdge b).rtc = b.rtc + 1 := by
  rw [bkdEdge_of_running hr, wdtEdge_rtc, if_pos hh]
  rfl

theorem bkdEdge_c_of_counting {b : Bkd} (hr : b.running = true) (he : b.wdtEn = true) (hs : b.cStop = false) (hv : b.vin = true)
    (hc : b.c.toNat < b.periodNow.toNat) : (bkdEdge b).c = b.c + 1 := by
  rw [bkdEdge_of_running hr]
  split <;> exact wdtEdge_c_of_counting he hs hv hc

/-- Settles O56: by the two cases of the queue, the empty one through the edge of the backup domain's clock. -/
theorem stepRunsFront : Obligations.StepRunsFront := by
  unfold Obligations.StepRunsFront
  refine ⟨fun c q s => step_of_front, fun s h => ⟨bkdClock s, step_of_empty h, rfl, fun hr => ?_, bkdEdge_rtc_of_running,
    bkdEdge_c_of_counting⟩⟩
  rw [bkdClock, bkdEdge_of_stopped hr]

/-! ## The limits of the watchdog, and the settings that are being stored -/

/-- A state within the limits in which the last page of a settings generation is being written (R561, R623): the settings under way name a
PERIOD of 0. -/
def storingZeroPeriod : State :=
  { State.reset with
    pending := [.pageWriteDone], upd.storing := some (false, { wdtPeriod := 0 }), depot.busy := true,
    depot.queue := [{ page := 159, data := [], srcs := [.firmware 159 []] }] }

/-- The limits speak of the backup domain and of the two stored generations, in which this state is as at reset. -/
theorem storingZeroPeriod_limits : WatchdogLimits storingZeroPeriod :=
  { period := reset_watchdogLimits.period, wopen := reset_watchdogLimits.wopen, now := reset_watchdogLimits.now,
    opens := reset_watchdogLimits.opens, count := reset_watchdogLimits.count, gen0 := reset_watchdogLimits.gen0,
    gen1 := reset_watchdogLimits.gen1 }

theorem step_storingZeroPeriod : step storingZeroPeriod = .next (settle (pageDone { storingZeroPeriod with pending := [] })) :=
  (step_of_front rfl).trans rfl

/-- Refutes O59: the premise bounds the stored generations but not the settings that are on their way to one. When the write of their last
page ends, the generation takes them as they are, here with PERIOD 0 (R561, R623). (The model begins to store only a generation or `collectStores`; what the limits lack is a clause on
`upd.storing`.) -/
theorem not_watchdogLimitsKept : ¬ Obligations.WatchdogLimitsKept := by
  unfold Obligations.WatchdogLimitsKept
  intro hkept
  obtain ⟨hmin, -, -⟩ := (hkept _ _ storingZeroPeriod_limits step_storingZeroPeriod).gen0
  have hzero : (settle (pageDone { storingZeroPeriod with pending := [] })).upd.gen0.wdtPeriod.toNat = 0 := by decide
  omega

/-! ## LOCK -/

/-- A write of LOCK is marked as one that step 7 of start-up has to keep (R489, R623). -/
theorem exec_wdtLock_early (s : State) :
    exec .wdtLock s = .next (touchSettings { s with bkd.wdtLock := true, upd.early := s.upd.early ||| 2 }) := rfl

/-- Refutes O41: its clause on LOCK has the write mark the settings as changed and nothing else. The write also sets the mark by which
step 7 of start-up leaves LOCK as written; at reset, where start-up is at its step 3, that mark is clear before and set after
(R489, R495, R623). -/
theorem not_watchdogRows : ¬ Obligations.WatchdogRows := by
  unfold Obligations.WatchdogRows
  rintro ⟨-, -, hlock, -⟩
  have heq : touchSettings { State.reset with bkd.wdtLock := true, upd.early := State.reset.upd.early ||| 2 } =
      touchSettings { State.reset with bkd.wdtLock := true } :=
    Host.Outcome.next.inj ((exec_wdtLock_early State.reset).symm.trans (hlock State.reset))
  have hearly : State.reset.upd.early ||| 2 = State.reset.upd.early := congrArg (fun t : State => t.upd.early) heq
  exact absurd hearly (by decide)

end Sys2Proof.Proofs
end

section
/-! The accession log: intake, flush and freeze (R520 to R523, R527). -/

namespace Sys2Proof.Proofs

open Sys2Proof.Machine Sys2Proof.Safety Sys2Proof.Laws

/-! ## Intake (R520) -/

/-- A record that finds room takes the next index and the stamps of its moment. -/
theorem logIn_log_of_room {s : State} (a : Acc) (h : s.log.buf.length < 2048) : (logIn a s).log =
    { s.log with next := s.log.next + 1, intake := satInc s.log.intake,
                 buf := s.log.buf ++ [{ a with index := s.log.next, rtc := s.bkd.rtc, tick := s.tsk.tick }] } := by
  unfold logIn
  dsimp only
  rw [foldl_log _ _ _ fun t x => by simp only [notice_frame], bufferIn, if_pos h]

/-- A module that is no head sends its report and coalesces none, so the report writes no record. -/
theorem report_log_of_member {s : State} (cls : Nat) (sev : BitVec 3) (o : List (BitVec 6)) (d : Nat) (h : s.pas.head = false) :
    (report cls sev o d s).log = s.log := by
  unfold report
  simp only [h, Bool.false_eq_true, if_false]
  (repeat' split) <;> simp

theorem accession_log_of_room {s : State} (unit code sev : Nat) (data : List Byte) (hroom : s.log.buf.length < 2048)
    (hhead : s.pas.head = false) : (accession unit code sev data s).log =
      { s.log with next := s.log.next + 1, intake := satInc s.log.intake,
                   buf := s.log.buf ++ [{ index := s.log.next, code := BitVec.ofNat 16 code, sev := BitVec.ofNat 3 sev,
                                          unit := BitVec.ofNat 8 unit, rtc := s.bkd.rtc, tick := s.tsk.tick, data := data }] } := by
  unfold accession intake
  dsimp only
  split
  · rw [report_log_of_member _ _ _ _ (by simp only [logIn_frame, hhead]), logIn_log_of_room _ hroom]
  · exact logIn_log_of_room _ hroom

/-! ## The flush (R523) -/

theorem flushOp_of_held {s : State} (h : s.sys.pfail = true ∨ s.log.frozen = true ∨ s.log.image.isSome = true) : flushOp s = s :=
  if_pos h

/-- Saving the position notes its time alone in the log. -/
theorem savePosition_log (s : State) : ∃ p, (savePosition s).log = { s.log with posAt := p } := by
  unfold savePosition
  extract_lets due
  split
  · exact ⟨some s.sys.upTicks, by simp only [twinWrite_frame]⟩
  · exact ⟨s.log.posAt, rfl⟩

/-- With no LOST record in the way the oldest record of the buffer is the next. -/
theorem flushOp_of_front {s : State} {a : Acc} {l : List Acc} (hp : s.sys.pfail = false) (hf : s.log.frozen = false)
    (hi : s.log.image = none) (hpend : s.log.pending = none) (hc : s.log.closed = none) (hb : s.log.buf = a :: l) :
    flushOp s = savePosition (flashIn a { s with log.buf := l }) := by
  have hclose : closeLost s = s := by simp only [closeLost, hpend]
  simp [flushOp, hp, hf, hi, hclose, hb, hc]

/-! ## The freeze (R527) -/

/-- Neither the freeze nor the session that set it has changed. -/
@[simp] abbrev Keeps.freeze (s t : State) : Prop := t.log.frozen = s.log.frozen ∧ t.log.freezer = s.log.freezer

@[simp] theorem bufferIn_freeze (a s) : Keeps.freeze s (bufferIn a s) := by
  unfold Keeps.freeze bufferIn
  dsimp only
  (repeat' split) <;> exact ⟨rfl, rfl⟩

@[simp] theorem logIn_freeze (a s) : Keeps.freeze s (logIn a s) := by
  unfold Keeps.freeze logIn; simp

@[simp] theorem closeOrigin_freeze (o s) : Keeps.freeze s (closeOrigin o s) := by
  unfold Keeps.freeze closeOrigin; simp

@[simp] theorem coalesce_freeze (q t s) : Keeps.freeze s (coalesce q t s) := by
  unfold Keeps.freeze coalesce; dsimp only; (repeat' split) <;> simp

@[simp] theorem report_freeze (c v o d s) : Keeps.freeze s (report c v o d s) := by
  unfold Keeps.freeze report; dsimp only; (repeat' split) <;> simp

/-- An accession is taken in during a freeze as at any time, and ends none. -/
@[simp] theorem accession_freeze (u c v d s) : Keeps.freeze s (accession u c v d s) := by
  unfold Keeps.freeze accession intake; dsimp only; split <;> simp

end Sys2Proof.Proofs
end

section
/-! The depot: the end of a page write, waiting writes and the patrol (R505, R507, R509). -/

namespace Sys2Proof.Proofs

open Sys2Proof.Machine Sys2Proof.Safety Sys2Proof.Laws

/-! ## A page write in the store (R505, R509) -/

/-- The depot once the page write w is counted, its page free of errors and no longer due, before its contents are stored. -/
def countWrite (w : DepWrite) (d : Depot) : Depot :=
  { d with bad := Tab.set 0 d.bad w.page 0, soft := Tab.set 0 d.soft w.page 0, wear := Tab.set 0 d.wear w.page (Tab.get 0 d.wear w.page + 1),
           due := d.due.filter (· ≠ w.page), writes := satInc d.writes, torn := Tab.set [] d.torn w.page [] }

theorem storePage_of_new {w : DepWrite} {s : State} (hwear : Tab.get 0 s.depot.wear w.page < 1000000) (hnew : w.srcs ≠ [.refresh]) :
    storePage w s = storeContents w { s with depot := countWrite w s.depot } := by
  have hfit : ¬ 1000000 < Tab.get 0 s.depot.wear w.page + 1 := by omega
  simp [storePage, hfit, hnew, countWrite]

/-- A refresh is counted, and the page keeps its contents. -/
theorem storePage_of_refresh {w : DepWrite} {s : State} (hwear : Tab.get 0 s.depot.wear w.page < 1000000) (h : w.srcs = [.refresh]) :
    storePage w s = { s with depot := { countWrite w s.depot with torn := s.depot.torn, refreshed := satInc s.depot.refreshed } } := by
  have hfit : ¬ 1000000 < Tab.get 0 s.depot.wear w.page + 1 := by omega
  simp [storePage, hfit, h, countWrite]

/-- Contents go to the bytes, the twin records or the counts of the firmware's pages. -/
theorem storeContents_depot (w : DepWrite) (s : State) : ∃ b t f,
    (storeContents w s).depot = { s.depot with bytes := b, twins := t, fw := f } := by
  unfold storeContents
  dsimp only
  split
  · exact ⟨s.depot.bytes, _, s.depot.fw, rfl⟩
  · split
    · exact ⟨s.depot.bytes, s.depot.twins, _, rfl⟩
    · split
      · exact ⟨Tab.setRange 0 s.depot.bytes (256 * w.page) (padTo 256 w.data), s.depot.twins, s.depot.fw,
          by simp only [sendState_frame]⟩
      · exact ⟨_, s.depot.twins, s.depot.fw, rfl⟩

theorem recordOf_of_no_record {w : DepWrite} (h : ∀ p c, DepSrc.record p c ∉ w.srcs) : recordOf w = none := by
  refine List.findSome?_eq_none_iff.mpr fun x hx => ?_
  cases x with
  | record p c => exact absurd (List.mem_reverse.mp hx) (h p c)
  | _ => rfl

/-- A page outside the firmware's areas is a page of bytes; only an active partner sends it on. -/
theorem storeContents_of_bytes {w : DepWrite} {s : State} (ht : w.twin = none) (hrec : recordOf w = none) (hpage : 256 ≤ w.page)
    (hrole : s.red.role = 0) :
    storeContents w s = { s with depot.bytes := Tab.setRange 0 s.depot.bytes (256 * w.page) (padTo 256 w.data) } := by
  have hfw : ¬ (64 ≤ w.page ∧ w.page < 256) := by omega
  simp [storeContents, ht, hrec, hfw, hrole]

theorem storeContents_of_twin {w : DepWrite} {k : Nat} {c : TwinCopy} (s : State) (ht : w.twin = some (k, c)) :
    storeContents w s =
      { s with depot.twins := Tab.upd {} s.depot.twins k fun t => if w.page % 2 = 0 then { t with a := c } else { t with b := c } } := by
  simp [storeContents, ht]

theorem padTo_length (n : Nat) (l : List Byte) : (padTo n l).length = n := by
  simp [padTo]
  omega

/-! ## The end of a page write (R505) -/

theorem finishStoring_of_none {s : State} (h : s.upd.storing = none) : finishStoring s = s := by
  simp only [finishStoring, h]

theorem saveNext_of_none {s : State} (h : s.upd.saveDue = none) : saveNext s = s := by
  simp only [saveNext, h]

theorem startRefresh_of_none {s : State} (h : s.depot.due = []) : startRefresh s = s := by
  simp only [startRefresh, h, List.filter_nil]

theorem pageDone_of_idle {s : State} (h : s.depot.busy = false) : pageDone s = s := by
  simp only [pageDone, h]

/-- The state once the page write w is counted and out of the queue, and the next begins, before its contents are stored. -/
def writeEnds (w : DepWrite) (q : List DepWrite) (s : State) : State :=
  { s with depot := countWrite w { s.depot with queue := q, busy := !q.isEmpty } }

/-- The write in progress leaves the queue, and where nothing waits for it its contents are stored and the next begins. -/
theorem pageDone_of_new {s : State} {w : DepWrite} {q : List DepWrite} (hbusy : s.depot.busy = true) (hq : s.depot.queue = w :: q)
    (hwear : Tab.get 0 s.depot.wear w.page < 1000000) (hnew : w.srcs ≠ [.refresh])
    (hnext : ∀ k c, w.twin = some (k, c) → Tab.get none s.depot.twinNext k = none) (hst : s.upd.storing = none)
    (hsave : s.upd.saveDue = none) (hdue : s.depot.due = []) :
    pageDone s = storeContents w (writeEnds w q s) := by
  have hstore : storePage w { s with depot.queue := q, depot.busy := !q.isEmpty } = storeContents w (writeEnds w q s) :=
    storePage_of_new hwear hnew
  unfold pageDone
  rw [hbusy, hq]
  dsimp only
  rw [hstore]
  generalize ht : storeContents w _ = t
  have hupd : t.upd = s.upd := by rw [← ht]; simp only [storeContents_frame, writeEnds]
  obtain ⟨hdue', hnext'⟩ : t.depot.due = [] ∧ t.depot.twinNext = s.depot.twinNext := by
    obtain ⟨b, r, f, hd⟩ := storeContents_depot w (writeEnds w q s)
    rw [← ht, hd]
    simp [writeEnds, countWrite, hdue]
  have hrest : startRefresh (saveNext (finishStoring t)) = t := by
    rw [finishStoring_of_none (hupd ▸ hst), saveNext_of_none (hupd ▸ hsave), startRefresh_of_none hdue']
  split
  next k c hw =>
    rw [hnext', hnext k c hw]
    exact hrest
  next => exact hrest

/-! ## Waiting writes (R507) -/

/-- The first waiting write of a host is dropped, whatever waits before it. -/
theorem dropHostWaiter_of_first (whom : ReplyTo) (p : W32) (post : List DepSrc) {pre : List DepSrc}
    (h : ∀ w ∈ pre, ∀ whom p, w ≠ .host whom p) :
    dropHostWaiter (pre ++ .host whom p :: post) = pre ++ post := by
  induction pre with
  | nil => rfl
  | cons w l ih =>
    have htail := ih fun x hx => h x (List.mem_cons_of_mem w hx)
    cases w with
    | host v n => exact absurd rfl (h _ List.mem_cons_self v n)
    | _ => exact congrArg _ htail

/-! ## The patrol (R509) -/

/-- A read that meets no uncorrectable group counts none. -/
theorem noteBad_of_sound {p : Nat} {s : State} (h : (pageRead s p).2 = 0) : noteBad p s = s := by
  have hzero : badGroups 0 = 0 := by decide
  simp only [noteBad, h, hzero, if_true]

theorem wornPage_of_fit {p : Nat} {s : State} (h : Tab.get 0 s.depot.wear p ≤ 1000000) : wornPage p s = s := if_pos (.inl h)

/-- A read of a sound page that is not worn counts the groups that it corrects, and nothing else. -/
theorem noteRead_of_sound {p : Nat} {s : State} (hq : s.depot.queue = []) (hbad : Tab.get 0 s.depot.bad p = 0)
    (hwear : Tab.get 0 s.depot.wear p ≤ 1000000) :
    noteRead p s = { s with depot.corrected := satAdd s.depot.corrected (badGroups (Tab.get 0 s.depot.soft p)) } := by
  have hsoft : softGroups s p = Tab.get 0 s.depot.soft p := by
    rw [softGroups, hq, hbad]
    exact BitVec.and_allOnes
  unfold noteRead
  rw [hsoft]
  generalize satAdd s.depot.corrected (badGroups (Tab.get 0 s.depot.soft p)) = n
  have hread : (pageRead { s with depot.corrected := n } p).2 = 0 := by
    simp only [pageRead, hq, List.reverse_nil, List.find?_nil, hbad]
  exact (congrArg (wornPage p) (noteBad_of_sound hread)).trans (wornPage_of_fit hwear)

/-- The patrol goes to the next page, with the groups of this one that show a single-bit error noted. -/
def movePatrol (corrected : W32) (s : State) : State :=
  { s with depot.patrol := s.depot.patrol + 1, depot.soft := Tab.set 0 s.depot.soft s.depot.patrol.toNat corrected }

/-- The state after a patrol read of a sound page, where the groups noted are counted as well. -/
def patrolled (corrected : W32) (s : State) : State :=
  { movePatrol corrected s with depot.corrected := satAdd s.depot.corrected (badGroups corrected) }

/-- The patrol read of a page in order is due for a refresh where a group is weak or corrected, unless the supply fails. -/
theorem patrolOp_of_sound (weak corrected : W32) {s : State} (hq : s.depot.queue = []) (hbad : Tab.get 0 s.depot.bad s.depot.patrol.toNat = 0)
    (hsoft : Tab.get 0 s.depot.soft s.depot.patrol.toNat = 0) (hwear : Tab.get 0 s.depot.wear s.depot.patrol.toNat ≤ 1000000)
    (hr : Rising s.depot.soft) (hdue : s.depot.due = []) :
    patrolOp weak corrected s =
      if (weak ||| corrected) = 0 ∨ s.depot.pfail = true then patrolled corrected s
      else startRefresh { patrolled corrected s with depot.due := [s.depot.patrol.toNat] } := by
  have hread : noteRead s.depot.patrol.toNat (movePatrol corrected s) = patrolled corrected s := by
    have hnoted : Tab.get 0 (movePatrol corrected s).depot.soft s.depot.patrol.toNat = corrected := tab_get_set_self 0 _ hr _
    rw [noteRead_of_sound (s := movePatrol corrected s) hq hbad hwear, hnoted]
    rfl
  have hor : (0 ||| corrected : W32) = corrected := BitVec.zero_or
  simp only [movePatrol] at hread
  rw [patrolOp, if_neg (by simp [hq])]
  dsimp only
  rw [hsoft, hor, hread]
  simp only [patrolled, movePatrol, hdue, hbad, List.filter_nil, List.nil_append, ne_eq, not_true_eq_false, false_or]

/-- The only page that is due is sound, so the empty queue takes its own data back. -/
theorem startRefresh_of_sound {p : Nat} {s : State} (hdue : s.depot.due = [p]) (hbad : Tab.get 0 s.depot.bad p = 0)
    (hq : s.depot.queue = []) (hp : s.depot.pfail = false) :
    startRefresh s =
      { s with depot.due := [], depot.queue := [{ page := p, data := storedBytes s p, srcs := [.refresh] }], depot.busy := true } := by
  have hfilter : (s.depot.due.filter fun p => Tab.get 0 s.depot.bad p = 0) = [p] := by
    simp only [hdue, List.filter_cons, hbad, decide_true, if_true, List.filter_nil]
  simp only [startRefresh, hfilter]
  exact if_neg (by simp [hq, hp])

end Sys2Proof.Proofs
end

section
/-! The values of twin records that the firmware writes (R505, R515), the end of a verification (R555) and of a trial (R558, R559). -/

namespace Sys2Proof.Proofs

open Sys2Proof.Machine Sys2Proof.Safety Sys2Proof.Laws

/-! ## Writes of twin records (R505, R515) -/

/-- A twin write enters the list somewhere, and the others keep their order. -/
theorem insertTwin_splits (w : DepWrite) (l : List DepWrite) : ∃ a b, l = a ++ b ∧ insertTwin w l = a ++ w :: b := by
  induction l with
  | nil => exact ⟨[], [], rfl, rfl⟩
  | cons x l ih =>
    obtain ⟨a, b, hl, hi⟩ := ih
    cases hx : x.twin.isSome with
    | true => exact ⟨x :: a, b, by rw [hl]; rfl, by simp [insertTwin, hx, hi]⟩
    | false => exact ⟨[], x :: l, rfl, by simp [insertTwin, hx]⟩

/-- A twin write enters the queue behind the write in progress, and the others keep their order. -/
theorem queueTwin_splits (w : DepWrite) (busy : Bool) (q : List DepWrite) : ∃ a b, q = a ++ b ∧
    (if busy then q.take 1 ++ insertTwin w (q.drop 1) else insertTwin w q) = a ++ w :: b := by
  cases busy with
  | true =>
    obtain ⟨a, b, hl, hi⟩ := insertTwin_splits w (q.drop 1)
    exact ⟨q.take 1 ++ a, b, by rw [List.append_assoc, ← hl, List.take_append_drop], by rw [if_pos rfl, hi, List.append_assoc]⟩
  | false => exact insertTwin_splits w q

/-- While a write of the record holds its place its next value waits; else a write of the value enters the queue. -/
theorem twinWrite_cases (k : Nat) (v : TwinVal) {s : State} (hp : s.depot.pfail = false) :
    ((∃ w ∈ s.depot.queue, w.twin.map (·.1) = some k) ∧
      twinWrite k v s = { s with depot.twinNext := Tab.set none s.depot.twinNext k (some v) }) ∨
    ((∀ w ∈ s.depot.queue, w.twin.map (·.1) ≠ some k) ∧ ∃ a b w c, s.depot.queue = a ++ b ∧
      w.twin = some (k, c) ∧ c.val = some v ∧ twinWrite k v s = { s with depot.queue := a ++ w :: b, depot.busy := true }) := by
  unfold twinWrite
  rw [if_neg (by simp [hp])]
  split
  next h => exact .inl ⟨by simpa using h, rfl⟩
  next h =>
    refine .inr ⟨by simpa using h, ?_⟩
    split
    next pg sq _ =>
    extract_lets w
    obtain ⟨a, b, hl, hi⟩ := queueTwin_splits w s.depot.busy s.depot.queue
    exact ⟨a, b, w, _, hl, rfl, rfl, by rw [← hi]⟩

/-- The latest write of a record is the last of its writes in the queue. -/
theorem find?_reverse_eq_getLast? {α : Type} (p : α → Bool) (l : List α) : l.reverse.find? p = (l.filter p).getLast? := by
  rw [← List.head?_filter, List.filter_reverse, List.head?_reverse]

/-- The firmware's last value of a record is the depot's alone. -/
theorem twinNow_congr {s t : State} (h : t.depot = s.depot) (k : Nat) : twinNow t k = twinNow s k := by
  simp only [twinNow, twinTaken, copyValue, h]

theorem twinNow_accession (unit code sev : Nat) (data : List Byte) (s : State) (k : Nat) :
    twinNow (accession unit code sev data s) k = twinNow s k := twinNow_congr (by simp only [accession_frame]) k

theorem twinWrite_pfail (k : Nat) (v : TwinVal) (s : State) : (twinWrite k v s).depot.pfail = s.depot.pfail := by
  unfold twinWrite
  (repeat' split) <;> rfl

/-- The value that was written last is the record's, whether its write is queued or waits for the one before. -/
theorem twinNow_twinWrite_self (k : Nat) (v : TwinVal) {s : State} (hp : s.depot.pfail = false) (hr : Rising s.depot.twinNext)
    (hn : Tab.get none s.depot.twinNext k = none) : twinNow (twinWrite k v s) k = some v := by
  rcases twinWrite_cases k v hp with ⟨-, h⟩ | ⟨hno, a, b, w, c, hq, hw, hc, h⟩
  · simp only [h, twinNow, tab_get_set_self none _ hr]
  · have hnone (l : List DepWrite) (hl : ∀ x ∈ l, x ∈ s.depot.queue) : (l.filter fun x => x.twin.map (·.1) = some k) = [] := by
      rw [List.filter_eq_nil_iff]
      exact fun x hx => by simpa using hno x (hl x hx)
    have hlast : ((a ++ w :: b).filter fun x => x.twin.map (·.1) = some k) = [w] := by
      rw [List.filter_append, List.filter_cons_of_pos (by simp [hw]), hnone a (by simp_all), hnone b (by simp_all)]
      rfl
    simp only [h, twinNow, hn, find?_reverse_eq_getLast?, hlast, List.getLast?_singleton, hw, Option.bind_some, hc]

/-- The write of a record leaves the value of every other. -/
theorem twinNow_twinWrite_ne {j k : Nat} (v : TwinVal) (s : State) (hjk : j ≠ k) : twinNow (twinWrite k v s) j = twinNow s j := by
  cases hp : s.depot.pfail with
  | true => rw [twinWrite, if_pos hp]
  | false =>
    rcases twinWrite_cases k v hp with ⟨-, h⟩ | ⟨-, a, b, w, c, hq, hw, -, h⟩
    · simp only [h, twinNow, tab_get_set_ne none _ _ hjk, twinTaken, copyValue]
    · have hother : ¬ (w.twin.map (·.1) = some j) := by
        simpa [hw] using Ne.symm hjk
      have hfilter : ((a ++ w :: b).filter fun x => x.twin.map (·.1) = some j) =
          s.depot.queue.filter fun x => x.twin.map (·.1) = some j := by
        rw [hq, List.filter_append, List.filter_append, List.filter_cons_of_neg (by simpa using hother)]
      simp only [h, twinNow, find?_reverse_eq_getLast?, hfilter, twinTaken, copyValue]

/-- The values that wait: one more, or as before. -/
theorem twinWrite_twinNext (k : Nat) (v : TwinVal) (s : State) :
    (twinWrite k v s).depot.twinNext = s.depot.twinNext ∨
      (twinWrite k v s).depot.twinNext = Tab.set none s.depot.twinNext k (some v) := by
  cases hp : s.depot.pfail with
  | true => rw [twinWrite, if_pos hp]; exact .inl rfl
  | false =>
    rcases twinWrite_cases k v hp with ⟨-, h⟩ | ⟨-, a, b, w, c, -, -, -, h⟩ <;> rw [h]
    · exact .inr rfl
    · exact .inl rfl

/-! ## The confirmation of a trial (R558) -/

theorem twinNow_switchSettings {j : Nat} (s : State) (hj : j ≠ 4) : twinNow (switchSettings s) j = twinNow s j := by
  unfold switchSettings
  dsimp only
  split
  · exact twinNow_twinWrite_ne _ s hj
  · rfl

/-- A confirmation ends the window, and what was on trial runs. -/
theorem confirmTrial_upd (s : State) : (confirmTrial s).upd.windowEnd = 0 ∧
    ∀ e ∈ (confirmTrial s).upd.parts, e.2.a.st ≠ .trial ∧ e.2.b.st ≠ .trial := by
  simp only [confirmTrial, accession_frame, switchSettings_frame, List.mem_map]
  refine ⟨trivial, ?_⟩
  have hcalm (x : Slot) : (if x.st = .trial then { x with st := .running } else x).st ≠ .trial := by
    split
    · exact fun h => SlotSt.noConfusion h
    next h => exact h
  rintro e ⟨x, -, rfl⟩
  exact ⟨hcalm x.2.a, hcalm x.2.b⟩

/-- The trial counter is written as 0 behind the boot selector. -/
theorem trialCount_confirmTrial {s : State} (hp : s.depot.pfail = false) (hr : Rising s.depot.twinNext)
    (hn : Tab.get none s.depot.twinNext 1 = none) : trialCount (confirmTrial s) = 0 := by
  have hnow (v : TwinVal) : twinNow (twinWrite 1 (.trial 0) (twinWrite 0 v s)) 1 = some (.trial 0) := by
    have hp' : (twinWrite 0 v s).depot.pfail = false := (twinWrite_pfail 0 v s).trans hp
    rcases twinWrite_twinNext 0 v s with h | h
    · exact twinNow_twinWrite_self 1 _ hp' (h ▸ hr) (h ▸ hn)
    · exact twinNow_twinWrite_self 1 _ hp' (h ▸ rising_set none _ hr 0) (by rw [h, tab_get_set_ne none _ _ (by decide), hn])
  have hconf : twinNow (confirmTrial s) 1 = some (.trial 0) := by
    unfold confirmTrial
    dsimp only
    rw [twinNow_accession, twinNow_switchSettings _ (by decide)]
    exact (twinNow_congr rfl 1).trans (hnow _)
  simp only [trialCount, hconf]

/-! ## The end of a verification (R555) -/

@[simp] theorem releaseFeature_parts (code inst s) : (releaseFeature code inst s).upd.parts = s.upd.parts ∧
    (releaseFeature code inst s).upd.openPart = s.upd.openPart := by
  unfold releaseFeature touchSettings
  dsimp only
  (repeat' split) <;> simp [setEnabled]

theorem saveDownload_parts (k : Nat) (bitmap : Bool) (s : State) : (saveDownload k bitmap s).upd.parts = s.upd.parts := by
  unfold saveDownload
  (repeat' split) <;> simp

/-- The verified slot is VALID or INVALID, the running one stays, and no download is open. -/
theorem verifyEnd_parts {k : Nat} {s : State} (hr : Rising s.upd.parts) :
    (verifyEnd k s).2.upd.openPart = none ∧
    (idleSlot (partOf (verifyEnd k s).2 k)).st = (if payloadOk (idleSlot (partOf s k)) then .valid else .invalid) ∧
    runSlot (partOf (verifyEnd k s).2 k) = runSlot (partOf s k) := by
  generalize hok : payloadOk (idleSlot (partOf s k)) = ok
  have hsup : (supVerified k ok s).upd = s.upd := by simp only [supVerified_frame]
  have hbefore : partOf (supVerified k ok s) k = partOf s k := by simp only [partOf, hsup]
  obtain ⟨hidle, hrun⟩ := idleSlot_updIdle k (fun x => { x with st := if ok then .valid else .invalid }) (supVerified k ok s) (hsup ▸ hr)
  have hafter : partOf (verifyEnd k s).2 k =
      partOf (updIdle k (fun x => { x with st := if ok then .valid else .invalid }) (supVerified k ok s)) k := by
    refine congrArg (fun t => Tab.get ({} : Part) t k) ?_
    simp only [verifyEnd, hok, closeDownload, releaseFeature_parts, saveDownload_parts]
  rw [hafter, hidle, hrun, hbefore]
  exact ⟨by simp only [verifyEnd, closeDownload, releaseFeature_parts], rfl, rfl⟩

end Sys2Proof.Proofs
end

section
/-! The events of the firmware: the rows of the log, the depot and the update (R505, R507, R509, R520 to R527, R544, R555, R558, R559). -/

namespace Sys2Proof.Proofs

open Sys2Proof.Machine Sys2Proof.Safety Sys2Proof.Laws

/-! ## The log -/

theorem exec_flushStep_of_held {s : State}
    (h : flushes s = false ∨ s.sys.pfail = true ∨ s.log.frozen = true ∨ s.log.image.isSome = true) : exec .flushStep s = .next s := by
  refine congrArg Host.Outcome.next ?_
  rcases h with h | h
  · exact if_neg (by simp [h])
  · rw [flushOp_of_held h, ite_self]

theorem exec_flushStep_of_front {s : State} {a : Acc} {l : List Acc} (hf : flushes s = true) (hp : s.sys.pfail = false)
    (hz : s.log.frozen = false) (hi : s.log.image = none) (hpend : s.log.pending = none) (hc : s.log.closed = none)
    (hb : s.log.buf = a :: l) (hroom : s.log.flash.length < 1048576) :
    ∃ t p, exec .flushStep s = .next t ∧ t.tsk = s.tsk ∧ t.log =
      { s.log with buf := l, flash := s.log.flash ++ [a], flushed := satInc s.log.flushed, posAt := p } := by
  have hstep : exec .flushStep s = .next (savePosition (flashIn a { s with log.buf := l })) :=
    congrArg _ ((if_pos hf).trans (flushOp_of_front hp hz hi hpend hc hb))
  obtain ⟨p, hlog⟩ := savePosition_log (flashIn a { s with log.buf := l })
  refine ⟨_, p, hstep, by simp only [savePosition_frame, flashIn_frame], hlog.trans ?_⟩
  rw [flashIn, if_pos hroom]

theorem exec_freezeExpired_of_free {s : State} (h : s.log.frozen = false) : exec .freezeExpired s = .next s :=
  congrArg _ (if_neg (by simp [h]))

theorem exec_freezeExpired_of_frozen {s : State} (h : s.log.frozen = true) :
    exec .freezeExpired s = .next (accession 0 0x0702 2 [] (unfreeze s)) := congrArg _ (if_pos h)

/-! ## The depot -/

/-- A page of bytes that is written reads wholly new, and every other byte as before. -/
theorem pageDone_of_bytes {s : State} {w : DepWrite} {q : List DepWrite} (hbusy : s.depot.busy = true) (hq : s.depot.queue = w :: q)
    (ht : w.twin = none) (hpage : 256 ≤ w.page) (hrole : s.red.role = 0) (hbytes : Rising s.depot.bytes) (hbad : Rising s.depot.bad)
    (hwear : Tab.get 0 s.depot.wear w.page < 1000000) (hrec : ∀ p c, DepSrc.record p c ∉ w.srcs) (hnew : w.srcs ≠ [.refresh])
    (hst : s.upd.storing = none) (hsave : s.upd.saveDue = none) (hdue : s.depot.due = []) :
    (pageDone s).depot.queue = q ∧ (pageDone s).depot.busy = !q.isEmpty ∧ (pageDone s).depot.writes = satInc s.depot.writes ∧
    Tab.range 0 (pageDone s).depot.bytes (256 * w.page) 256 = padTo 256 w.data ∧ Tab.get 0 (pageDone s).depot.bad w.page = 0 ∧
    ∀ a, a < 256 * w.page ∨ 256 * w.page + 256 ≤ a → Tab.get 0 (pageDone s).depot.bytes a = Tab.get 0 s.depot.bytes a := by
  have hlen := padTo_length 256 w.data
  rw [pageDone_of_new hbusy hq hwear hnew (fun k c h => by simp [ht] at h) hst hsave hdue,
    storeContents_of_bytes (s := writeEnds w q s) ht (recordOf_of_no_record hrec) hpage hrole]
  refine ⟨rfl, rfl, rfl, ?_, tab_get_set_self 0 _ hbad _, fun a ha => ?_⟩
  · have hread := tab_range_setRange 0 hbytes (256 * w.page) (padTo 256 w.data)
    rwa [hlen] at hread
  · refine (tab_get_setRange 0 hbytes (256 * w.page) (padTo 256 w.data) a).trans (if_neg ?_)
    omega

/-- The write of a twin record gives the copy of its page, and leaves the other. -/
theorem pageDone_of_twin {s : State} {w : DepWrite} {q : List DepWrite} {k : Nat} {c : TwinCopy} (hbusy : s.depot.busy = true)
    (hq : s.depot.queue = w :: q) (ht : w.twin = some (k, c)) (hnext : Tab.get none s.depot.twinNext k = none) (htwins : Rising s.depot.twins)
    (hwear : Tab.get 0 s.depot.wear w.page < 1000000) (hnew : w.srcs ≠ [.refresh]) (hst : s.upd.storing = none)
    (hsave : s.upd.saveDue = none) (hdue : s.depot.due = []) :
    (pageDone s).depot.queue = q ∧ (pageDone s).depot.writes = satInc s.depot.writes ∧
    Tab.get {} (pageDone s).depot.twins k =
      if w.page % 2 = 0 then { Tab.get {} s.depot.twins k with a := c } else { Tab.get {} s.depot.twins k with b := c } := by
  have hfree (j : Nat) (d : TwinCopy) (h : w.twin = some (j, d)) : Tab.get none s.depot.twinNext j = none := by
    obtain ⟨rfl, -⟩ : k = j ∧ c = d := by simpa [ht] using h
    exact hnext
  rw [pageDone_of_new hbusy hq hwear hnew hfree hst hsave hdue, storeContents_of_twin _ ht]
  have hcopy := tab_get_upd {} htwins k k fun t : Twin => if w.page % 2 = 0 then { t with a := c } else { t with b := c }
  rw [if_pos rfl] at hcopy
  exact ⟨rfl, rfl, hcopy⟩

theorem exec_pageWriteDone (s : State) : exec .pageWriteDone s = .next (settle (pageDone s)) := rfl

theorem exec_depotBusyTimeout (s : State) :
    exec .depotBusyTimeout s = .next (settle { s with depot.waiters := dropHostWaiter s.depot.waiters }) := rfl

/-- The patrol read of a page in order moves the patrol on and counts the corrected groups; a weak or corrected page is written back. -/
theorem exec_patrolRead_of_sound (weak corrected : W32) {s : State} (hf : flushes s = true) (hq : s.depot.queue = [])
    (hbad : Tab.get 0 s.depot.bad s.depot.patrol.toNat = 0) (hsoft : Tab.get 0 s.depot.soft s.depot.patrol.toNat = 0)
    (hwear : Tab.get 0 s.depot.wear s.depot.patrol.toNat ≤ 1000000) (hr : Rising s.depot.soft) (hdue : s.depot.due = []) :
    exec (.patrolRead weak corrected) s = .next (
      if (weak ||| corrected) = 0 ∨ s.depot.pfail = true then patrolled corrected s
      else { patrolled corrected s with
        depot.due := [], depot.busy := true,
        depot.queue := [{ page := s.depot.patrol.toNat, data := storedBytes s s.depot.patrol.toNat, srcs := [.refresh] }] }) := by
  refine congrArg Host.Outcome.next ((if_pos hf).trans ((patrolOp_of_sound weak corrected hq hbad hsoft hwear hr hdue).trans ?_))
  split
  · rfl
  next h =>
    have hp : s.depot.pfail = false := by simpa using fun hp => h (.inr hp)
    exact startRefresh_of_sound (s := { patrolled corrected s with depot.due := [s.depot.patrol.toNat] }) rfl hbad hq hp

/-! ## The update -/

theorem exec_verificationEnd_of_some {s : State} {k : Nat} (h : verifyingPart s = some k) :
    exec .verificationEnd s = .next (settle (verifyEnd k s).2) := by
  simp only [exec, execVerificationEnd, h]

theorem exec_verificationEnd_of_none {s : State} (h : verifyingPart s = none) : exec .verificationEnd s = .next s := by
  simp only [exec, execVerificationEnd, h]

theorem exec_updAutoConfirm (s : State) :
    exec .updAutoConfirm s = .next (if canConfirm s = true ∧ s.upd.mode = false then confirmTrial s else s) := by
  simp only [exec, execUpdAutoConfirm, Bool.and_eq_true, Bool.not_eq_true']

theorem exec_updTrialExpired (s : State) : exec .updTrialExpired s = .next (
    if inTrial s = true ∧ s.sys.actPending = false ∧ supRuns s = true then commandReset (accession 0 0x0808 5 [] s) else s) := by
  simp only [exec, execUpdTrialExpired, Bool.and_eq_true, Bool.not_eq_true', and_assoc]

/-- Settles O46: each row by the lemma that says what its operation does, in the cases of its guard. -/
theorem firmwareEvents : Obligations.FirmwareEvents := by
  unfold Obligations.FirmwareEvents
  refine ⟨fun unit code sev data s hroom hhead => accession_log_of_room unit code sev data hroom hhead, fun s h => exec_flushStep_of_held h,
    fun s a l hf hp hz hi hpend hc hb hroom => ?flush, fun s h => exec_freezeExpired_of_free h, fun s h => ?freeze,
    fun s w q hbusy hq ht hpage hrole hbytes hbad hwear hrec hnew hst hsave hdue => ?bytes,
    fun s w q k c hbusy hq ht hnext htwins hwear _ hnew hst hsave hdue => ?twin, fun s h => ?idle, fun s pre whom p post hw hpre => ?timeout,
    fun weak corrected s hf hq hbad hsoft hwear hr hdue => ?patrol, fun s w h hwear => ?refresh, fun s k h hr => ?verified,
    fun s h => exec_verificationEnd_of_none h, fun s h hm => ?confirmed, fun s h => ?unconfirmed, fun s hi ha hs => ?expired,
    fun s h => ?running, fun s => rfl⟩
  case flush =>
    obtain ⟨t, p, hstep, htsk, hlog⟩ := exec_flushStep_of_front hf hp hz hi hpend hc hb hroom
    refine ⟨t, hstep, ?_, ?_, ?_, ?_, ?_, htsk⟩ <;> rw [hlog]
  case freeze =>
    refine ⟨_, exec_freezeExpired_of_frozen h, ?_⟩
    simp only [accession_freeze]
    exact ⟨rfl, rfl⟩
  case bytes =>
    exact ⟨_, exec_pageWriteDone s, pageDone_of_bytes hbusy hq ht hpage hrole hbytes hbad hwear hrec hnew hst hsave hdue⟩
  case twin =>
    obtain ⟨hqueue, hwrites, hcopy⟩ := pageDone_of_twin hbusy hq ht hnext htwins hwear hnew hst hsave hdue
    refine ⟨_, exec_pageWriteDone s, hqueue, hwrites, fun he => ?_, fun ho => ?_⟩
    · rw [hcopy, if_pos he]
      exact ⟨rfl, rfl⟩
    · rw [hcopy, if_neg ho]
      exact ⟨rfl, rfl⟩
  case idle => rw [exec_pageWriteDone, pageDone_of_idle h]
  case timeout => rw [exec_depotBusyTimeout, hw, dropHostWaiter_of_first whom p post hpre]
  case patrol =>
    refine ⟨_, exec_patrolRead_of_sound weak corrected hf hq hbad hsoft hwear hr hdue, ?_, ?_, ?_, fun hz => ?_, fun hn hp => ?_⟩
    · split <;> rfl
    · split <;> rfl
    · split <;> rfl
    · rw [if_pos (.inl hz)]
      exact hq
    · rw [if_neg (not_or.mpr ⟨hn, by simp [hp]⟩)]
      exact ⟨rfl, _, rfl, rfl, rfl, rfl⟩
  case refresh =>
    rw [storePage_of_refresh hwear h]
    exact ⟨rfl, rfl, rfl, rfl, rfl⟩
  case verified => exact ⟨_, exec_verificationEnd_of_some h, verifyEnd_parts hr⟩
  case confirmed =>
    obtain ⟨hwin, hparts⟩ := confirmTrial_upd s
    exact ⟨_, (exec_updAutoConfirm s).trans (congrArg _ (if_pos ⟨h, hm⟩)), trialCount_confirmTrial, hwin, hparts,
      by simp only [confirmTrial_frame], by simp only [confirmTrial_frame]⟩
  case unconfirmed =>
    rw [exec_updAutoConfirm, if_neg]
    rintro ⟨hc, hm⟩
    simp [hc, hm] at h
  case expired =>
    obtain ⟨hcause, htick, -, hsessions, -⟩ := commandReset_restarted (accession 0 0x0808 5 [] s)
    refine ⟨_, (exec_updTrialExpired s).trans (congrArg _ (if_pos ⟨hi, ha, hs⟩)), hcause.trans ?_, htick.trans ?_, hsessions⟩ <;>
      simp only [accession_frame]
  case running =>
    rw [exec_updTrialExpired, if_neg]
    rintro ⟨hi, ha, hs⟩
    simp [hi, ha, hs] at h

end Sys2Proof.Proofs
end
